-- ==== Sys2Proof/Word.lean ====
section
/-! DEFINITION. The word types of the three streams and their plainest arithmetic (R5, R128). -/

namespace Sys2Proof

/-- A byte of memory (R5). -/
abbrev Byte := BitVec 8

/-- A 32-bit value: one lane register, one scalar instruction word. -/
abbrev Half := BitVec 32

/-- A 64-bit value: one scalar register, one special register, one address. -/
abbrev Word := BitVec 64

/-- A register number of the scalar stream or of a stack core. -/
abbrev Reg := BitVec 5

/-- A lane mask: bit i stands for lane i. -/
abbrev Mask := BitVec 32

end Sys2Proof
end

