-- ==== Sys2Proof/Syntax.lean ====
section
/-! DEFINITION. The instructions and device steps of the package: one constructor of `Instr` for each row of
the opcode table. Scalar, lane and stack-core instructions carry the fields of their words (R110, R113, R120);
a device step carries what the step's initiator supplies. The constructors with fields of the streams stand first: Lean
compiles at most 244 such constructors to run-time objects, which is also why the order is not the table's. -/

namespace Sys2Proof

/-- The privilege level of a host core that touches a port (R29, R402). -/
inductive HostLevel where
  | u | s | m
deriving DecidableEq, Repr

/-- The three instruction streams (R109). -/
inductive Stream where
  | scalar | lane | stack
deriving DecidableEq, Repr

/-- A gang, named by its crew and its place in it (R85). -/
structure GangRef where
  crew : Nat
  idx : Nat
deriving DecidableEq, Repr

/-- What a restore or a save meets in the save area (R38): an uncorrectable error, or a tag mismatch, in the
4 KiB chunk at a physical address. -/
inductive SaveError where
  | ue (chunk : Nat)
  | tag (chunk : Nat)
deriving DecidableEq, Repr

/-- A flit of a Causeway flow (R391). -/
structure Flit where
  flow : Nat
  kind : Nat
  poison : Bool
  nocheck : Bool
  last : Bool
  seq : Half
  c0 : Word
  c1 : Word
  dtype : Nat
  ack : Half
  payload : List Byte
deriving DecidableEq, Repr

/-- What R386 does about a fault of a module: a flit replayed after its CRC, or a lane repaired with a redundant one. -/
inductive UcieWork where
  | replay | repair
deriving DecidableEq, Repr

/-- The links of R387. -/
inductive UcieLink where
  | ring (die : Nat)      -- compute die `die` to the next die of the ring
  | base (die : Nat)      -- compute die to its base die
  | landing (die : Nat)   -- compute die to its landing die
  | harbour (die : Nat)   -- compute die to the harbour die
deriving DecidableEq, Repr

/-- Modules of a link, 0 for one that is not there (R16). -/
def UcieLink.modules : UcieLink → Nat
  | .ring d => if 8 ≤ d then 0 else if d % 2 == 0 then 8 else 4
  | .base d => if 8 ≤ d then 0 else 12
  | .landing d => if 8 ≤ d then 0 else 2
  | .harbour d => if 8 ≤ d then 0 else 1

/-- Where a storage code detects an error (R375; in base-die SRAM, bytes 0 to 131,071 are a core's local SRAM, and the
save slot of the core follows), a check value stops matching its sector (R377), or a fault
strikes the computation of one gang of a leader and shadow pair (R382): a k register, or a lane of a register slot, of
the leader or the shadow differs from what it should hold by the bits of `flip`. -/
inductive ErrorSite where
  | laneReg (g : GangRef) (slot lane : Nat)
  | kReg (g : GangRef) (r : Nat)
  | specialReg (g : GangRef) (srn : Nat)
  | l1 (core line : Nat)
  | l2 (pa : Nat)
  | multicastBuffer (cluster index sector : Nat)
  | bankRow (core site row : Nat)
  | column (core site col : Nat)
  | dram (pa : Nat)
  | baseSram (die core off : Nat)
  | saveArea (crew chunk : Nat)
  | checkValue (pa : Nat) (value : BitVec 16)
  | compute (g : GangRef) (shadow scalar : Bool) (reg lane : Nat) (flip : Word)
deriving DecidableEq, Repr

/-- One entry of the region table (R222), 16 bytes. -/
structure RgnEntry where
  base : Word
  size : Half
  pcOff : BitVec 16
  mode : Byte
  stack : Byte
deriving DecidableEq, Repr

/-- One image of a firmware bundle (R403). -/
structure Image where
  bytes : List Byte
  signature : List Byte
  version : Nat
deriving DecidableEq, Repr

/-- A firmware bundle: its images and its version (R2, ID_FW). -/
structure Bundle where
  images : List Image
  major : Byte
  minor : Byte
  fix : Byte
deriving DecidableEq, Repr

/-- What a management client asks to read (R406). -/
inductive MgmtItem where
  | inventory | idBlock | errorLog | powerLimit | bootStatus
deriving DecidableEq, Repr

/-- The read-modify-write operations of a host core (R401: RV64GCV, its A extension). -/
inductive HostAmo where
  | swap | add | xor | and | or | min | max | minu | maxu
deriving DecidableEq, Repr

/-- What a host-core access does. -/
inductive HostOp where
  | load (signed : Bool)
  | store (data : Word)
  | amo (op : HostAmo) (data : Word)
  | reserve
  | conditional (data : Word)
deriving DecidableEq, Repr

/-- A host-core access (R401): the core, its level, the physical address, the size in bytes, what it does, and the x
register that takes what it returns. -/
structure HostAcc where
  core : Nat
  lvl : HostLevel
  addr : Word
  size : Nat
  op : HostOp
  reg : Nat
deriving DecidableEq, Repr

/-- Who writes PWRCTL (R407): a host core, or the management port. -/
inductive PwrSource where
  | host (lvl : HostLevel)
  | port
deriving DecidableEq, Repr

/-- Why an instruction word could not be fetched (R109, R336). -/
inductive FetchFault where
  | seg (va : Word)
  | align (va : Word)
  | xlat (va : Word) (level : Nat)
  | prot (va : Word)
  | ue (va : Word)
deriving DecidableEq, Repr

/-- The operand types of a lane word, by their TY codes 0 to 15 (R116). -/
inductive Ty where
  | b32 | s32 | n32 | s64 | n64 | f32 | f64 | f16x2 | bf16x2 | s16x2 | n16x2 | s8x4 | n8x4 | e4m3x4 | e5m2x4
  | reserved
deriving DecidableEq, Repr

/-- The fields of a lane word below OPC and FN (R113). The operand fields keep their 8-bit codes (R114). -/
structure LaneF where
  ty : Ty
  gp : BitVec 3
  gn : Bool
  nwb : Bool
  lt : BitVec 2
  dst : BitVec 8
  sa : BitVec 8
  sb : BitVec 8
  sc : BitVec 8
  md : BitVec 7
  imm : Half
deriving DecidableEq, Repr

/-- A w or ba register number of a stack core (R120). -/
abbrev WReg := BitVec 4

/-- One step of the package. -/
inductive Instr where
  /-- KADD (R154). -/
  | kadd (d : Reg) (a : Reg) (b : Reg)
  /-- KSUB (R154). -/
  | ksub (d : Reg) (a : Reg) (b : Reg)
  /-- KAND (R154). -/
  | kand (d : Reg) (a : Reg) (b : Reg)
  /-- KOR (R154). -/
  | kor (d : Reg) (a : Reg) (b : Reg)
  /-- KXOR (R154). -/
  | kxor (d : Reg) (a : Reg) (b : Reg)
  /-- KSHL (R154). -/
  | kshl (d : Reg) (a : Reg) (b : Reg)
  /-- KSHR (R154). -/
  | kshr (d : Reg) (a : Reg) (b : Reg)
  /-- KSRA (R154). -/
  | ksra (d : Reg) (a : Reg) (b : Reg)
  /-- KMUL (R154). -/
  | kmul (d : Reg) (a : Reg) (b : Reg)
  /-- KMULH (R154). -/
  | kmulh (d : Reg) (a : Reg) (b : Reg)
  /-- KMULHN (R154). -/
  | kmulhn (d : Reg) (a : Reg) (b : Reg)
  /-- KDIV (R154). -/
  | kdiv (d : Reg) (a : Reg) (b : Reg)
  /-- KDIVN (R154). -/
  | kdivn (d : Reg) (a : Reg) (b : Reg)
  /-- KREM (R154). -/
  | krem (d : Reg) (a : Reg) (b : Reg)
  /-- KREMN (R154). -/
  | kremn (d : Reg) (a : Reg) (b : Reg)
  /-- KMIN (R154). -/
  | kmin (d : Reg) (a : Reg) (b : Reg)
  /-- KMAX (R154). -/
  | kmax (d : Reg) (a : Reg) (b : Reg)
  /-- KMINN (R154). -/
  | kminn (d : Reg) (a : Reg) (b : Reg)
  /-- KMAXN (R154). -/
  | kmaxn (d : Reg) (a : Reg) (b : Reg)
  /-- KSLT (R154). -/
  | kslt (d : Reg) (a : Reg) (b : Reg)
  /-- KSLTN (R154). -/
  | ksltn (d : Reg) (a : Reg) (b : Reg)
  /-- KSEQ (R154). -/
  | kseq (d : Reg) (a : Reg) (b : Reg)
  /-- KCLZ (R154). -/
  | kclz (d : Reg) (a : Reg)
  /-- KPOPC (R154). -/
  | kpopc (d : Reg) (a : Reg)
  /-- KADDI (R155). -/
  | kaddi (d : Reg) (a : Reg) (i : BitVec 16)
  /-- KANDI (R155). -/
  | kandi (d : Reg) (a : Reg) (i : BitVec 16)
  /-- KORI (R155). -/
  | kori (d : Reg) (a : Reg) (i : BitVec 16)
  /-- KXORI (R155). -/
  | kxori (d : Reg) (a : Reg) (i : BitVec 16)
  /-- KSHLI (R155). -/
  | kshli (d : Reg) (a : Reg) (i : BitVec 6)
  /-- KSHRI (R155). -/
  | kshri (d : Reg) (a : Reg) (i : BitVec 6)
  /-- KSRAI (R155). -/
  | ksrai (d : Reg) (a : Reg) (i : BitVec 6)
  /-- KSLTI (R155). -/
  | kslti (d : Reg) (a : Reg) (i : BitVec 16)
  /-- KSLTNI (R155). -/
  | ksltni (d : Reg) (a : Reg) (i : BitVec 16)
  /-- KLUI (R156). -/
  | klui (d : Reg) (i : BitVec 16)
  /-- KINS (R157). -/
  | kins (d : Reg) (a : Reg) (w : BitVec 6) (p : BitVec 6)
  /-- KLD (R159). -/
  | kld (d : Reg) (a : Reg) (s : BitVec 2) (m : BitVec 3) (o : BitVec 11)
  /-- KST (R159). -/
  | kst (d : Reg) (a : Reg) (s : BitVec 2) (w : BitVec 2) (o : BitVec 11)
  /-- KBR (R160). -/
  | kbr (c : BitVec 5) (a : Reg) (i : BitVec 16)
  /-- KJAL (R161). -/
  | kjal (i : BitVec 26)
  /-- KJALR (R161). -/
  | kjalr (d : Reg) (a : Reg) (i : BitVec 16)
  /-- KCALL (R97). -/
  | kcall (s : BitVec 4) (i : BitVec 22)
  /-- KRET (R98). -/
  | kret (s : BitVec 4)
  /-- LBK (R89). -/
  | lbk (a : Reg) (i : BitVec 16)
  /-- LGET (R90). -/
  | lget (d : Reg) (a : Reg)
  /-- LSLOTS (R90). -/
  | lslots (d : Reg)
  /-- CSRR (R163). -/
  | csrr (d : Reg) (n : BitVec 10)
  /-- CSRW (R163). -/
  | csrw (a : Reg) (n : BitVec 10)
  /-- KTRAP (R164). -/
  | ktrap (a : Reg)
  /-- SGLD (R167). -/
  | sgld (a : Reg)
  /-- KTLBI (R168). -/
  | ktlbi (a : Reg) (b : Reg)
  /-- FENCE (R170). -/
  | fence (s : BitVec 5) (b : BitVec 1)
  /-- FENCE_ACQ (R170). -/
  | fenceAcq (s : BitVec 5) (b : BitVec 1)
  /-- FENCE_REL (R170). -/
  | fenceRel (s : BitVec 5) (b : BitVec 1)
  /-- FENCE_SC (R171). -/
  | fenceSc (s : BitVec 5) (b : BitVec 1)
  /-- FENCEX (R172). -/
  | fencex (s : BitVec 5) (f : BitVec 5) (t : BitVec 5)
  /-- PWAIT (R173). -/
  | pwait (p : BitVec 5) (a : Reg)
  /-- CBWAIT (R173). -/
  | cbwait (a : Reg)
  /-- CSEAL (R174). -/
  | cseal (d : Reg)
  /-- SREC (R175). -/
  | srec (s : BitVec 5) (a : Reg)
  /-- CPM (R176). -/
  | cpm (a : Reg)
  /-- BARINIT (R325). -/
  | barinit (a : Reg) (b : Reg)
  /-- BARR (R325). -/
  | barr (d : Reg) (a : Reg)
  /-- BARW (R325). -/
  | barw (a : Reg) (b : Reg)
  /-- BARRW (R325). -/
  | barrw (d : Reg) (a : Reg)
  /-- BARX (R325). -/
  | barx (a : Reg) (b : Reg)
  /-- RGROW (R100). -/
  | rgrow (d : Reg) (a : Reg)
  /-- RSHRK (R100). -/
  | rshrk (d : Reg) (a : Reg)
  /-- RACQ (R100). -/
  | racq (d : Reg)
  /-- BMODE_STOR (R284). -/
  | bmodeStor (a : Reg)
  /-- BMODE_COMP (R284). -/
  | bmodeComp (a : Reg)
  /-- BSTEP_OFF (R285). -/
  | bstepOff (a : Reg)
  /-- BSTEP_ON (R285). -/
  | bstepOn (a : Reg)
  /-- BSTEP_STEP (R285). -/
  | bstepStep (a : Reg)
  /-- BQUERY (R286). -/
  | bquery (d : Reg) (a : Reg)
  /-- BSYNC (R287). -/
  | bsync (a : Reg)
  /-- BV_ADD (R293). -/
  | bvAdd (a : Reg)
  /-- BV_SUB (R293). -/
  | bvSub (a : Reg)
  /-- BV_MUL (R293). -/
  | bvMul (a : Reg)
  /-- BV_NEG (R293). -/
  | bvNeg (a : Reg)
  /-- BV_ADDK (R293). -/
  | bvAddk (a : Reg) (b : Reg)
  /-- BV_AND (R293). -/
  | bvAnd (a : Reg)
  /-- BV_OR (R293). -/
  | bvOr (a : Reg)
  /-- BV_XOR (R293). -/
  | bvXor (a : Reg)
  /-- BV_NOT (R293). -/
  | bvNot (a : Reg)
  /-- BV_CPY (R293). -/
  | bvCpy (a : Reg)
  /-- BV_SET (R293). -/
  | bvSet (a : Reg) (b : Reg)
  /-- BV_SHL (R293). -/
  | bvShl (a : Reg) (b : Reg)
  /-- BV_SHR (R293). -/
  | bvShr (a : Reg) (b : Reg)
  /-- BV_CMPEQ (R293). -/
  | bvCmpeq (a : Reg)
  /-- BV_CMPLT (R293). -/
  | bvCmplt (a : Reg)
  /-- BV_CMPLTN (R293). -/
  | bvCmpltn (a : Reg)
  /-- BV_SEL (R293). -/
  | bvSel (a : Reg)
  /-- BV_PLD (R293). -/
  | bvPld (a : Reg)
  /-- BV_PST (R293). -/
  | bvPst (a : Reg)
  /-- MTX (R306). -/
  | mtx (a : Reg) (b : Reg)
  /-- MCLR (R317). -/
  | mclr (a : Reg)
  /-- MDRAIN (R316). -/
  | mdrain (a : Reg) (b : Reg)
  /-- KLAUNCH (R81). -/
  | klaunch (d : Reg) (a : Reg)
  /-- BDSUB (R177). -/
  | bdsub (d : Reg) (a : Reg)
  /-- VBEG (R178). -/
  | vbeg (d : Reg)
  /-- VCOM (R178). -/
  | vcom (d : Reg)
  /-- IADD (R182). -/
  | iadd (f : LaneF)
  /-- ISUB (R182). -/
  | isub (f : LaneF)
  /-- IMUL (R182). -/
  | imul (f : LaneF)
  /-- IMULH (R182). -/
  | imulh (f : LaneF)
  /-- IMAD (R182). -/
  | imad (f : LaneF)
  /-- IABS (R182). -/
  | iabs (f : LaneF)
  /-- INEG (R182). -/
  | ineg (f : LaneF)
  /-- IMIN (R182). -/
  | imin (f : LaneF)
  /-- IMAX (R182). -/
  | imax (f : LaneF)
  /-- IADDC (R182). -/
  | iaddc (f : LaneF)
  /-- ISAD (R182). -/
  | isad (f : LaneF)
  /-- IDP4 (R182). -/
  | idp4 (f : LaneF)
  /-- AND (R183). -/
  | lAnd (f : LaneF)
  /-- OR (R183). -/
  | lOr (f : LaneF)
  /-- XOR (R183). -/
  | lXor (f : LaneF)
  /-- NOT (R183). -/
  | lNot (f : LaneF)
  /-- ANDN (R183). -/
  | andn (f : LaneF)
  /-- LOP3 (R183). -/
  | lop3 (f : LaneF)
  /-- SHL (R184). -/
  | shl (f : LaneF)
  /-- SHR (R184). -/
  | shr (f : LaneF)
  /-- SRA (R184). -/
  | sra (f : LaneF)
  /-- ROTL (R184). -/
  | rotl (f : LaneF)
  /-- POPC (R184). -/
  | popc (f : LaneF)
  /-- CLZ (R184). -/
  | clz (f : LaneF)
  /-- BREV (R184). -/
  | brev (f : LaneF)
  /-- BFE (R184). -/
  | bfe (f : LaneF)
  /-- BFI (R184). -/
  | bfi (f : LaneF)
  /-- PRMT (R184). -/
  | prmt (f : LaneF)
  /-- ICMP (R185). -/
  | icmp (f : LaneF)
  /-- PAND (R186). -/
  | pand (f : LaneF)
  /-- POR (R186). -/
  | por (f : LaneF)
  /-- PXOR (R186). -/
  | pxor (f : LaneF)
  /-- PNOT (R186). -/
  | pnot (f : LaneF)
  /-- MOV (R187). -/
  | mov (f : LaneF)
  /-- MOVI (R187). -/
  | movi (f : LaneF)
  /-- SEL (R187). -/
  | sel (f : LaneF)
  /-- GETSR (R187). -/
  | getsr (f : LaneF)
  /-- CVT (R188). -/
  | cvt (f : LaneF)
  /-- CVT_PK (R189). -/
  | cvtPk (f : LaneF)
  /-- CVT_Q8 (R190). -/
  | cvtQ8 (f : LaneF)
  /-- FADD (R206). -/
  | fadd (f : LaneF)
  /-- FSUB (R206). -/
  | fsub (f : LaneF)
  /-- FMUL (R206). -/
  | fmul (f : LaneF)
  /-- FFMA (R206). -/
  | ffma (f : LaneF)
  /-- FMIN (R206). -/
  | fmin (f : LaneF)
  /-- FMAX (R206). -/
  | fmax (f : LaneF)
  /-- FABS (R206). -/
  | fabs (f : LaneF)
  /-- FNEG (R206). -/
  | fneg (f : LaneF)
  /-- FSCALE (R206). -/
  | fscale (f : LaneF)
  /-- FCMP (R207). -/
  | fcmp (f : LaneF)
  /-- FCLASS (R207). -/
  | fclass (f : LaneF)
  /-- FRCP (R209). -/
  | frcp (f : LaneF)
  /-- FRSQ (R209). -/
  | frsq (f : LaneF)
  /-- FSQRT (R209). -/
  | fsqrt (f : LaneF)
  /-- FDIV (R209). -/
  | fdiv (f : LaneF)
  /-- FEXP2 (R209). -/
  | fexp2 (f : LaneF)
  /-- FLOG2 (R209). -/
  | flog2 (f : LaneF)
  /-- FSIN (R209). -/
  | fsin (f : LaneF)
  /-- FCOS (R209). -/
  | fcos (f : LaneF)
  /-- SMM8 (R213). -/
  | smm8 (f : LaneF)
  /-- SMM8_TB (R213). -/
  | smm8Tb (f : LaneF)
  /-- SHFL (R216). -/
  | shfl (f : LaneF)
  /-- VOTE (R217). -/
  | vote (f : LaneF)
  /-- BALLOT (R217). -/
  | ballot (f : LaneF)
  /-- REDUX (R219). -/
  | redux (f : LaneF)
  /-- MATCH (R218). -/
  | xmatch (f : LaneF)
  /-- SCAN (R219). -/
  | scan (f : LaneF)
  /-- LD (R198). -/
  | ld (f : LaneF)
  /-- LD_REC (R199). -/
  | ldRec (f : LaneF)
  /-- ST (R200). -/
  | st (f : LaneF)
  /-- ATOM_ADD (R201). -/
  | atomAdd (f : LaneF)
  /-- ATOM_MIN (R201). -/
  | atomMin (f : LaneF)
  /-- ATOM_MAX (R201). -/
  | atomMax (f : LaneF)
  /-- ATOM_MINN (R201). -/
  | atomMinn (f : LaneF)
  /-- ATOM_MAXN (R201). -/
  | atomMaxn (f : LaneF)
  /-- ATOM_AND (R201). -/
  | atomAnd (f : LaneF)
  /-- ATOM_OR (R201). -/
  | atomOr (f : LaneF)
  /-- ATOM_XOR (R201). -/
  | atomXor (f : LaneF)
  /-- ATOM_EXCH (R201). -/
  | atomExch (f : LaneF)
  /-- ATOM_CAS (R201). -/
  | atomCas (f : LaneF)
  /-- ATOM_FADD (R201). -/
  | atomFadd (f : LaneF)
  /-- CPA (R241). -/
  | cpa (f : LaneF)
  /-- CPT (R244). -/
  | cpt (f : LaneF)
  /-- BRA (R192). -/
  | bra (f : LaneF)
  /-- CPR (R297). -/
  | cpr (f : LaneF)
  /-- CPW (R297). -/
  | cpw (f : LaneF)
  /-- XFM_TR (R254). -/
  | xfmTr (f : LaneF)
  /-- XFM_Q (R254). -/
  | xfmQ (f : LaneF)
  /-- XFM_DQ (R254). -/
  | xfmDq (f : LaneF)
  /-- XFM_X4 (R254). -/
  | xfmX4 (f : LaneF)
  /-- XFM_ZC (R254). -/
  | xfmZc (f : LaneF)
  /-- XFM_ZD (R254). -/
  | xfmZd (f : LaneF)
  /-- LNOP (R203). -/
  | lnop (f : LaneF)
  /-- LSTAT (R203). -/
  | lstat (f : LaneF)
  /-- LCLOCK (R203). -/
  | lclock (f : LaneF)
  /-- SADD (R340). -/
  | sadd (d a b : Reg)
  /-- SSUB (R340). -/
  | ssub (d a b : Reg)
  /-- SAND (R340). -/
  | sand (d a b : Reg)
  /-- SOR (R340). -/
  | sor (d a b : Reg)
  /-- SXOR (R340). -/
  | sxor (d a b : Reg)
  /-- SSHL (R340). -/
  | sshl (d a b : Reg)
  /-- SSHR (R340). -/
  | sshr (d a b : Reg)
  /-- SSRA (R340). -/
  | ssra (d a b : Reg)
  /-- SMUL (R340). -/
  | smul (d a b : Reg)
  /-- SSLT (R340). -/
  | sslt (d a b : Reg)
  /-- SSLTN (R340). -/
  | ssltn (d a b : Reg)
  /-- SADDI (R340). -/
  | saddi (d a : Reg) (imm : Half)
  /-- SLI (R340). -/
  | sli (d : Reg) (imm : Half)
  /-- SLHI (R340). -/
  | slhi (d : Reg) (imm : Half)
  /-- SLD (R341). -/
  | sld (d a : Reg) (w : BitVec 3) (ls : Bool) (imm : Half)
  /-- SST (R341). -/
  | sst (d a : Reg) (w : BitVec 2) (ls : Bool) (imm : Half)
  /-- SBEQ (R342). -/
  | sbeq (a b : Reg) (imm : Half)
  /-- SBNE (R342). -/
  | sbne (a b : Reg) (imm : Half)
  /-- SBLT (R342). -/
  | sblt (a b : Reg) (imm : Half)
  /-- SBGE (R342). -/
  | sbge (a b : Reg) (imm : Half)
  /-- SJAL (R342). -/
  | sjal (d : Reg) (imm : Half)
  /-- SJR (R342). -/
  | sjr (d a : Reg) (imm : Half)
  /-- VLD (R343). -/
  | vld (d : WReg) (a : Reg) (ls : Bool) (imm : Half)
  /-- VST (R343). -/
  | vst (d : WReg) (a : Reg) (ls : Bool) (imm : Half)
  /-- VLDS (R343). -/
  | vlds (d : WReg) (a b : Reg) (ls : Bool) (imm : Half)
  /-- VSTS (R343). -/
  | vsts (d : WReg) (a b : Reg) (ls : Bool) (imm : Half)
  /-- VSPLAT (R343). -/
  | vsplat (d : WReg) (a : Reg)
  /-- VADD (R344). -/
  | vadd (d a b : WReg) (s32 : Bool) (rnd : BitVec 3) (ftz : Bool)
  /-- VSUB (R344). -/
  | vsub (d a b : WReg) (s32 : Bool) (rnd : BitVec 3) (ftz : Bool)
  /-- VMUL (R344). -/
  | vmul (d a b : WReg) (s32 : Bool) (rnd : BitVec 3) (ftz : Bool)
  /-- VFMA (R344). -/
  | vfma (d a b : WReg) (rnd : BitVec 3) (ftz : Bool)
  /-- VMIN (R344). -/
  | vmin (d a b : WReg) (s32 ftz : Bool)
  /-- VMAX (R344). -/
  | vmax (d a b : WReg) (s32 ftz : Bool)
  /-- VCVT (R345). -/
  | vcvt (d a : WReg) (code : BitVec 4) (rnd : BitVec 3) (ftz : Bool)
  /-- VBACC_F32 (R346). -/
  | vbaccF32 (d a : WReg)
  /-- VBACC_MUL_F32 (R346). -/
  | vbaccMulF32 (d a b : WReg)
  /-- VBACC_MUL_BF16 (R346). -/
  | vbaccMulBf16 (d a b : WReg)
  /-- VBRD (R346). -/
  | vbrd (d a : WReg)
  /-- VBCLR (R346). -/
  | vbclr (d : WReg)
  /-- VHSUM (R346). -/
  | vhsum (d : Reg) (a : WReg)
  /-- MSEND (R348). -/
  | msend (a : Reg) (b : WReg)
  /-- MRECV (R348). -/
  | mrecv (d : WReg) (a : Reg)
  /-- MWAIT (R348). -/
  | mwait (d a : Reg)
  /-- MPOLL (R348). -/
  | mpoll (d a : Reg)
  /-- SFLAG (R349). -/
  | sflag (a b : Reg) (add : Bool)
  /-- SCSRR (R349). -/
  | scsrr (d : Reg) (n : BitVec 12)
  /-- SCSRW (R349). -/
  | scsrw (n : BitVec 12) (a : Reg)
  /-- INSTRUCTION_FETCH_FAULT (R109). -/
  | instructionFetchFault (st : Stream) (why : FetchFault)
  /-- ILLEGAL_INSTRUCTION (R121). -/
  | illegalInstruction (st : Stream)
  /-- LSYNC (R90). -/
  | lsync
  /-- KNOP (R162). -/
  | knop
  /-- KERET (R165). -/
  | keret
  /-- KEND (R166). -/
  | kend
  /-- KBRK (R164). -/
  | kbrk
  /-- KYIELD (R169). -/
  | kyield
  /-- JOIN (R193). -/
  | join
  /-- LEND (R193). -/
  | lend
  /-- SFENCE (R337). -/
  | sfence
  /-- SHALT (R349). -/
  | shalt
  /-- SYIELD (R338). -/
  | syield
  /-- PACKAGE_RESET (R403). -/
  | packageReset
  /-- CREATE (R36). -/
  | create (lvl : HostLevel) (desc : Word)
  /-- ENABLE (R36). -/
  | enable (lvl : HostLevel) (desc : Word)
  /-- QUIESCE (R36). -/
  | quiesce (lvl : HostLevel) (desc : Word)
  /-- QUIESCE_DONE (R36). -/
  | quiesceDone (asid : Nat)
  /-- RESUME (R37). -/
  | resume (lvl : HostLevel) (desc : Word)
  /-- DESTROY (R36). -/
  | destroy (lvl : HostLevel) (desc : Word)
  /-- CPCTL_BADOP (R35). -/
  | cpctlBadop (lvl : HostLevel) (value : Word)
  /-- CPTLBI_PAGE (R50). -/
  | cptlbiPage (lvl : HostLevel) (asid : BitVec 12)
  /-- CPTLBI_ALL (R50). -/
  | cptlbiAll (lvl : HostLevel) (asid : BitVec 12)
  /-- TLBI_ACK (R48). -/
  | tlbiAck (id agent : Nat)
  /-- TLBI_TIMEOUT (R49). -/
  | tlbiTimeout (id : Nat)
  /-- DOORBELL (R55). -/
  | doorbell (lvl : HostLevel) (value : Word)
  /-- WIDX_POLL (R55). -/
  | widxPoll (asid queue : Nat)
  /-- LAUNCH (R80). -/
  | launch (asid queue : Nat)
  /-- COPY (R57). -/
  | copy (asid queue : Nat)
  /-- COPY_COMMAND_DONE (R59). -/
  | copyCommandDone (asid queue index : Nat)
  /-- STACKTASK (R335). -/
  | stacktask (asid queue : Nat)
  /-- WAIT (R62). -/
  | wait (asid queue : Nat)
  /-- WAIT_EVAL (R62). -/
  | waitEval (asid queue index : Nat)
  /-- SIGNAL (R63). -/
  | signal (asid queue : Nat)
  /-- AGGREGATE_CLOSE (R82). -/
  | aggregateClose (id : Nat)
  /-- CREW_ADMIT (R86). -/
  | crewAdmit (core : Nat)
  /-- CREW_WAKE_DONE (R86). -/
  | crewWakeDone (crew : Nat)
  /-- PREEMPT (R359). -/
  | preempt (core : Nat)
  /-- SHADOW_SWAP_DONE (R362). -/
  | shadowSwapDone (crew : Nat)
  /-- SAVE_ENGINE_WRITE (R362). -/
  | saveEngineWrite (crew : Nat) (err : Option SaveError)
  /-- COPY_DRAIN_LIMIT (R258). -/
  | copyDrainLimit (crew : Nat)
  /-- PAGE_WRITEBACK_DONE (R235). -/
  | pageWritebackDone (crew page : Nat)
  /-- CREW_RESTORE (R365). -/
  | crewRestore (crew : Nat) (err : Option SaveError)
  /-- PAGE_REFILL_DONE (R235). -/
  | pageRefillDone (crew page : Nat) (err : Option SaveError)
  /-- GRANT (R101). -/
  | grant (core : Nat)
  /-- DEADLOCK (R102). -/
  | deadlock (core : Nat)
  /-- REGBANK_POWER_GATE (R104). -/
  | regbankPowerGate (core bank : Nat)
  /-- CHAIN_BREAK (R107). -/
  | chainBreak (g : GangRef)
  /-- KYIELD_EXPIRE (R169). -/
  | kyieldExpire (g : GangRef)
  /-- LANE_BLOCK_START (R88). -/
  | laneBlockStart (g : GangRef)
  /-- WAIT_END (R87). -/
  | waitEnd (g : GangRef)
  /-- LOAD_RETURN (R198). -/
  | loadReturn (g : GangRef) (id : Nat)
  /-- STORE_ACK (R196). -/
  | storeAck (g : GangRef)
  /-- COPY_LAND (R245). -/
  | copyLand (id : Nat)
  /-- MULTICAST_DELIVERY (R250). -/
  | multicastDelivery (id receiver : Nat)
  /-- BANK_OP_COMPLETE (R280). -/
  | bankOpComplete (core site : Nat)
  /-- MX_START (R306). -/
  | mxStart (id : Nat)
  /-- MX_COMPLETE (R313). -/
  | mxComplete (id : Nat)
  /-- SMM_COMPLETE (R214). -/
  | smmComplete (g : GangRef)
  /-- XFM_REPLY (R254). -/
  | xfmReply (g : GangRef)
  /-- HEARTBEAT_TICK (R270). -/
  | heartbeatTick
  /-- REGION_COMMIT (R227). -/
  | regionCommit (lvl : HostLevel)
  /-- REGION_COMMIT_DONE (R227). -/
  | regionCommitDone
  /-- DEBUG_HALT (R374). -/
  | debugHalt (lvl : HostLevel)
  /-- DEBUG_RESUME (R374). -/
  | debugResume (lvl : HostLevel)
  /-- DEBUG_STEP (R374). -/
  | debugStep (lvl : HostLevel) (stream : BitVec 2)
  /-- DEBUG_BACK (R372). -/
  | debugBack (lvl : HostLevel)
  /-- DEBUG_CQUIESCE (R257). -/
  | debugCquiesce (lvl : HostLevel)
  /-- DEBUG_ARMBRK (R374). -/
  | debugArmbrk (lvl : HostLevel)
  /-- DEBUG_DISARMBRK (R374). -/
  | debugDisarmbrk (lvl : HostLevel)
  /-- DEBUG_READ (R373). -/
  | debugRead (lvl : HostLevel) (sel : BitVec 16)
  /-- DEBUG_WRITE (R373). -/
  | debugWrite (lvl : HostLevel) (sel : BitVec 16)
  /-- DEBUG_BADOP (R373). -/
  | debugBadop (lvl : HostLevel) (op : BitVec 4)
  /-- STACK_FLUSH_DONE (R335). -/
  | stackFlushDone (task : Nat)
  /-- STACK_INSTANCE_START (R333). -/
  | stackInstanceStart (die core : Nat)
  /-- STACK_PREEMPT (R338). -/
  | stackPreempt (die core : Nat)
  /-- STACK_TASK_FINISH (R335). -/
  | stackTaskFinish (task : Nat)
  /-- CWPCTL_ENABLE (R390). -/
  | cwpctlEnable (lvl : HostLevel) (port : Nat) (on : Bool)
  /-- CWPCTL_FENCE (R390). -/
  | cwpctlFence (lvl : HostLevel) (port : Nat) (on : Bool)
  /-- PORT_TRAINING_DONE (R390). -/
  | portTrainingDone (port : Nat) (lanes : BitVec 4) (peerSerial : Word) (peerGroup : Nat)
  /-- PORT_TRAINING_TIMEOUT (R390). -/
  | portTrainingTimeout (port : Nat) (lanes : BitVec 4)
  /-- RETRAIN_TRIGGER (R390). -/
  | retrainTrigger (port : Nat) (lanes : BitVec 4)
  /-- RETRAIN_DONE (R390). -/
  | retrainDone (port : Nat) (lanes : BitVec 4)
  /-- RETRAIN_TIMEOUT (R390). -/
  | retrainTimeout (port : Nat) (lanes : BitVec 4)
  /-- FLIT_RECEIVE (R393). -/
  | flitReceive (port : Nat) (image : List Byte)
  /-- ACK_RECEIVE (R392). -/
  | ackReceive (port flow : Nat) (ack : Half)
  /-- NAK_RECEIVE (R393). -/
  | nakReceive (port flow : Nat) (seq : Half)
  /-- GROUP_STALL_TIMEOUT (R394). -/
  | groupStallTimeout (group : Nat)
  /-- CWRING_WRITE (R395). -/
  | cwringWrite (lvl : HostLevel) (value : Word)
  /-- CW_RING_POLL (R395). -/
  | cwRingPoll (asid land : Nat)
  /-- SEND (R397). -/
  | send (asid land : Nat)
  /-- RECV (R397). -/
  | recv (asid land : Nat)
  /-- RECVADD (R399). -/
  | recvadd (asid land : Nat)
  /-- UCIE_REPAIR (R386), in a module of a die, on a logical lane. -/
  | ucieRepair (work : UcieWork) (die : Nat) (logical : BitVec 6)
  /-- UCIE_MODULE_LOSS (R387), of a link's module of a number. -/
  | ucieModuleLoss (module : UcieLink × Nat)
  /-- SOFT_ERROR (R375). -/
  | softError (at_ : ErrorSite) (corrected : Bool)
  /-- ERRLOG_POP (R405). -/
  | errlogPop (lvl : HostLevel)
  /-- PWRCTL_WRITE (R407). -/
  | pwrctlWrite (src : PwrSource) (value : Word)
  /-- THROTTLE_ADJUST (R408). -/
  | throttleAdjust (power : BitVec 12) (tmax : BitVec 8)
  /-- THERMAL_TRIP (R408). -/
  | thermalTrip
  /-- ATTESTATION_REQUEST (R404). -/
  | attestationRequest (viaHostM : Bool) (nonce : List Byte)
  /-- FIRMWARE_STAGE (R406). -/
  | firmwareStage (bundle : Bundle)
  /-- MGMT_READ (R406). -/
  | mgmtRead (item : MgmtItem)
  /-- HOST_ACCESS (R401). -/
  | hostAccess (acc : HostAcc)
  /-- REGISTER_WRITE (R9). -/
  | registerWrite (lvl : HostLevel) (addr value : Word)
deriving DecidableEq, Repr

/-- Which rows are instructions of a stream, and of which (R109); the other rows are steps of the device. -/
def Instr.stream? : Instr → Option Stream
  | .kadd _ _ _ => some .scalar
  | .ksub _ _ _ => some .scalar
  | .kand _ _ _ => some .scalar
  | .kor _ _ _ => some .scalar
  | .kxor _ _ _ => some .scalar
  | .kshl _ _ _ => some .scalar
  | .kshr _ _ _ => some .scalar
  | .ksra _ _ _ => some .scalar
  | .kmul _ _ _ => some .scalar
  | .kmulh _ _ _ => some .scalar
  | .kmulhn _ _ _ => some .scalar
  | .kdiv _ _ _ => some .scalar
  | .kdivn _ _ _ => some .scalar
  | .krem _ _ _ => some .scalar
  | .kremn _ _ _ => some .scalar
  | .kmin _ _ _ => some .scalar
  | .kmax _ _ _ => some .scalar
  | .kminn _ _ _ => some .scalar
  | .kmaxn _ _ _ => some .scalar
  | .kslt _ _ _ => some .scalar
  | .ksltn _ _ _ => some .scalar
  | .kseq _ _ _ => some .scalar
  | .kclz _ _ => some .scalar
  | .kpopc _ _ => some .scalar
  | .kaddi _ _ _ => some .scalar
  | .kandi _ _ _ => some .scalar
  | .kori _ _ _ => some .scalar
  | .kxori _ _ _ => some .scalar
  | .kshli _ _ _ => some .scalar
  | .kshri _ _ _ => some .scalar
  | .ksrai _ _ _ => some .scalar
  | .kslti _ _ _ => some .scalar
  | .ksltni _ _ _ => some .scalar
  | .klui _ _ => some .scalar
  | .kins _ _ _ _ => some .scalar
  | .kld _ _ _ _ _ => some .scalar
  | .kst _ _ _ _ _ => some .scalar
  | .kbr _ _ _ => some .scalar
  | .kjal _ => some .scalar
  | .kjalr _ _ _ => some .scalar
  | .kcall _ _ => some .scalar
  | .kret _ => some .scalar
  | .lbk _ _ => some .scalar
  | .lget _ _ => some .scalar
  | .lslots _ => some .scalar
  | .csrr _ _ => some .scalar
  | .csrw _ _ => some .scalar
  | .ktrap _ => some .scalar
  | .sgld _ => some .scalar
  | .ktlbi _ _ => some .scalar
  | .fence _ _ => some .scalar
  | .fenceAcq _ _ => some .scalar
  | .fenceRel _ _ => some .scalar
  | .fenceSc _ _ => some .scalar
  | .fencex _ _ _ => some .scalar
  | .pwait _ _ => some .scalar
  | .cbwait _ => some .scalar
  | .cseal _ => some .scalar
  | .srec _ _ => some .scalar
  | .cpm _ => some .scalar
  | .barinit _ _ => some .scalar
  | .barr _ _ => some .scalar
  | .barw _ _ => some .scalar
  | .barrw _ _ => some .scalar
  | .barx _ _ => some .scalar
  | .rgrow _ _ => some .scalar
  | .rshrk _ _ => some .scalar
  | .racq _ => some .scalar
  | .bmodeStor _ => some .scalar
  | .bmodeComp _ => some .scalar
  | .bstepOff _ => some .scalar
  | .bstepOn _ => some .scalar
  | .bstepStep _ => some .scalar
  | .bquery _ _ => some .scalar
  | .bsync _ => some .scalar
  | .bvAdd _ => some .scalar
  | .bvSub _ => some .scalar
  | .bvMul _ => some .scalar
  | .bvNeg _ => some .scalar
  | .bvAddk _ _ => some .scalar
  | .bvAnd _ => some .scalar
  | .bvOr _ => some .scalar
  | .bvXor _ => some .scalar
  | .bvNot _ => some .scalar
  | .bvCpy _ => some .scalar
  | .bvSet _ _ => some .scalar
  | .bvShl _ _ => some .scalar
  | .bvShr _ _ => some .scalar
  | .bvCmpeq _ => some .scalar
  | .bvCmplt _ => some .scalar
  | .bvCmpltn _ => some .scalar
  | .bvSel _ => some .scalar
  | .bvPld _ => some .scalar
  | .bvPst _ => some .scalar
  | .mtx _ _ => some .scalar
  | .mclr _ => some .scalar
  | .mdrain _ _ => some .scalar
  | .klaunch _ _ => some .scalar
  | .bdsub _ _ => some .scalar
  | .vbeg _ => some .scalar
  | .vcom _ => some .scalar
  | .iadd _ => some .lane
  | .isub _ => some .lane
  | .imul _ => some .lane
  | .imulh _ => some .lane
  | .imad _ => some .lane
  | .iabs _ => some .lane
  | .ineg _ => some .lane
  | .imin _ => some .lane
  | .imax _ => some .lane
  | .iaddc _ => some .lane
  | .isad _ => some .lane
  | .idp4 _ => some .lane
  | .lAnd _ => some .lane
  | .lOr _ => some .lane
  | .lXor _ => some .lane
  | .lNot _ => some .lane
  | .andn _ => some .lane
  | .lop3 _ => some .lane
  | .shl _ => some .lane
  | .shr _ => some .lane
  | .sra _ => some .lane
  | .rotl _ => some .lane
  | .popc _ => some .lane
  | .clz _ => some .lane
  | .brev _ => some .lane
  | .bfe _ => some .lane
  | .bfi _ => some .lane
  | .prmt _ => some .lane
  | .icmp _ => some .lane
  | .pand _ => some .lane
  | .por _ => some .lane
  | .pxor _ => some .lane
  | .pnot _ => some .lane
  | .mov _ => some .lane
  | .movi _ => some .lane
  | .sel _ => some .lane
  | .getsr _ => some .lane
  | .cvt _ => some .lane
  | .cvtPk _ => some .lane
  | .cvtQ8 _ => some .lane
  | .fadd _ => some .lane
  | .fsub _ => some .lane
  | .fmul _ => some .lane
  | .ffma _ => some .lane
  | .fmin _ => some .lane
  | .fmax _ => some .lane
  | .fabs _ => some .lane
  | .fneg _ => some .lane
  | .fscale _ => some .lane
  | .fcmp _ => some .lane
  | .fclass _ => some .lane
  | .frcp _ => some .lane
  | .frsq _ => some .lane
  | .fsqrt _ => some .lane
  | .fdiv _ => some .lane
  | .fexp2 _ => some .lane
  | .flog2 _ => some .lane
  | .fsin _ => some .lane
  | .fcos _ => some .lane
  | .smm8 _ => some .lane
  | .smm8Tb _ => some .lane
  | .shfl _ => some .lane
  | .vote _ => some .lane
  | .ballot _ => some .lane
  | .redux _ => some .lane
  | .xmatch _ => some .lane
  | .scan _ => some .lane
  | .ld _ => some .lane
  | .ldRec _ => some .lane
  | .st _ => some .lane
  | .atomAdd _ => some .lane
  | .atomMin _ => some .lane
  | .atomMax _ => some .lane
  | .atomMinn _ => some .lane
  | .atomMaxn _ => some .lane
  | .atomAnd _ => some .lane
  | .atomOr _ => some .lane
  | .atomXor _ => some .lane
  | .atomExch _ => some .lane
  | .atomCas _ => some .lane
  | .atomFadd _ => some .lane
  | .cpa _ => some .lane
  | .cpt _ => some .lane
  | .bra _ => some .lane
  | .cpr _ => some .lane
  | .cpw _ => some .lane
  | .xfmTr _ => some .lane
  | .xfmQ _ => some .lane
  | .xfmDq _ => some .lane
  | .xfmX4 _ => some .lane
  | .xfmZc _ => some .lane
  | .xfmZd _ => some .lane
  | .lnop _ => some .lane
  | .lstat _ => some .lane
  | .lclock _ => some .lane
  | .sadd _ _ _ => some .stack
  | .ssub _ _ _ => some .stack
  | .sand _ _ _ => some .stack
  | .sor _ _ _ => some .stack
  | .sxor _ _ _ => some .stack
  | .sshl _ _ _ => some .stack
  | .sshr _ _ _ => some .stack
  | .ssra _ _ _ => some .stack
  | .smul _ _ _ => some .stack
  | .sslt _ _ _ => some .stack
  | .ssltn _ _ _ => some .stack
  | .saddi _ _ _ => some .stack
  | .sli _ _ => some .stack
  | .slhi _ _ => some .stack
  | .sld _ _ _ _ _ => some .stack
  | .sst _ _ _ _ _ => some .stack
  | .sbeq _ _ _ => some .stack
  | .sbne _ _ _ => some .stack
  | .sblt _ _ _ => some .stack
  | .sbge _ _ _ => some .stack
  | .sjal _ _ => some .stack
  | .sjr _ _ _ => some .stack
  | .vld _ _ _ _ => some .stack
  | .vst _ _ _ _ => some .stack
  | .vlds _ _ _ _ _ => some .stack
  | .vsts _ _ _ _ _ => some .stack
  | .vsplat _ _ => some .stack
  | .vadd _ _ _ _ _ _ => some .stack
  | .vsub _ _ _ _ _ _ => some .stack
  | .vmul _ _ _ _ _ _ => some .stack
  | .vfma _ _ _ _ _ => some .stack
  | .vmin _ _ _ _ _ => some .stack
  | .vmax _ _ _ _ _ => some .stack
  | .vcvt _ _ _ _ _ => some .stack
  | .vbaccF32 _ _ => some .stack
  | .vbaccMulF32 _ _ _ => some .stack
  | .vbaccMulBf16 _ _ _ => some .stack
  | .vbrd _ _ => some .stack
  | .vbclr _ => some .stack
  | .vhsum _ _ => some .stack
  | .msend _ _ => some .stack
  | .mrecv _ _ => some .stack
  | .mwait _ _ => some .stack
  | .mpoll _ _ => some .stack
  | .sflag _ _ _ => some .stack
  | .scsrr _ _ => some .stack
  | .scsrw _ _ => some .stack
  | .instructionFetchFault _ _ => none
  | .illegalInstruction _ => none
  | .lsync => some .scalar
  | .knop => some .scalar
  | .keret => some .scalar
  | .kend => some .scalar
  | .kbrk => some .scalar
  | .kyield => some .scalar
  | .join => some .lane
  | .lend => some .lane
  | .sfence => some .stack
  | .shalt => some .stack
  | .syield => some .stack
  | .packageReset => none
  | .create _ _ => none
  | .enable _ _ => none
  | .quiesce _ _ => none
  | .quiesceDone _ => none
  | .resume _ _ => none
  | .destroy _ _ => none
  | .cpctlBadop _ _ => none
  | .cptlbiPage _ _ => none
  | .cptlbiAll _ _ => none
  | .tlbiAck _ _ => none
  | .tlbiTimeout _ => none
  | .doorbell _ _ => none
  | .widxPoll _ _ => none
  | .launch _ _ => none
  | .copy _ _ => none
  | .copyCommandDone _ _ _ => none
  | .stacktask _ _ => none
  | .wait _ _ => none
  | .waitEval _ _ _ => none
  | .signal _ _ => none
  | .aggregateClose _ => none
  | .crewAdmit _ => none
  | .crewWakeDone _ => none
  | .preempt _ => none
  | .shadowSwapDone _ => none
  | .saveEngineWrite _ _ => none
  | .copyDrainLimit _ => none
  | .pageWritebackDone _ _ => none
  | .crewRestore _ _ => none
  | .pageRefillDone _ _ _ => none
  | .grant _ => none
  | .deadlock _ => none
  | .regbankPowerGate _ _ => none
  | .chainBreak _ => none
  | .kyieldExpire _ => none
  | .laneBlockStart _ => none
  | .waitEnd _ => none
  | .loadReturn _ _ => none
  | .storeAck _ => none
  | .copyLand _ => none
  | .multicastDelivery _ _ => none
  | .bankOpComplete _ _ => none
  | .mxStart _ => none
  | .mxComplete _ => none
  | .smmComplete _ => none
  | .xfmReply _ => none
  | .heartbeatTick => none
  | .regionCommit _ => none
  | .regionCommitDone => none
  | .debugHalt _ => none
  | .debugResume _ => none
  | .debugStep _ _ => none
  | .debugBack _ => none
  | .debugCquiesce _ => none
  | .debugArmbrk _ => none
  | .debugDisarmbrk _ => none
  | .debugRead _ _ => none
  | .debugWrite _ _ => none
  | .debugBadop _ _ => none
  | .stackFlushDone _ => none
  | .stackInstanceStart _ _ => none
  | .stackPreempt _ _ => none
  | .stackTaskFinish _ => none
  | .cwpctlEnable _ _ _ => none
  | .cwpctlFence _ _ _ => none
  | .portTrainingDone _ _ _ _ => none
  | .portTrainingTimeout _ _ => none
  | .retrainTrigger _ _ => none
  | .retrainDone _ _ => none
  | .retrainTimeout _ _ => none
  | .flitReceive _ _ => none
  | .ackReceive _ _ _ => none
  | .nakReceive _ _ _ => none
  | .groupStallTimeout _ => none
  | .cwringWrite _ _ => none
  | .cwRingPoll _ _ => none
  | .send _ _ => none
  | .recv _ _ => none
  | .recvadd _ _ => none
  | .ucieRepair _ _ _ => none
  | .ucieModuleLoss _ => none
  | .softError _ _ => none
  | .errlogPop _ => none
  | .pwrctlWrite _ _ => none
  | .throttleAdjust _ _ => none
  | .thermalTrip => none
  | .attestationRequest _ _ => none
  | .firmwareStage _ => none
  | .mgmtRead _ => none
  | .hostAccess _ => none
  | .registerWrite _ _ _ => none

end Sys2Proof
end

