-- ==== Sys2Proof/Machine/Forms.lean ====
section
/-! DEFINITION. Which field values each instruction accepts: the members of the lane opcode map, the special-register
numbers, and the ILL checks that depend on the word alone (R110 to R122, R180, R204, R240, R243, R295, R339). -/

namespace Sys2Proof

/-- Why a word decodes to no instruction. Every one of them raises ILL on the word's stream (R121). -/
inductive Ill where
  | unassigned   -- an OPC, OP or FN that no instruction has
  | reserved     -- a reserved or unused bit or field that is not zero
  | typ          -- a TY value 0 to 14 that the instruction does not list
  | code         -- a field that holds a code outside its table
  | short        -- fewer bytes than the word of the stream has
deriving DecidableEq, Repr

/-- Bits lo to lo + n − 1 of x, as a number. -/
def field {w : Nat} (x : BitVec w) (lo n : Nat) : Nat := (x.extractLsb' lo n).toNat

/-- The members of the lane opcode map (R118). -/
inductive LaneOp where
  | iadd | isub | imul | imulh | imad | iabs | ineg | imin | imax | iaddc | isad | idp4
  | lAnd | lOr | lXor | lNot | andn | lop3
  | shl | shr | sra | rotl | popc | clz | brev | bfe | bfi | prmt
  | icmp | pand | por | pxor | pnot
  | mov | movi | sel | getsr
  | cvt | cvtPk | cvtQ8
  | fadd | fsub | fmul | ffma | fmin | fmax | fabs | fneg | fscale
  | fcmp | fclass
  | frcp | frsq | fsqrt | fdiv | fexp2 | flog2 | fsin | fcos
  | smm8 | smm8Tb
  | shfl | vote | ballot | redux | xmatch | scan
  | ld | ldRec
  | st
  | atomAdd | atomMin | atomMax | atomMinn | atomMaxn | atomAnd | atomOr | atomXor | atomExch | atomCas | atomFadd
  | cpa | cpt
  | bra | join | lend
  | cpr | cpw
  | xfmTr | xfmQ | xfmDq | xfmX4 | xfmZc | xfmZd
  | lnop | lstat | lclock
deriving DecidableEq, Repr

/-- OPC and FN of a lane member (R118). -/
def LaneOp.code : LaneOp → Nat × Nat
  | .iadd => (1, 0)
  | .isub => (1, 1)
  | .imul => (1, 2)
  | .imulh => (1, 3)
  | .imad => (1, 4)
  | .iabs => (1, 5)
  | .ineg => (1, 6)
  | .imin => (1, 7)
  | .imax => (1, 8)
  | .iaddc => (1, 9)
  | .isad => (1, 10)
  | .idp4 => (1, 11)
  | .lAnd => (2, 0)
  | .lOr => (2, 1)
  | .lXor => (2, 2)
  | .lNot => (2, 3)
  | .andn => (2, 4)
  | .lop3 => (2, 5)
  | .shl => (3, 0)
  | .shr => (3, 1)
  | .sra => (3, 2)
  | .rotl => (3, 3)
  | .popc => (3, 4)
  | .clz => (3, 5)
  | .brev => (3, 6)
  | .bfe => (3, 7)
  | .bfi => (3, 8)
  | .prmt => (3, 9)
  | .icmp => (4, 0)
  | .pand => (4, 1)
  | .por => (4, 2)
  | .pxor => (4, 3)
  | .pnot => (4, 4)
  | .mov => (5, 0)
  | .movi => (5, 1)
  | .sel => (5, 2)
  | .getsr => (5, 3)
  | .cvt => (6, 0)
  | .cvtPk => (6, 1)
  | .cvtQ8 => (6, 2)
  | .fadd => (7, 0)
  | .fsub => (7, 1)
  | .fmul => (7, 2)
  | .ffma => (7, 3)
  | .fmin => (7, 4)
  | .fmax => (7, 5)
  | .fabs => (7, 6)
  | .fneg => (7, 7)
  | .fscale => (7, 8)
  | .fcmp => (8, 0)
  | .fclass => (8, 1)
  | .frcp => (9, 0)
  | .frsq => (9, 1)
  | .fsqrt => (9, 2)
  | .fdiv => (9, 3)
  | .fexp2 => (9, 4)
  | .flog2 => (9, 5)
  | .fsin => (9, 6)
  | .fcos => (9, 7)
  | .smm8 => (10, 0)
  | .smm8Tb => (10, 1)
  | .shfl => (11, 0)
  | .vote => (11, 1)
  | .ballot => (11, 2)
  | .redux => (11, 3)
  | .xmatch => (11, 4)
  | .scan => (11, 5)
  | .ld => (12, 0)
  | .ldRec => (12, 1)
  | .st => (13, 0)
  | .atomAdd => (14, 0)
  | .atomMin => (14, 1)
  | .atomMax => (14, 2)
  | .atomMinn => (14, 3)
  | .atomMaxn => (14, 4)
  | .atomAnd => (14, 5)
  | .atomOr => (14, 6)
  | .atomXor => (14, 7)
  | .atomExch => (14, 8)
  | .atomCas => (14, 9)
  | .atomFadd => (14, 10)
  | .cpa => (15, 0)
  | .cpt => (15, 1)
  | .bra => (16, 0)
  | .join => (16, 1)
  | .lend => (16, 2)
  | .cpr => (17, 0)
  | .cpw => (17, 1)
  | .xfmTr => (18, 0)
  | .xfmQ => (18, 1)
  | .xfmDq => (18, 2)
  | .xfmX4 => (18, 3)
  | .xfmZc => (18, 4)
  | .xfmZd => (18, 5)
  | .lnop => (19, 0)
  | .lstat => (19, 1)
  | .lclock => (19, 2)

/-- The lane member with an OPC and FN, none for an unassigned one (R118). -/
def LaneOp.ofCode : Nat → Nat → Option LaneOp
  | 1, 0 => some .iadd
  | 1, 1 => some .isub
  | 1, 2 => some .imul
  | 1, 3 => some .imulh
  | 1, 4 => some .imad
  | 1, 5 => some .iabs
  | 1, 6 => some .ineg
  | 1, 7 => some .imin
  | 1, 8 => some .imax
  | 1, 9 => some .iaddc
  | 1, 10 => some .isad
  | 1, 11 => some .idp4
  | 2, 0 => some .lAnd
  | 2, 1 => some .lOr
  | 2, 2 => some .lXor
  | 2, 3 => some .lNot
  | 2, 4 => some .andn
  | 2, 5 => some .lop3
  | 3, 0 => some .shl
  | 3, 1 => some .shr
  | 3, 2 => some .sra
  | 3, 3 => some .rotl
  | 3, 4 => some .popc
  | 3, 5 => some .clz
  | 3, 6 => some .brev
  | 3, 7 => some .bfe
  | 3, 8 => some .bfi
  | 3, 9 => some .prmt
  | 4, 0 => some .icmp
  | 4, 1 => some .pand
  | 4, 2 => some .por
  | 4, 3 => some .pxor
  | 4, 4 => some .pnot
  | 5, 0 => some .mov
  | 5, 1 => some .movi
  | 5, 2 => some .sel
  | 5, 3 => some .getsr
  | 6, 0 => some .cvt
  | 6, 1 => some .cvtPk
  | 6, 2 => some .cvtQ8
  | 7, 0 => some .fadd
  | 7, 1 => some .fsub
  | 7, 2 => some .fmul
  | 7, 3 => some .ffma
  | 7, 4 => some .fmin
  | 7, 5 => some .fmax
  | 7, 6 => some .fabs
  | 7, 7 => some .fneg
  | 7, 8 => some .fscale
  | 8, 0 => some .fcmp
  | 8, 1 => some .fclass
  | 9, 0 => some .frcp
  | 9, 1 => some .frsq
  | 9, 2 => some .fsqrt
  | 9, 3 => some .fdiv
  | 9, 4 => some .fexp2
  | 9, 5 => some .flog2
  | 9, 6 => some .fsin
  | 9, 7 => some .fcos
  | 10, 0 => some .smm8
  | 10, 1 => some .smm8Tb
  | 11, 0 => some .shfl
  | 11, 1 => some .vote
  | 11, 2 => some .ballot
  | 11, 3 => some .redux
  | 11, 4 => some .xmatch
  | 11, 5 => some .scan
  | 12, 0 => some .ld
  | 12, 1 => some .ldRec
  | 13, 0 => some .st
  | 14, 0 => some .atomAdd
  | 14, 1 => some .atomMin
  | 14, 2 => some .atomMax
  | 14, 3 => some .atomMinn
  | 14, 4 => some .atomMaxn
  | 14, 5 => some .atomAnd
  | 14, 6 => some .atomOr
  | 14, 7 => some .atomXor
  | 14, 8 => some .atomExch
  | 14, 9 => some .atomCas
  | 14, 10 => some .atomFadd
  | 15, 0 => some .cpa
  | 15, 1 => some .cpt
  | 16, 0 => some .bra
  | 16, 1 => some .join
  | 16, 2 => some .lend
  | 17, 0 => some .cpr
  | 17, 1 => some .cpw
  | 18, 0 => some .xfmTr
  | 18, 1 => some .xfmQ
  | 18, 2 => some .xfmDq
  | 18, 3 => some .xfmX4
  | 18, 4 => some .xfmZc
  | 18, 5 => some .xfmZd
  | 19, 0 => some .lnop
  | 19, 1 => some .lstat
  | 19, 2 => some .lclock
  | _, _ => none

/-- The instruction of a lane member and its fields. -/
def LaneOp.instr : LaneOp → LaneF → Instr
  | .iadd => .iadd
  | .isub => .isub
  | .imul => .imul
  | .imulh => .imulh
  | .imad => .imad
  | .iabs => .iabs
  | .ineg => .ineg
  | .imin => .imin
  | .imax => .imax
  | .iaddc => .iaddc
  | .isad => .isad
  | .idp4 => .idp4
  | .lAnd => .lAnd
  | .lOr => .lOr
  | .lXor => .lXor
  | .lNot => .lNot
  | .andn => .andn
  | .lop3 => .lop3
  | .shl => .shl
  | .shr => .shr
  | .sra => .sra
  | .rotl => .rotl
  | .popc => .popc
  | .clz => .clz
  | .brev => .brev
  | .bfe => .bfe
  | .bfi => .bfi
  | .prmt => .prmt
  | .icmp => .icmp
  | .pand => .pand
  | .por => .por
  | .pxor => .pxor
  | .pnot => .pnot
  | .mov => .mov
  | .movi => .movi
  | .sel => .sel
  | .getsr => .getsr
  | .cvt => .cvt
  | .cvtPk => .cvtPk
  | .cvtQ8 => .cvtQ8
  | .fadd => .fadd
  | .fsub => .fsub
  | .fmul => .fmul
  | .ffma => .ffma
  | .fmin => .fmin
  | .fmax => .fmax
  | .fabs => .fabs
  | .fneg => .fneg
  | .fscale => .fscale
  | .fcmp => .fcmp
  | .fclass => .fclass
  | .frcp => .frcp
  | .frsq => .frsq
  | .fsqrt => .fsqrt
  | .fdiv => .fdiv
  | .fexp2 => .fexp2
  | .flog2 => .flog2
  | .fsin => .fsin
  | .fcos => .fcos
  | .smm8 => .smm8
  | .smm8Tb => .smm8Tb
  | .shfl => .shfl
  | .vote => .vote
  | .ballot => .ballot
  | .redux => .redux
  | .xmatch => .xmatch
  | .scan => .scan
  | .ld => .ld
  | .ldRec => .ldRec
  | .st => .st
  | .atomAdd => .atomAdd
  | .atomMin => .atomMin
  | .atomMax => .atomMax
  | .atomMinn => .atomMinn
  | .atomMaxn => .atomMaxn
  | .atomAnd => .atomAnd
  | .atomOr => .atomOr
  | .atomXor => .atomXor
  | .atomExch => .atomExch
  | .atomCas => .atomCas
  | .atomFadd => .atomFadd
  | .cpa => .cpa
  | .cpt => .cpt
  | .bra => .bra
  | .join => fun _ => .join
  | .lend => fun _ => .lend
  | .cpr => .cpr
  | .cpw => .cpw
  | .xfmTr => .xfmTr
  | .xfmQ => .xfmQ
  | .xfmDq => .xfmDq
  | .xfmX4 => .xfmX4
  | .xfmZc => .xfmZc
  | .xfmZd => .xfmZd
  | .lnop => .lnop
  | .lstat => .lstat
  | .lclock => .lclock

/-- Every field zero. -/
def LaneF.zero : LaneF :=
  { ty := .b32, gp := 0, gn := false, nwb := false, lt := 0, dst := 0, sa := 0, sb := 0, sc := 0, md := 0, imm := 0 }

/-- The lane member and fields of a lane instruction. -/
def Instr.lane? : Instr → Option (LaneOp × LaneF)
  | .iadd f => some (.iadd, f)
  | .isub f => some (.isub, f)
  | .imul f => some (.imul, f)
  | .imulh f => some (.imulh, f)
  | .imad f => some (.imad, f)
  | .iabs f => some (.iabs, f)
  | .ineg f => some (.ineg, f)
  | .imin f => some (.imin, f)
  | .imax f => some (.imax, f)
  | .iaddc f => some (.iaddc, f)
  | .isad f => some (.isad, f)
  | .idp4 f => some (.idp4, f)
  | .lAnd f => some (.lAnd, f)
  | .lOr f => some (.lOr, f)
  | .lXor f => some (.lXor, f)
  | .lNot f => some (.lNot, f)
  | .andn f => some (.andn, f)
  | .lop3 f => some (.lop3, f)
  | .shl f => some (.shl, f)
  | .shr f => some (.shr, f)
  | .sra f => some (.sra, f)
  | .rotl f => some (.rotl, f)
  | .popc f => some (.popc, f)
  | .clz f => some (.clz, f)
  | .brev f => some (.brev, f)
  | .bfe f => some (.bfe, f)
  | .bfi f => some (.bfi, f)
  | .prmt f => some (.prmt, f)
  | .icmp f => some (.icmp, f)
  | .pand f => some (.pand, f)
  | .por f => some (.por, f)
  | .pxor f => some (.pxor, f)
  | .pnot f => some (.pnot, f)
  | .mov f => some (.mov, f)
  | .movi f => some (.movi, f)
  | .sel f => some (.sel, f)
  | .getsr f => some (.getsr, f)
  | .cvt f => some (.cvt, f)
  | .cvtPk f => some (.cvtPk, f)
  | .cvtQ8 f => some (.cvtQ8, f)
  | .fadd f => some (.fadd, f)
  | .fsub f => some (.fsub, f)
  | .fmul f => some (.fmul, f)
  | .ffma f => some (.ffma, f)
  | .fmin f => some (.fmin, f)
  | .fmax f => some (.fmax, f)
  | .fabs f => some (.fabs, f)
  | .fneg f => some (.fneg, f)
  | .fscale f => some (.fscale, f)
  | .fcmp f => some (.fcmp, f)
  | .fclass f => some (.fclass, f)
  | .frcp f => some (.frcp, f)
  | .frsq f => some (.frsq, f)
  | .fsqrt f => some (.fsqrt, f)
  | .fdiv f => some (.fdiv, f)
  | .fexp2 f => some (.fexp2, f)
  | .flog2 f => some (.flog2, f)
  | .fsin f => some (.fsin, f)
  | .fcos f => some (.fcos, f)
  | .smm8 f => some (.smm8, f)
  | .smm8Tb f => some (.smm8Tb, f)
  | .shfl f => some (.shfl, f)
  | .vote f => some (.vote, f)
  | .ballot f => some (.ballot, f)
  | .redux f => some (.redux, f)
  | .xmatch f => some (.xmatch, f)
  | .scan f => some (.scan, f)
  | .ld f => some (.ld, f)
  | .ldRec f => some (.ldRec, f)
  | .st f => some (.st, f)
  | .atomAdd f => some (.atomAdd, f)
  | .atomMin f => some (.atomMin, f)
  | .atomMax f => some (.atomMax, f)
  | .atomMinn f => some (.atomMinn, f)
  | .atomMaxn f => some (.atomMaxn, f)
  | .atomAnd f => some (.atomAnd, f)
  | .atomOr f => some (.atomOr, f)
  | .atomXor f => some (.atomXor, f)
  | .atomExch f => some (.atomExch, f)
  | .atomCas f => some (.atomCas, f)
  | .atomFadd f => some (.atomFadd, f)
  | .cpa f => some (.cpa, f)
  | .cpt f => some (.cpt, f)
  | .bra f => some (.bra, f)
  | .cpr f => some (.cpr, f)
  | .cpw f => some (.cpw, f)
  | .xfmTr f => some (.xfmTr, f)
  | .xfmQ f => some (.xfmQ, f)
  | .xfmDq f => some (.xfmDq, f)
  | .xfmX4 f => some (.xfmX4, f)
  | .xfmZc f => some (.xfmZc, f)
  | .xfmZd f => some (.xfmZd, f)
  | .lnop f => some (.lnop, f)
  | .lstat f => some (.lstat, f)
  | .lclock f => some (.lclock, f)
  | .join => some (.join, LaneF.zero)
  | .lend => some (.lend, LaneF.zero)
  | _ => none

/-! ### Types -/

def Ty.code : Ty → Nat
  | .b32 => 0 | .s32 => 1 | .n32 => 2 | .s64 => 3 | .n64 => 4 | .f32 => 5 | .f64 => 6 | .f16x2 => 7 | .bf16x2 => 8
  | .s16x2 => 9 | .n16x2 => 10 | .s8x4 => 11 | .n8x4 => 12 | .e4m3x4 => 13 | .e5m2x4 => 14 | .reserved => 15

/-- The type with a TY code (R116). -/
def Ty.ofCode : Nat → Ty
  | 0 => .b32 | 1 => .s32 | 2 => .n32 | 3 => .s64 | 4 => .n64 | 5 => .f32 | 6 => .f64 | 7 => .f16x2 | 8 => .bf16x2
  | 9 => .s16x2 | 10 => .n16x2 | 11 => .s8x4 | 12 => .n8x4 | 13 => .e4m3x4 | 14 => .e5m2x4 | _ => .reserved

/-- The types whose operands are 64 bits wide (R114). -/
def Ty.is64 : Ty → Bool
  | .s64 | .n64 | .f64 => true
  | _ => false

def Ty.signed : Ty → Bool
  | .s32 | .s64 | .s16x2 | .s8x4 => true
  | _ => false

/-- Element width of a type in bits (R129). -/
def Ty.elem : Ty → Nat
  | .s64 | .n64 | .f64 => 64
  | .f16x2 | .bf16x2 | .s16x2 | .n16x2 => 16
  | .s8x4 | .n8x4 | .e4m3x4 | .e5m2x4 => 8
  | _ => 32

/-- Elements in one operand of a type (R129). -/
def Ty.count : Ty → Nat
  | .f16x2 | .bf16x2 | .s16x2 | .n16x2 => 2
  | .s8x4 | .n8x4 | .e4m3x4 | .e5m2x4 => 4
  | _ => 1

/-! ### Special registers (R122) -/

/-- The listed special-register numbers and whether a csrw at K may write each (R122). -/
def srns : List (Nat × Bool) :=
  [(0x000, false), (0x001, false), (0x002, false), (0x003, false), (0x004, false), (0x005, false), (0x006, false),
   (0x007, false), (0x008, false), (0x009, false), (0x00A, false), (0x00B, false), (0x010, false), (0x011, false),
   (0x012, false), (0x013, false), (0x014, true), (0x015, false), (0x020, false), (0x021, false), (0x022, true)] ++
  [(0x030, true), (0x031, false), (0x032, false), (0x040, false), (0x041, false), (0x042, false), (0x043, false),
   (0x044, false), (0x045, false), (0x046, false), (0x047, false), (0x050, false), (0x051, false), (0x060, true),
   (0x061, true), (0x062, true), (0x063, true), (0x070, false), (0x080, true), (0x081, true)] ++
  [(0x0F0, false), (0x0F1, false), (0x0F2, false), (0x0F3, false), (0x0F8, false), (0x0F9, false), (0x0FA, false),
   (0x0FB, false)]

def srnListed (n : Nat) : Bool := srns.any fun e => e.1 == n

def srnWritable (n : Nat) : Bool := srns.any fun e => e.1 == n && e.2

/-! ### Lane words: the fields each member accepts -/

namespace LaneOp

def ints : List Ty := [.s32, .n32, .s64, .n64]
def p16 : List Ty := [.s16x2, .n16x2]
def pk : List Ty := [.s16x2, .n16x2, .s8x4, .n8x4]
def all : List Ty :=
  [.b32, .s32, .n32, .s64, .n64, .f32, .f64, .f16x2, .bf16x2, .s16x2, .n16x2, .s8x4, .n8x4, .e4m3x4, .e5m2x4]

/-- The types a member lists (R182 to R187, R189, R190, R198 to R201, R203, R206 to R219, R240, R243, R254, R295).
A member whose TY field must be 0 lists b32. -/
def types : LaneOp → List Ty
  | .iadd | .isub | .imin | .imax => ints ++ pk
  | .imul | .imad => ints ++ p16
  | .imulh => ints
  | .iabs | .ineg => [.s32, .s64, .s16x2, .s8x4]
  | .iaddc => [.n64]
  | .isad => [.s32, .n32] ++ pk
  | .idp4 => [.s8x4, .n8x4]
  | .lAnd | .lOr | .lXor | .lNot | .andn | .lop3 => [.b32, .n64]
  | .shl => [.b32] ++ ints ++ pk
  | .shr => [.b32, .n32, .n64, .n16x2, .n8x4]
  | .sra => [.s32, .s64, .s16x2, .s8x4]
  | .rotl | .popc | .clz | .brev | .bfi => [.b32, .n64]
  | .bfe => ints
  | .prmt => [.b32]
  | .icmp => [.b32] ++ ints
  | .pand | .por | .pxor | .pnot => [.b32]
  | .mov | .sel => all
  | .movi | .getsr => [.b32, .n64]
  | .cvt => ints ++ [.f32, .f64]
  | .cvtPk => pk ++ [.f16x2, .bf16x2, .e4m3x4, .e5m2x4]
  | .cvtQ8 => [.s8x4, .n8x4]
  | .fadd | .fsub | .fmul | .ffma | .fmin | .fmax | .fabs | .fneg | .fscale => [.f32, .f64, .f16x2, .bf16x2]
  | .fcmp | .fclass | .frcp | .frsq | .fsqrt | .fdiv => [.f32, .f64]
  | .fexp2 | .flog2 | .fsin | .fcos => [.f32]
  | .smm8 | .smm8Tb => [.f32, .f64]
  | .shfl | .xmatch => [.b32, .n64]
  | .vote | .ballot => [.b32]
  | .redux | .scan => [.b32] ++ ints ++ [.f32, .f64]
  | .ld | .ldRec | .st => all
  | .atomAdd => [.b32] ++ ints
  | .atomMin | .atomMax => [.s32, .s64]
  | .atomMinn | .atomMaxn => [.n32, .n64]
  | .atomAnd | .atomOr | .atomXor | .atomExch | .atomCas => [.b32, .n64]
  | .atomFadd => [.f32, .f64, .bf16x2]
  | .cpa | .cpt | .bra | .join | .lend => [.b32]
  | .cpr | .cpw => [.b32, .s64]
  | .xfmTr | .xfmZc | .xfmZd => [.b32]
  | .xfmQ | .xfmDq => [.f32]
  | .xfmX4 => [.s8x4]
  | .lnop | .lstat => [.b32]
  | .lclock => [.n32, .n64]

/-- What an instruction writes (R115). -/
inductive Dst where
  | v | q | none
deriving DecidableEq, Repr

def dst : LaneOp → Dst
  | .icmp | .pand | .por | .pxor | .pnot | .fcmp | .fclass | .vote => .q
  | .st | .cpa | .cpt | .cpw | .bra | .join | .lend | .lnop => .none
  | _ => .v

/-- The members with a v result whose LT and NWB must be 0 (R213, R254, R295). -/
def noLatch : LaneOp → Bool
  | .smm8 | .smm8Tb | .xfmTr | .xfmQ | .xfmDq | .xfmX4 | .xfmZc | .xfmZd | .cpr => true
  | _ => false

/-- Whether the SA field is used, as an operand or a q number. -/
def usesA : LaneOp → LaneF → Bool
  | .movi, f => f.ty != .b32
  | .getsr, _ | .ldRec, _ | .lnop, _ | .lstat, _ | .lclock, _ | .join, _ | .lend, _ => false
  | _, _ => true

/-- Whether the SB field is used, as an operand or a q number. -/
def usesB : LaneOp → LaneF → Bool
  | .iabs, _ | .ineg, _ | .lNot, _ | .popc, _ | .clz, _ | .brev, _ | .bfi, _ | .pnot, _ | .mov, _ | .movi, _
  | .getsr, _ | .cvt, _ | .fabs, _ | .fneg, _ | .fclass, _ | .frcp, _ | .frsq, _ | .fsqrt, _ | .fexp2, _ | .flog2, _
  | .fsin, _ | .fcos, _ | .vote, _ | .ballot, _ | .redux, _ | .xmatch, _ | .scan, _ | .ld, _ | .ldRec, _ | .join, _
  | .lend, _ | .cpr, _ | .xfmTr, _ | .xfmQ, _ | .xfmX4, _ | .xfmZc, _ | .lnop, _ | .lstat, _ | .lclock, _ => false
  | _, _ => true

/-- Whether the SC field is used, as an operand, a q number, a type or a barrier number. -/
def usesC : LaneOp → LaneF → Bool
  | .imad, _ | .iaddc, _ | .isad, _ | .idp4, _ | .lop3, _ | .bfe, _ | .bfi, _ | .sel, _ | .cvt, _ | .cvtQ8, _
  | .ffma, _ | .smm8, _ | .smm8Tb, _ | .shfl, _ | .atomCas, _ | .bra, _ => true
  | .icmp, f | .fcmp, f | .fclass, f => field f.md 3 2 != 0
  | .cvtPk, f => f.ty == .s8x4 || f.ty == .n8x4 || f.ty == .e4m3x4 || f.ty == .e5m2x4 || f.ty == .reserved
  | .cpa, f => f.md.getLsbD 5
  | .cpt, f => f.md.getLsbD 4
  | _, _ => false

/-- Whether IMM32 has a meaning of its own, so that no source may hold 0x44 (R180, R204). -/
def ownImm : LaneOp → LaneF → Bool
  | .lop3, _ | .bfi, _ | .prmt, _ | .movi, _ | .getsr, _ | .fclass, _ | .redux, _ | .scan, _ | .ld, _ | .ldRec, _
  | .st, _ | .atomAdd, _ | .atomMin, _ | .atomMax, _ | .atomMinn, _ | .atomMaxn, _ | .atomAnd, _ | .atomOr, _
  | .atomXor, _ | .atomExch, _ | .atomCas, _ | .atomFadd, _ | .cpa, _ | .cpt, _ | .bra, _ => true
  | .cvt, f => 7 ≤ field f.sc 0 4
  | _, _ => false

/-- Whether a source field of the member holds the literal (code 0x44). -/
def hasLiteral (op : LaneOp) (f : LaneF) : Bool :=
  let qs := op == .pand || op == .por || op == .pxor || op == .pnot || op == .vote || op == .ballot
  !qs && ((op.usesA f && f.sa == 0x44) || (op.usesB f && f.sb == 0x44) ||
    (op.usesC f && f.sc == 0x44 && (op == .imad || op == .iaddc || op == .isad || op == .idp4 || op == .bfe ||
      op == .cvtPk || op == .cvtQ8 || op == .ffma)))

/-- The MOD bits that a member does not use (R117, R180, R182, R206, R209). -/
def badMod : LaneOp → LaneF → Bool
  | .iadd, f | .isub, f | .imad, f => f.md &&& 0b1110001#7 != 0
  | .imul, f | .iabs, f | .ineg, f | .isad, f | .idp4, f => f.md &&& 0b1110111#7 != 0
  | .icmp, f => field f.md 5 2 != 0
  | .cvtQ8, f => f.md &&& 0b0001111#7 != 0
  | .cvtPk, f =>
    if pk.contains f.ty then f.md &&& 0b1110111#7 != 0 else f.md &&& 0b0000110#7 != 0
  | .fadd, _ | .fsub, _ | .fmul, _ | .ffma, _ => false
  | .fmin, f | .fmax, f => f.md &&& 0b1111000#7 != 0
  | .fscale, f => f.md &&& 0b0000010#7 != 0
  | .fcmp, f => f.md.getLsbD 5
  | .fclass, f => f.md &&& 0b0100111#7 != 0
  | .frcp, f | .frsq, f | .fexp2, f | .flog2, f | .fsin, f | .fcos, f => f.md &&& 0b1111010#7 != 0
  | .fsqrt, f => f.md &&& 0b0000010#7 != 0
  | .fdiv, _ => false
  | .smm8, f | .smm8Tb, f => f.md &&& 0b0001010#7 != 0
  | .shfl, f | .vote, f | .xmatch, f | .bra, f => field f.md 2 5 != 0
  | .redux, f => f.md.getLsbD 3
  | .scan, _ => false
  | .ld, _ | .st, _ | .atomAdd, _ | .atomMin, _ | .atomMax, _ | .atomMinn, _ | .atomMaxn, _ | .atomAnd, _
  | .atomOr, _ | .atomXor, _ | .atomExch, _ | .atomCas, _ | .atomFadd, _ => false
  | .cpa, f => f.md.getLsbD 6
  | .cpt, _ => false
  | .cpr, f | .cpw, f => field f.md 5 2 != 0
  | .xfmQ, f | .xfmDq, f => field f.md 2 5 != 0
  | .xfmX4, f => field f.md 1 6 != 0
  | .cvt, f =>
    -- R188, R210: which MOD bits the pair of types accepts
    let src := Ty.ofCode (field f.sc 0 4)
    if ints.contains src then
      if ints.contains f.ty then f.md &&& 0b1110111#7 != 0
      else if f.ty == .reserved then false else f.md &&& 0b0001111#7 != 0
    else if src == .f32 || src == .f64 then
      if ints.contains f.ty then f.md &&& 0b0001110#7 != 0 else f.md &&& 0b0000110#7 != 0
    else f.md &&& 0b1111110#7 != 0
  | _, f => f.md != 0

/-- Whether a rounding field of the member must be 0 for this word (R219). -/
def badRound : LaneOp → LaneF → Bool
  | .redux, f | .scan, f =>
    field f.md 4 3 != 0 && !(field f.md 0 3 == 0 && (f.ty == .f32 || f.ty == .f64 || f.ty == .reserved))
  | _, _ => false

/-- Reserved bits of IMM32 where it has a meaning of its own; where it has none and no source holds 0x44, IMM32
must be 0 (R117, R180, R183, R184, R187, R199, R207, R210, R219, R243). No source of an SMM holds a literal (R204,
R213). -/
def badImm (op : LaneOp) (f : LaneF) : Bool :=
  match op with
  | .lop3 => field f.imm 8 24 != 0
  | .bfi | .prmt => field f.imm 16 16 != 0
  | .movi | .cpa => false
  | .getsr => field f.imm 10 22 != 0
  | .fclass => field f.imm 9 23 != 0
  | .redux | .scan => field f.imm 3 29 != 0
  | .ldRec => field f.imm 2 30 != 0
  | .ld | .st | .atomAdd | .atomMin | .atomMax | .atomMinn | .atomMaxn | .atomAnd | .atomOr | .atomXor | .atomExch
  | .atomCas | .atomFadd => field f.imm 30 2 != 0
  | .cpt => field f.imm 21 11 != 0 || (!f.imm.getLsbD 20 && field f.imm 16 4 != 0)
  | .bra => field f.imm 24 8 != 0
  | .smm8 | .smm8Tb => f.imm != 0
  | .cvt => if 7 ≤ field f.sc 0 4 then field f.imm 2 30 != 0 else !op.hasLiteral f && f.imm != 0
  | _ => !op.hasLiteral f && f.imm != 0

def intSource (t : Ty) : Bool := ints.contains t

/-- Codes outside their tables (R185, R188, R194, R208, R210, R213, R216 to R219, R240, R243, R254, R295). -/
def badCode (op : LaneOp) (f : LaneF) : Bool :=
  let atomic := field f.md 0 3 > 4 || field f.md 3 3 > 4 || f.imm.getLsbD 26 || field f.imm 27 3 != 0
  match op with
  | .icmp => field f.md 0 3 > 5 || (f.ty == .b32 && field f.md 0 3 > 1)
  | .getsr => !srnListed (field f.imm 0 10)
  | .cvt =>
    let src := Ty.ofCode (field f.sc 0 4)
    field f.sc 4 4 != 0 ||
      (if ints.contains src || src == .f32 || src == .f64 then false
       else if src == .f16x2 || src == .bf16x2 then
         !(f.ty == .f32 || f.ty == .f64 || f.ty == .reserved) || field f.imm 0 2 > 1
       else if src == .e4m3x4 || src == .e5m2x4 then !(f.ty == .f32 || f.ty == .f64 || f.ty == .reserved)
       else true)
  | .xmatch => field f.md 0 2 == 3
  | .redux | .scan =>
    field f.md 0 3 > 5 || field f.imm 0 3 > 5
  | .ld => field f.md 0 3 > 4 || field f.md 3 3 > 4 || field f.imm 24 2 > 1 || field f.imm 27 3 > 2 ||
      (field f.imm 24 2 == 0 && field f.md 3 3 != 0) ||
      (field f.imm 27 3 != 0 && !(f.ty == .s32 || f.ty == .n32 || f.ty == .reserved))
  | .st => field f.md 0 3 > 4 || field f.md 3 3 > 4 || !(field f.imm 24 2 == 0 || field f.imm 24 2 == 2) ||
      f.imm.getLsbD 26 || field f.imm 27 3 > 2 || (field f.imm 24 2 == 0 && field f.md 3 3 != 0) ||
      (field f.imm 27 3 != 0 && !(f.ty == .b32 || f.ty == .s32 || f.ty == .n32 || f.ty == .reserved))
  | .atomAdd | .atomMin | .atomMax | .atomMinn | .atomMaxn | .atomAnd | .atomOr | .atomXor | .atomExch | .atomCas
  | .atomFadd => atomic
  | .cpa => field f.md 2 2 == 3 || (f.md.getLsbD 4 && field f.md 0 2 != 0) ||
      (f.md.getLsbD 5 && (field f.md 0 2 == 1 || field f.sc 4 4 != 0))
  | .cpt => field f.md 0 2 > 1 || field f.md 2 2 == 3 || (f.md.getLsbD 4 && field f.md 2 2 != 2) ||
      (f.md.getLsbD 6 && f.md.getLsbD 5)
  | .bra => field f.md 0 2 == 3
  | .cpr => field f.md 0 3 > 4 || (field f.md 3 2 != 0 && !(field f.md 0 3 == 2 || field f.md 0 3 == 3))
  | .cpw => field f.md 0 3 > 3 || (field f.md 3 2 != 0 && !(field f.md 0 3 == 2 || field f.md 0 3 == 3))
  | .xfmQ | .xfmDq => field f.md 0 2 == 3
  | _ => false

/-- Types that a member lists only with some other field (R219, R295). -/
def badType (op : LaneOp) (f : LaneF) : Bool :=
  match op with
  | .redux | .scan =>
    match field f.md 0 3 with
    | 0 | 1 | 2 => f.ty == .b32
    | _ => !(f.ty == .b32 || f.ty == .n64 || f.ty == .reserved)
  | .cpr | .cpw => f.ty != .reserved && (f.ty == .s64) != (field f.md 0 3 == 1)
  | _ => false

/-- The first ILL cause of a lane word whose OPC and FN are assigned (R113 to R117, R121 cause 1).  The control
members have TY 0 (R191) and raise ILL alone for another TY, the reserved 15 included (R181). -/
def illegal (op : LaneOp) (f : LaneF) : Option Ill :=
  if (op == .bra || op == .join || op == .lend) && f.ty != .b32 then some .typ
  else if f.ty != .reserved && !op.types.contains f.ty then some .typ
  else if f.nwb && f.dst != 0 then some .reserved
  else if (op.dst == .none || op.dst == .q || op.noLatch) && (f.nwb || f.lt != 0) then some .reserved
  else if op.dst == .none && f.dst != 0 then some .reserved
  else if (!op.usesA f && f.sa != 0 && op != .bra) || (!op.usesB f && f.sb != 0) || (!op.usesC f && f.sc != 0) then
    some .reserved
  else if (op == .join || op == .lend) && (f.gp != 0 || f.gn) then some .reserved
  else if op.badMod f || op.badRound f || op.badImm f then some .reserved
  else if op.badCode f then some .code
  else if op.badType f then some .typ
  else none

end LaneOp

/-! ### Scalar and stack words: codes -/

/-- The numbers of the stack special registers (R350). -/
def scsrListed (n : Nat) : Bool :=
  [0x000, 0x001, 0x002, 0x003, 0x004, 0x005, 0x010, 0x011, 0x020].contains n

/-- The first ILL cause among the codes of a scalar or stack instruction's fields; the lane members have
`LaneOp.illegal` (R97, R98, R111, R112, R122, R157, R158, R160, R175, R342, R344, R345, R349). -/
def Instr.illegalCode : Instr → Option Ill
  | .kins _ _ w p => if w.toNat + 1 + p.toNat > 64 then some .code else none
  | .kld _ _ _ m _ => if m == 7 then some .code else none
  | .kbr c _ _ => if c.toNat > 5 then some .code else none
  | .kcall s _ => if s.toNat > 7 then some .code else none
  | .kret s => if s.toNat > 7 then some .code else none
  | .csrr _ n => if srnListed n.toNat then none else some .code
  | .csrw _ n => if srnWritable n.toNat then none else some .code
  | .fence s _ => if s.toNat > 4 then some .code else none
  | .fenceAcq s _ => if s.toNat > 4 then some .code else none
  | .fenceRel s _ => if s.toNat > 4 then some .code else none
  | .fenceSc s _ => if s == 3 || s == 4 then none else some .code
  | .fencex s f t => if s.toNat > 4 || f.toNat > 7 || t.toNat > 7 then some .code else none
  | .pwait p _ => if 3 ≤ p.toNat && p.toNat ≤ 7 then none else some .code
  | .srec s _ => if s.toNat > 3 then some .code else none
  | .sld _ _ w _ _ => if w == 7 then some .code else none
  | .sbeq _ _ imm => if field imm 0 3 != 0 then some .code else none
  | .sbne _ _ imm => if field imm 0 3 != 0 then some .code else none
  | .sblt _ _ imm => if field imm 0 3 != 0 then some .code else none
  | .sbge _ _ imm => if field imm 0 3 != 0 then some .code else none
  | .sjal _ imm => if field imm 0 3 != 0 then some .code else none
  | .vadd _ _ _ s rnd ftz => if rnd.toNat > 4 || (s && (rnd != 0 || ftz)) then some .code else none
  | .vsub _ _ _ s rnd ftz => if rnd.toNat > 4 || (s && (rnd != 0 || ftz)) then some .code else none
  | .vmul _ _ _ s rnd ftz => if rnd.toNat > 4 || (s && (rnd != 0 || ftz)) then some .code else none
  | .vfma _ _ _ rnd _ => if rnd.toNat > 4 then some .code else none
  | .vmin _ _ _ s ftz => if s && ftz then some .code else none
  | .vmax _ _ _ s ftz => if s && ftz then some .code else none
  | .vcvt _ _ c rnd _ =>
    if c.toNat > 9 || rnd.toNat > 4 || ((c == 2 || c == 3 || c == 6 || c == 7) && rnd != 0) then some .code else none
  | .scsrr _ n => if scsrListed n.toNat then none else some .code
  | .scsrw n _ => if n == 0x020 then none else some .code
  | _ => none

end Sys2Proof
end

