-- ==== Sys2Proof/Machine/Numbers.lean ====
section
/-! DEFINITION. Integers of a width, packed elements, quotients and saturation (R128 to R130). -/

namespace Sys2Proof.Machine

open Sys2Proof

/-- The integer of width w that x stands for, signed or unsigned (R128). -/
def toInt (signed : Bool) (w x : Nat) : Int :=
  if signed && 2 ^ (w - 1) ≤ x % 2 ^ w then (x % 2 ^ w : Int) - (2 ^ w : Nat) else ((x % 2 ^ w : Nat) : Int)

/-- An exact integer reduced modulo 2^w (R130). -/
def wrap (w : Nat) (x : Int) : Nat := (x % (2 ^ w : Nat)).toNat

/-- Largest and smallest integer of a type of width w (R128). -/
def maxInt (signed : Bool) (w : Nat) : Int :=
  if signed then ((2 ^ (w - 1) : Nat) : Int) - 1 else ((2 ^ w : Nat) : Int) - 1

def minInt (signed : Bool) (w : Nat) : Int := if signed then -((2 ^ (w - 1) : Nat) : Int) else 0

/-- x clamped to the range of an integer type (sat of R127). -/
def clampInt (signed : Bool) (w : Nat) (x : Int) : Int :=
  if x < minInt signed w then minInt signed w else if maxInt signed w < x then maxInt signed w else x

/-- The exact integer x delivered to width w: wrapped, or saturated (R130, R182). -/
def deliver (sat signed : Bool) (w : Nat) (x : Int) : Nat := wrap w (if sat then clampInt signed w x else x)

/-- Quotient of R130: all ones for a divisor of 0, otherwise truncated towards zero. -/
def quot (signed : Bool) (a b : Word) : Word :=
  if b == 0 then BitVec.allOnes 64 else if signed then a.sdiv b else a / b

/-- Remainder of R130: the dividend for a divisor of 0, otherwise with the sign of the dividend. -/
def rema (signed : Bool) (a b : Word) : Word :=
  if b == 0 then a else if signed then a.srem b else a % b

/-- Ones of the low n bits of x (popcount of R127). -/
def popcount : Nat → Nat → Nat
  | 0, _ => 0
  | n + 1, x => x % 2 + popcount n (x / 2)

/-- Leading zeros of x as an n-bit value, n when x is 0 (clz of R127). -/
def clzNat (n x : Nat) : Nat := if x % 2 ^ n == 0 then n else n - 1 - Nat.log2 (x % 2 ^ n)

/-- Element k of a packed value with elements of w bits (R129). -/
def element (w k x : Nat) : Nat := x / 2 ^ (w * k) % 2 ^ w

/-- The packed value of a list of elements of w bits, element 0 first (R129). -/
def pack (w : Nat) : List Nat → Nat
  | [] => 0
  | e :: rest => e % 2 ^ w + 2 ^ w * pack w rest

/-- The elements of an operand of a type, element 0 first (R129). -/
def elements (t : Ty) (x : Nat) : List Nat := (List.range t.count).map fun k => element t.elem k x

/-- A function of elements applied to each element of two operands of a type (R129). -/
def mapElems2 (t : Ty) (f : Nat → Nat → Nat) (a b : Nat) : Nat :=
  pack t.elem ((List.range t.count).map fun k => f (element t.elem k a) (element t.elem k b))

def mapElems3 (t : Ty) (f : Nat → Nat → Nat → Nat) (a b c : Nat) : Nat :=
  pack t.elem ((List.range t.count).map fun k =>
    f (element t.elem k a) (element t.elem k b) (element t.elem k c))

def mapElems1 (t : Ty) (f : Nat → Nat) (a : Nat) : Nat :=
  pack t.elem ((List.range t.count).map fun k => f (element t.elem k a))

/-- The bits of x reversed in a width (brev of R184). -/
def reverseBits : Nat → Nat → Nat
  | 0, _ => 0
  | n + 1, x => (x % 2) * 2 ^ n + reverseBits n (x / 2)

/-- Sum of a list of numbers. -/
def sumNat (l : List Nat) : Nat := l.foldl (· + ·) 0

/-- n divided by 2^k, rounded to an integer in a mode of R143: 0 nearest, ties to even; 1 towards zero; 2 down; 3 up;
4 nearest, ties away. -/
def shiftRound (mode : Nat) (x : Int) (k : Nat) : Int :=
  let m := x.natAbs
  let q := m / 2 ^ k
  let r := m % 2 ^ k
  let neg := decide (x < 0)
  let up :=
    match mode with
    | 0 => decide (2 ^ k < 2 * r) || (2 * r == 2 ^ k && r != 0 && q % 2 == 1)
    | 1 => false
    | 2 => neg && r != 0
    | 3 => !neg && r != 0
    | _ => r != 0 && decide (2 ^ k ≤ 2 * r)
  let v : Nat := if up then q + 1 else q
  if neg then -(v : Int) else (v : Int)

end Sys2Proof.Machine
end

