-- ==== Sys2Proof/Machine/Float.lean ====
section
/-! DEFINITION. Floating formats, rounding and floating operations to the bit (R131 to R135, R141 to R148). A value
is exact: a sign, an integer and a power of two. -/

namespace Sys2Proof.Machine

open Sys2Proof

/-- A floating format (R131). -/
structure Fmt where
  ebits : Nat
  fbits : Nat
  bias : Nat
  noInf : Bool     -- E4M3: the all-ones exponent holds values, its last code is NaN
deriving DecidableEq, Repr

def Fmt.f64 : Fmt := { ebits := 11, fbits := 52, bias := 1023, noInf := false }
def Fmt.f32 : Fmt := { ebits := 8, fbits := 23, bias := 127, noInf := false }
def Fmt.f16 : Fmt := { ebits := 5, fbits := 10, bias := 15, noInf := false }
def Fmt.bf16 : Fmt := { ebits := 8, fbits := 7, bias := 127, noInf := false }
def Fmt.e5m2 : Fmt := { ebits := 5, fbits := 2, bias := 15, noInf := false }
def Fmt.e4m3 : Fmt := { ebits := 4, fbits := 3, bias := 7, noInf := true }

/-- The element format of a floating lane type (R116). -/
def Ty.fmt : Ty → Fmt
  | .f64 => .f64
  | .f16x2 => .f16
  | .bf16x2 => .bf16
  | .e4m3x4 => .e4m3
  | .e5m2x4 => .e5m2
  | _ => .f32

def Fmt.width (f : Fmt) : Nat := 1 + f.ebits + f.fbits

/-- Exponent of the last place of a subnormal. -/
def Fmt.qmin (f : Fmt) : Int := 1 - (f.bias : Int) - (f.fbits : Int)

/-- The largest finite value, in units of the smallest subnormal (R131, R132). -/
def Fmt.maxUnits (f : Fmt) : Nat :=
  if f.noInf then (2 ^ (f.fbits + 1) - 2) * 2 ^ (2 ^ f.ebits - 2) else (2 ^ (f.fbits + 1) - 1) * 2 ^ (2 ^ f.ebits - 3)

/-- The canonical NaN of a format (R131). -/
def Fmt.nan (f : Fmt) : Nat :=
  if f.noInf then 2 ^ (f.ebits + f.fbits) - 1 else (2 ^ f.ebits - 1) * 2 ^ f.fbits + 2 ^ (f.fbits - 1)

/-- Infinity without its sign; E4M3 has none. -/
def Fmt.inf (f : Fmt) : Nat := (2 ^ f.ebits - 1) * 2 ^ f.fbits

/-- A value: NaN, an infinity, or (−1)^neg × m × 2^e. -/
inductive Num where
  | nan
  | inf (neg : Bool)
  | fin (neg : Bool) (m : Nat) (e : Int)
deriving DecidableEq, Repr

/-- The sign bit at the top of a format's bits. -/
def Fmt.signBit (f : Fmt) (neg : Bool) : Nat := if neg then 2 ^ (f.ebits + f.fbits) else 0

/-- The value of a format's bits (R131, R132). -/
def Fmt.value (f : Fmt) (x : Nat) : Num :=
  let neg := x / 2 ^ (f.ebits + f.fbits) % 2 == 1
  let ex := x / 2 ^ f.fbits % 2 ^ f.ebits
  let fr := x % 2 ^ f.fbits
  if f.noInf && ex == 2 ^ f.ebits - 1 && fr == 2 ^ f.fbits - 1 then .nan
  else if !f.noInf && ex == 2 ^ f.ebits - 1 then (if fr == 0 then .inf neg else .nan)
  else if ex == 0 then .fin neg fr f.qmin
  else .fin neg (2 ^ f.fbits + fr) (f.qmin + (ex : Int) - 1)

/-- Whether bits are a subnormal of the format. -/
def Fmt.subnormal (f : Fmt) (x : Nat) : Bool :=
  x / 2 ^ f.fbits % 2 ^ f.ebits == 0 && x % 2 ^ f.fbits != 0

/-- Subnormals replaced by zeros of the same sign when the FTZ/DAZ bit is set (R145); OFP8 is exempt. -/
def Fmt.flush (f : Fmt) (ftz : Bool) (x : Nat) : Nat :=
  if ftz && 8 < f.width && f.subnormal x then f.signBit (x / 2 ^ (f.ebits + f.fbits) % 2 == 1) else x

/-- Whether rounding in a mode goes away from zero, from the kept odd bit, the comparison of the discarded part
with half a unit, and whether anything is discarded (R143). -/
def roundsUp (mode : Nat) (neg odd inexact : Bool) (half : Ordering) : Bool :=
  match mode with
  | 0 => half == .gt || (half == .eq && odd)
  | 1 => false
  | 2 => neg && inexact
  | 3 => !neg && inexact
  | _ => half != .lt && inexact

/-- The magnitude m × 2^e, or a little above it when sticky, rounded to a multiple of 2^q in a mode (R143). -/
def roundMag (mode : Nat) (neg : Bool) (m : Nat) (e q : Int) (sticky : Bool) : Nat :=
  if q ≤ e then
    let k := m * 2 ^ (e - q).toNat
    if roundsUp mode neg (k % 2 == 1) sticky .lt then k + 1 else k
  else
    let sh := (q - e).toNat
    let k := m / 2 ^ sh
    let r := m % 2 ^ sh
    let h := 2 ^ (sh - 1)
    let half : Ordering := if r < h then .lt else if r == h && !sticky then .eq else .gt
    if roundsUp mode neg (k % 2 == 1) (r != 0 || sticky) half then k + 1 else k

/-- Bits of a finite magnitude of u smallest subnormals, u representable. -/
def Fmt.ofUnits (f : Fmt) (u : Nat) : Nat :=
  if u < 2 ^ f.fbits then u
  else
    let ex := Nat.log2 u - f.fbits + 1
    ex * 2 ^ f.fbits + (u / 2 ^ (ex - 1) - 2 ^ f.fbits)

/-- An overflowed result (R144). -/
def Fmt.overflow (f : Fmt) (mode : Nat) (sat neg : Bool) : Nat :=
  let largest := f.signBit neg + f.ofUnits f.maxUnits
  let infinite := if f.noInf then f.nan else f.signBit neg + f.inf
  if sat then largest
  else
    match mode with
    | 1 => largest
    | 2 => if neg then infinite else largest
    | 3 => if neg then largest else infinite
    | _ => infinite

/-- round(x, fmt, m) of R127 and R143, with overflow and saturation by R144, of the exact magnitude m × 2^e (a
little above it when sticky). -/
def Fmt.roundExact (f : Fmt) (mode : Nat) (sat neg : Bool) (m : Nat) (e : Int) (sticky : Bool) : Nat :=
  if m == 0 && !sticky then f.signBit neg
  else
    let q := max ((Nat.log2 m : Int) + e - f.fbits) f.qmin
    let u := roundMag mode neg m e q sticky * 2 ^ (q - f.qmin).toNat
    if f.maxUnits < u then f.overflow mode sat neg else f.signBit neg + f.ofUnits u

/-- A value rounded to a format (R143, R144, R146). -/
def Fmt.ofNum (f : Fmt) (mode : Nat) (sat : Bool) : Num → Nat
  | .nan => f.nan
  | .inf neg => if sat then f.signBit neg + f.ofUnits f.maxUnits else if f.noInf then f.nan else f.signBit neg + f.inf
  | .fin neg m e => f.roundExact mode sat neg m e false

/-! ### Exact operations (R146) -/

def Num.neg : Num → Num
  | .nan => .nan
  | .inf s => .inf !s
  | .fin s m e => .fin (!s) m e

/-- The signed integer of a finite value at exponent q, q at most e. -/
def scaled (neg : Bool) (m : Nat) (e q : Int) : Int :=
  let v : Nat := m * 2 ^ (e - q).toNat
  if neg then -(v : Int) else v

/-- The exact sum; an exact zero sum of opposite signs is +0, or −0 in mode RDN (R146). -/
def Num.add (mode : Nat) : Num → Num → Num
  | .nan, _ => .nan
  | _, .nan => .nan
  | .inf s, .inf t => if s == t then .inf s else .nan
  | .inf s, .fin _ _ _ => .inf s
  | .fin _ _ _, .inf t => .inf t
  | .fin s m e, .fin t n d =>
    let q := min e d
    let x := scaled s m e q + scaled t n d q
    if x == 0 then .fin (if s == t then s else mode == 2) 0 0
    else .fin (decide (x < 0)) x.natAbs q

/-- The exact product. -/
def Num.mul : Num → Num → Num
  | .nan, _ => .nan
  | _, .nan => .nan
  | .inf s, .inf t => .inf (s != t)
  | .inf s, .fin t n _ => if n == 0 then .nan else .inf (s != t)
  | .fin s m _, .inf t => if m == 0 then .nan else .inf (s != t)
  | .fin s m e, .fin t n d => .fin (s != t) (m * n) (e + d)

/-- The comparison of two values that are not NaN; −0 and +0 are equal (R207). -/
def Num.cmp : Num → Num → Option Ordering
  | .nan, _ => none
  | _, .nan => none
  | .inf s, .inf t => some (if s == t then .eq else if s then .lt else .gt)
  | .inf s, .fin _ _ _ => some (if s then .lt else .gt)
  | .fin _ _ _, .inf t => some (if t then .gt else .lt)
  | .fin s m e, .fin t n d =>
    let q := min e d
    let x := scaled s m e q
    let y := scaled t n d q
    some (if x < y then .lt else if x == y then .eq else .gt)

def Num.isNan : Num → Bool
  | .nan => true
  | _ => false

def Num.isNeg : Num → Bool
  | .nan => false
  | .inf s => s
  | .fin s _ _ => s

/-- a < b in the order of R147, in which −0 is below +0. -/
def Num.below (a b : Num) : Bool :=
  match a.cmp b with
  | some .lt => true
  | some .eq => a.isNeg && !b.isNeg
  | _ => false

/-- a ÷ b rounded once to a format; IEEE special cases by R209. -/
def Fmt.div (f : Fmt) (mode : Nat) (sat : Bool) : Num → Num → Nat
  | .nan, _ => f.nan
  | _, .nan => f.nan
  | .inf _, .inf _ => f.nan
  | .inf s, .fin t _ _ => f.ofNum mode sat (.inf (s != t))
  | .fin s _ _, .inf t => f.signBit (s != t)
  | .fin s m e, .fin t n d =>
    if n == 0 then (if m == 0 then f.nan else f.ofNum mode sat (.inf (s != t)))
    else if m == 0 then f.signBit (s != t)
    else
      -- enough quotient bits that the rounding position lies above the sticky part
      let k := f.fbits + 3 + Nat.log2 n
      let x := m * 2 ^ k
      f.roundExact mode sat (s != t) (x / n) (e - d - k) (x % n != 0)

/-- ⌊√x⌋ by one bit a step, from bit n downwards. -/
def isqrtFrom : Nat → Nat → Nat → Nat
  | 0, x, r => if (r + 1) * (r + 1) ≤ x then r + 1 else r
  | n + 1, x, r => isqrtFrom n x (if (r + 2 ^ (n + 1)) * (r + 2 ^ (n + 1)) ≤ x then r + 2 ^ (n + 1) else r)

def isqrt (x : Nat) : Nat := if x == 0 then 0 else isqrtFrom (Nat.log2 x / 2) x 0

/-- √a rounded once to a format; √(−0) = −0 (R209). -/
def Fmt.sqrt (f : Fmt) (mode : Nat) (sat : Bool) : Num → Nat
  | .nan => f.nan
  | .inf s => if s then f.nan else f.ofNum mode sat (.inf false)
  | .fin s m e =>
    if m == 0 then f.signBit s
    else if s then f.nan
    else
      let k := 2 * (f.fbits + 3) + (if e % 2 == 0 then 0 else 1)
      let x := m * 2 ^ k
      let r := isqrt x
      f.roundExact mode sat false r ((e - k) / 2) (r * r != x)

/-- A value rounded to an integer in a mode and clamped to an integer type; NaN gives 0 (R148). -/
def Num.toIntClamped (mode : Nat) (signed : Bool) (w : Nat) : Num → Int
  | .nan => 0
  | .inf s => if s then minInt signed w else maxInt signed w
  | .fin s m e => clampInt signed w (
      let r : Nat := roundMag mode s m e 0 false
      if s then -(r : Int) else r)

/-- An integer as a value (R148). -/
def Num.ofInt (x : Int) : Num := .fin (decide (x < 0)) x.natAbs 0

/-! ### Operations on bits (R145 to R147, R206) -/

/-- A two-operand operation of a format: operands flushed, computed exactly, rounded, flushed. -/
def Fmt.op2 (f : Fmt) (mode : Nat) (sat ftz : Bool) (op : Num → Num → Num) (a b : Nat) : Nat :=
  f.flush ftz (f.ofNum mode sat (op (f.value (f.flush ftz a)) (f.value (f.flush ftz b))))

def Fmt.add (f : Fmt) (mode : Nat) (sat ftz : Bool) : Nat → Nat → Nat := f.op2 mode sat ftz (Num.add mode)

def Fmt.sub (f : Fmt) (mode : Nat) (sat ftz : Bool) : Nat → Nat → Nat :=
  f.op2 mode sat ftz fun a b => Num.add mode a b.neg

def Fmt.mul (f : Fmt) (mode : Nat) (sat ftz : Bool) : Nat → Nat → Nat := f.op2 mode sat ftz Num.mul

/-- a × b + c with one rounding (R206, R213). -/
def Fmt.fma (f : Fmt) (mode : Nat) (sat ftz : Bool) (a b c : Nat) : Nat :=
  f.flush ftz (f.ofNum mode sat (Num.add mode
    (Num.mul (f.value (f.flush ftz a)) (f.value (f.flush ftz b))) (f.value (f.flush ftz c))))

/-- minimumNumber or maximumNumber on bits (R147). -/
def Fmt.minMax (f : Fmt) (isMax ftz : Bool) (a b : Nat) : Nat :=
  let x := f.flush ftz a
  let y := f.flush ftz b
  let vx := f.value x
  let vy := f.value y
  if vx.isNan && vy.isNan then f.nan
  else if vx.isNan then y
  else if vy.isNan then x
  else if isMax then (if vx.below vy then y else x)
  else (if vy.below vx then y else x)

/-- a × 2^n rounded once (fscale of R206). An exponent beyond ±8,192 gives what ±8,192 gives in every format. -/
def Fmt.scale (f : Fmt) (mode : Nat) (sat ftz : Bool) (a : Nat) (n : Int) : Nat :=
  let k : Int := if n < -8192 then -8192 else if 8192 < n then 8192 else n
  match f.value (f.flush ftz a) with
  | .fin s m e => f.flush ftz (f.roundExact mode sat s m (e + k) false)
  | v => f.ofNum mode sat v

/-- The sign bit of a format's bits inverted (R206). -/
def Fmt.flipSign (f : Fmt) (x : Nat) : Nat := x ^^^ 2 ^ (f.ebits + f.fbits)

/-- A format's bits converted to another format (R148, R210). -/
def Fmt.convert (src dst : Fmt) (mode : Nat) (sat ftz : Bool) (x : Nat) : Nat :=
  dst.flush ftz (dst.ofNum mode sat (src.value (src.flush ftz x)))

/-- An f32 widened exactly to f64 with its bits kept by value (R114). -/
def widen (x : Nat) : Nat := Fmt.f32.convert .f64 0 false false x

/-! ### The extended accumulator of the stack cores (R141, R142) -/

/-- A value rounded to 40 bits with RNE; below 2^−126 it is zero, from 2^128 on infinity. -/
def extRound : Num → Num
  | .fin s m e =>
    if m == 0 then .fin s 0 0
    else
      let q : Int := (Nat.log2 m : Int) + e - 39
      let r := roundMag 0 s m e q false
      let top : Int := (Nat.log2 r : Int) + q
      if 127 < top then .inf s else if top < -126 then .fin s 0 0 else .fin s r q
  | v => v

/-- An addend as it enters the accumulator: below 2^−126 it is zero of the same sign (R142). -/
def extAddend : Num → Num
  | .fin s m e => if m == 0 || (Nat.log2 m : Int) + e < -126 then .fin s 0 0 else .fin s m e
  | v => v

def extAdd (a b : Num) : Num := extRound (Num.add 0 (extAddend a) (extAddend b))

/-- The value of a stored accumulator (R141). -/
def extValue (x : Word) : Num :=
  let s := x.getLsbD 63
  let ex := field x 55 8
  let fr := field x 16 39
  if ex == 255 then (if fr == 0 then .inf s else .nan)
  else if ex == 0 then .fin s 0 0
  else .fin s (2 ^ 39 + fr) ((ex : Int) - 127 - 39)

/-- A value, already rounded, in the stored form (R141). -/
def extBits : Num → Word
  | .nan => 0x7FC0000000000000
  | .inf s => if s then 0xFF80000000000000 else 0x7F80000000000000
  | .fin s m e =>
    let sign : Nat := if s then 2 ^ 63 else 0
    if m == 0 then BitVec.ofNat 64 sign
    else
      let top : Int := (Nat.log2 m : Int) + e
      let fr := if Nat.log2 m ≤ 39 then m * 2 ^ (39 - Nat.log2 m) else m / 2 ^ (Nat.log2 m - 39)
      BitVec.ofNat 64 (sign + (top + 127).toNat * 2 ^ 55 + (fr - 2 ^ 39) * 2 ^ 16)

/-- Read-out to binary32 (R142). -/
def extRead (x : Word) : Half := BitVec.ofNat 32 (Fmt.f32.ofNum 0 false (extValue x))

/-! ### Block scales and elements (R132 to R137) -/

/-- Half units of an E2M1 code with its sign (R132). -/
def e2m1Half (code : Nat) : Int :=
  let mag : Nat := [0, 1, 2, 3, 4, 6, 8, 12].getD (code % 8) 0
  if code / 8 % 2 == 1 then -(mag : Int) else mag

/-- Block formats by their codes: 0 MXINT8, 1 MXFP4, 2 K4. -/
inductive BlockFmt where
  | mxint8 | mxfp4 | k4
deriving DecidableEq, Repr

def BlockFmt.ofCode : Nat → BlockFmt
  | 0 => .mxint8
  | 1 => .mxfp4
  | _ => .k4

/-- The NaN scale of R133. -/
def nanScale (b : BlockFmt) (slot : BitVec 9) : Bool :=
  match b with
  | .k4 => slot == 0x1FF
  | _ => slot.getLsbD 8 || field slot 0 8 == 0xFF

/-- Integer m and exponent e to which a block's scale reduces (R135); none for the NaN scale. -/
def blockScale (b : BlockFmt) (slot : BitVec 9) : Option (Nat × Int) :=
  if nanScale b slot then none
  else
    match b with
    | .mxint8 => some (32, (field slot 0 8 : Int) - 127 - 6)
    | .mxfp4 => some (32, (field slot 0 8 : Int) - 127 - 1)
    | .k4 =>
      let ex := field slot 5 4
      let mm := field slot 0 5
      some (if ex == 0 then mm else 32 + mm, ((max ex 1 : Nat) : Int) - 8 - 1)

/-- The element integer i of R135. -/
def elementInt (b : BlockFmt) (code : Nat) : Int :=
  match b with
  | .mxint8 => toInt true 8 code
  | _ => e2m1Half code

/-- The exact value of an element of a block: i × m × 2^(e − 5) (R135). -/
def elementValue (b : BlockFmt) (slot : BitVec 9) (code : Nat) : Num :=
  match blockScale b slot with
  | none => .nan
  | some (m, e) =>
    let i := elementInt b code * m
    .fin (decide (i < 0)) i.natAbs (e - 5)

/-- Magnitude of x divided by m × 2^k, rounded to an integer with RNE. -/
def divRne (xm : Nat) (xe : Int) (m : Nat) (k : Int) : Nat :=
  if m == 0 then 0
  else
    let d := xe - k
    let n := if 0 ≤ d then xm * 2 ^ d.toNat else xm
    let den := if 0 ≤ d then m else m * 2 ^ (-d).toNat
    let q := n / den
    let r := n % den
    if den < 2 * r || (2 * r == den && q % 2 == 1) then q + 1 else q

/-- The E2M1 magnitude code nearest to h half-half units (quarter units of the grid are compared exactly): the
code for the magnitude n ÷ d half units, ties to the code whose bit 0 is 0 (R137). -/
def e2m1Nearest (n d : Nat) : Nat :=
  -- midpoints between neighbouring grid values 0 1 2 3 4 6 8 12, doubled: 1 3 5 7 10 14 20
  let above (mid : Nat) (even : Bool) : Bool := if even then decide (mid * d < 2 * n) else decide (mid * d ≤ 2 * n)
  -- at a tie the code with bit 0 clear is taken: the lower code when it is even
  let c1 := above 1 true
  let c2 := above 3 false
  let c3 := above 5 true
  let c4 := above 7 false
  let c5 := above 10 true
  let c6 := above 14 false
  let c7 := above 20 true
  [c1, c2, c3, c4, c5, c6, c7].countP id

/-- a ÷ 6 rounded to E4M5 with RUP and clamped to 248, as a scale slot; a = m × 2^e (R137). -/
def k4Scale (m : Nat) (e : Int) : BitVec 9 :=
  if m == 0 then 0
  else
    -- smallest slot whose scale is at least a ÷ 6; slot s has scale k4Units s × 2^−12
    let units (s : Nat) : Nat := if s / 32 == 0 then s else (32 + s % 32) * 2 ^ (s / 32 - 1)
    let ge (s : Nat) : Bool :=
      -- units s × 2^−12 × 6 ≥ m × 2^e
      let d := e + 12
      if 0 ≤ d then decide (m * 2 ^ d.toNat ≤ units s * 6) else decide (m ≤ units s * 6 * 2 ^ (-d).toNat)
    -- bisect over slots 1 to 510
    let rec go : Nat → Nat → Nat → Nat
      | 0, lo, _ => lo
      | n + 1, lo, hi =>
        if lo < hi then (let mid := (lo + hi) / 2; if ge mid then go n lo mid else go n (mid + 1) hi) else lo
    BitVec.ofNat 9 (go 10 1 510)

/-- The scale slot that a list of exact values forms (R137). -/
def quantScale (b : BlockFmt) (xs : List Num) : BitVec 9 :=
  let bad := xs.any fun x => match x with | .fin _ _ _ => false | _ => true
  if bad then (if b == .k4 then 0x1FF else 0x0FF)
  else
    let mags := xs.map fun x => match x with | .fin _ m e => (m, e) | _ => (0, 0)
    let amax := mags.foldl (fun (a : Nat × Int) (x : Nat × Int) =>
      match Num.cmp (.fin false a.1 a.2) (.fin false x.1 x.2) with
      | some .lt => x
      | _ => a) (0, 0)
    if amax.1 == 0 then 0
    else
      match b with
      | .k4 => k4Scale amax.1 amax.2
      | _ =>
        let t := (Nat.log2 amax.1 : Int) + amax.2 - (if b == .mxfp4 then 2 else 0) + 127
        BitVec.ofNat 9 (if t < 0 then 0 else if 254 < t then 254 else t.toNat)

/-- The element code of a value in a block with a scale slot: 8 bits for MXINT8, 4 for E2M1 (R137). -/
def quantElement (b : BlockFmt) (slot : BitVec 9) (x : Num) : Nat :=
  match blockScale b slot, x with
  | some (sm, se), .fin s m e =>
    if sm == 0 then 0
    else
      match b with
      | .mxint8 =>
        -- x ÷ X in units of 2^−6, X = sm × 2^(se + 6 − 5) with sm = 32
        let q := min (divRne m e sm (se - 5)) 127
        wrap 8 (if s then -(q : Int) else q)
      | _ =>
        -- x ÷ X in half units: x ÷ (sm × 2^(se − 5))
        let d := e - (se - 5)
        let n := if 0 ≤ d then m * 2 ^ d.toNat else m
        let den := if 0 ≤ d then sm else sm * 2 ^ (-d).toNat
        let c := e2m1Nearest n den
        if c == 0 then 0 else if s then c + 8 else c
  | _, _ => 0

/-- A block of 32 values quantised: its scale slot and its element codes (R137). -/
def quantise (b : BlockFmt) (xs : List Num) : BitVec 9 × List Nat :=
  let slot := quantScale b xs
  if nanScale b slot then (slot, xs.map fun _ => 0) else (slot, xs.map (quantElement b slot))

end Sys2Proof.Machine
end

