-- ==== Sys2Proof/Machine/Flags.lean ====
section
/-! DEFINITION. Conditions and predicates. The hardware has no flags register: a comparison writes one predicate bit
per lane (R185, R207), a class test likewise (R207), and no operation sets a status flag (R130, R146). -/

namespace Sys2Proof.Machine

open Sys2Proof

/-- COND of icmp on two integers (R185). -/
def icmpCond (cond : Nat) (a b : Int) : Bool :=
  match cond with
  | 0 => a == b
  | 1 => a != b
  | 2 => decide (a < b)
  | 3 => decide (a ≤ b)
  | 4 => decide (b < a)
  | _ => decide (b ≤ a)

/-- COND of fcmp on two values (R207). -/
def fcmpCond (cond : Nat) (a b : Num) : Bool :=
  match cond with
  | 0 => a.cmp b == some .eq
  | 1 => a.cmp b != some .eq
  | 2 => a.cmp b == some .lt
  | 3 => a.cmp b == some .lt || a.cmp b == some .eq
  | 4 => a.cmp b == some .gt
  | 5 => a.cmp b == some .gt || a.cmp b == some .eq
  | 6 => (a.cmp b).isSome
  | _ => (a.cmp b).isNone

/-- COMB of icmp, fcmp and fclass: the new bit combined with an old one (R185, R208). -/
def combine (comb : Nat) (x old : Bool) : Bool :=
  match comb with
  | 0 => x
  | 1 => x && old
  | 2 => x || old
  | _ => x != old

/-- The class of a value by its bit of the class mask (R207). -/
def Fmt.classBit (f : Fmt) (x : Nat) : Nat :=
  match f.value x with
  | .nan => 8
  | .inf neg => if neg then 0 else 7
  | .fin neg m _ =>
    if m == 0 then (if neg then 3 else 4)
    else if f.subnormal x then (if neg then 2 else 5)
    else if neg then 1 else 6

end Sys2Proof.Machine
end

