-- ==== Sys2Proof/WellFormed.lean ====
section
/-! DEFINITION. Well-formed instructions: the terms that some word stands for (R121 cause 1). -/

namespace Sys2Proof

/-- The ILL cause that the fields of an instruction raise by themselves, none if it is well-formed (R121). -/
def Instr.illegal (i : Instr) : Option Ill :=
  match i.lane? with
  | some (op, f) => op.illegal f
  | none => i.illegalCode

/-- An instruction whose word raises no ILL of its own. -/
def Instr.wellFormed (i : Instr) : Bool := i.illegal.isNone

end Sys2Proof
end

