-- ==== Sys2Proof/Decode.lean ====
section
/-! DEFINITION. The decoder of the three instruction streams, total on any bytes, and the encoder (R109 to R122). -/

namespace Sys2Proof

/-! ### Scalar words -/

/-- The scalar instruction of a word by its OPC and FN, reserved fields checked (R110, R111). -/
def rawScalar (w : BitVec 32) : Except Ill Instr :=
  match field w 26 6 with
  | 0x01 =>
    match field w 0 6 with
    | 0 => if field w 6 5 != 0 then .error .reserved else .ok (.kadd (w.extractLsb' 21 5) (w.extractLsb' 16 5) (w.extractLsb' 11 5))
    | 1 => if field w 6 5 != 0 then .error .reserved else .ok (.ksub (w.extractLsb' 21 5) (w.extractLsb' 16 5) (w.extractLsb' 11 5))
    | 2 => if field w 6 5 != 0 then .error .reserved else .ok (.kand (w.extractLsb' 21 5) (w.extractLsb' 16 5) (w.extractLsb' 11 5))
    | 3 => if field w 6 5 != 0 then .error .reserved else .ok (.kor (w.extractLsb' 21 5) (w.extractLsb' 16 5) (w.extractLsb' 11 5))
    | 4 => if field w 6 5 != 0 then .error .reserved else .ok (.kxor (w.extractLsb' 21 5) (w.extractLsb' 16 5) (w.extractLsb' 11 5))
    | 5 => if field w 6 5 != 0 then .error .reserved else .ok (.kshl (w.extractLsb' 21 5) (w.extractLsb' 16 5) (w.extractLsb' 11 5))
    | 6 => if field w 6 5 != 0 then .error .reserved else .ok (.kshr (w.extractLsb' 21 5) (w.extractLsb' 16 5) (w.extractLsb' 11 5))
    | 7 => if field w 6 5 != 0 then .error .reserved else .ok (.ksra (w.extractLsb' 21 5) (w.extractLsb' 16 5) (w.extractLsb' 11 5))
    | 8 => if field w 6 5 != 0 then .error .reserved else .ok (.kmul (w.extractLsb' 21 5) (w.extractLsb' 16 5) (w.extractLsb' 11 5))
    | 9 => if field w 6 5 != 0 then .error .reserved else .ok (.kmulh (w.extractLsb' 21 5) (w.extractLsb' 16 5) (w.extractLsb' 11 5))
    | 10 => if field w 6 5 != 0 then .error .reserved else .ok (.kmulhn (w.extractLsb' 21 5) (w.extractLsb' 16 5) (w.extractLsb' 11 5))
    | 11 => if field w 6 5 != 0 then .error .reserved else .ok (.kdiv (w.extractLsb' 21 5) (w.extractLsb' 16 5) (w.extractLsb' 11 5))
    | 12 => if field w 6 5 != 0 then .error .reserved else .ok (.kdivn (w.extractLsb' 21 5) (w.extractLsb' 16 5) (w.extractLsb' 11 5))
    | 13 => if field w 6 5 != 0 then .error .reserved else .ok (.krem (w.extractLsb' 21 5) (w.extractLsb' 16 5) (w.extractLsb' 11 5))
    | 14 => if field w 6 5 != 0 then .error .reserved else .ok (.kremn (w.extractLsb' 21 5) (w.extractLsb' 16 5) (w.extractLsb' 11 5))
    | 15 => if field w 6 5 != 0 then .error .reserved else .ok (.kmin (w.extractLsb' 21 5) (w.extractLsb' 16 5) (w.extractLsb' 11 5))
    | 16 => if field w 6 5 != 0 then .error .reserved else .ok (.kmax (w.extractLsb' 21 5) (w.extractLsb' 16 5) (w.extractLsb' 11 5))
    | 17 => if field w 6 5 != 0 then .error .reserved else .ok (.kminn (w.extractLsb' 21 5) (w.extractLsb' 16 5) (w.extractLsb' 11 5))
    | 18 => if field w 6 5 != 0 then .error .reserved else .ok (.kmaxn (w.extractLsb' 21 5) (w.extractLsb' 16 5) (w.extractLsb' 11 5))
    | 19 => if field w 6 5 != 0 then .error .reserved else .ok (.kslt (w.extractLsb' 21 5) (w.extractLsb' 16 5) (w.extractLsb' 11 5))
    | 20 => if field w 6 5 != 0 then .error .reserved else .ok (.ksltn (w.extractLsb' 21 5) (w.extractLsb' 16 5) (w.extractLsb' 11 5))
    | 21 => if field w 6 5 != 0 then .error .reserved else .ok (.kseq (w.extractLsb' 21 5) (w.extractLsb' 16 5) (w.extractLsb' 11 5))
    | 22 => if field w 6 10 != 0 then .error .reserved else .ok (.kclz (w.extractLsb' 21 5) (w.extractLsb' 16 5))
    | 23 => if field w 6 10 != 0 then .error .reserved else .ok (.kpopc (w.extractLsb' 21 5) (w.extractLsb' 16 5))
    | _ => .error .unassigned
  | 0x02 => .ok (.kaddi (w.extractLsb' 21 5) (w.extractLsb' 16 5) (w.extractLsb' 0 16))
  | 0x03 => .ok (.kandi (w.extractLsb' 21 5) (w.extractLsb' 16 5) (w.extractLsb' 0 16))
  | 0x04 => .ok (.kori (w.extractLsb' 21 5) (w.extractLsb' 16 5) (w.extractLsb' 0 16))
  | 0x05 => .ok (.kxori (w.extractLsb' 21 5) (w.extractLsb' 16 5) (w.extractLsb' 0 16))
  | 0x06 => if field w 6 10 != 0 then .error .reserved else .ok (.kshli (w.extractLsb' 21 5) (w.extractLsb' 16 5) (w.extractLsb' 0 6))
  | 0x07 => if field w 6 10 != 0 then .error .reserved else .ok (.kshri (w.extractLsb' 21 5) (w.extractLsb' 16 5) (w.extractLsb' 0 6))
  | 0x08 => if field w 6 10 != 0 then .error .reserved else .ok (.ksrai (w.extractLsb' 21 5) (w.extractLsb' 16 5) (w.extractLsb' 0 6))
  | 0x09 => .ok (.kslti (w.extractLsb' 21 5) (w.extractLsb' 16 5) (w.extractLsb' 0 16))
  | 0x0a => .ok (.ksltni (w.extractLsb' 21 5) (w.extractLsb' 16 5) (w.extractLsb' 0 16))
  | 0x0b => if field w 16 5 != 0 then .error .reserved else .ok (.klui (w.extractLsb' 21 5) (w.extractLsb' 0 16))
  | 0x0c => if field w 12 4 != 0 then .error .reserved else .ok (.kins (w.extractLsb' 21 5) (w.extractLsb' 16 5) (w.extractLsb' 6 6) (w.extractLsb' 0 6))
  | 0x0d => .ok (.kld (w.extractLsb' 21 5) (w.extractLsb' 16 5) (w.extractLsb' 14 2) (w.extractLsb' 11 3) (w.extractLsb' 0 11))
  | 0x0e => if field w 13 1 != 0 then .error .reserved else .ok (.kst (w.extractLsb' 21 5) (w.extractLsb' 16 5) (w.extractLsb' 14 2) (w.extractLsb' 11 2) (w.extractLsb' 0 11))
  | 0x0f => .ok (.kbr (w.extractLsb' 21 5) (w.extractLsb' 16 5) (w.extractLsb' 0 16))
  | 0x10 => .ok (.kjal (w.extractLsb' 0 26))
  | 0x11 => .ok (.kjalr (w.extractLsb' 21 5) (w.extractLsb' 16 5) (w.extractLsb' 0 16))
  | 0x12 => .ok (.kcall (w.extractLsb' 22 4) (w.extractLsb' 0 22))
  | 0x13 => if field w 0 22 != 0 then .error .reserved else .ok (.kret (w.extractLsb' 22 4))
  | 0x14 => if field w 21 5 != 0 then .error .reserved else .ok (.lbk (w.extractLsb' 16 5) (w.extractLsb' 0 16))
  | 0x15 =>
    match field w 0 6 with
    | 0 => if field w 6 20 != 0 then .error .reserved else .ok .lsync
    | 1 => if field w 6 10 != 0 then .error .reserved else .ok (.lget (w.extractLsb' 21 5) (w.extractLsb' 16 5))
    | 2 => if field w 6 15 != 0 then .error .reserved else .ok (.lslots (w.extractLsb' 21 5))
    | _ => .error .unassigned
  | 0x16 =>
    match field w 0 6 with
    | 0 => if field w 6 20 != 0 then .error .reserved else .ok .knop
    | 1 => if field w 16 5 != 0 then .error .reserved else .ok (.csrr (w.extractLsb' 21 5) (w.extractLsb' 6 10))
    | 2 => if field w 21 5 != 0 then .error .reserved else .ok (.csrw (w.extractLsb' 16 5) (w.extractLsb' 6 10))
    | 3 => if field w 6 10 != 0 || field w 21 5 != 0 then .error .reserved else .ok (.ktrap (w.extractLsb' 16 5))
    | 4 => if field w 6 20 != 0 then .error .reserved else .ok .keret
    | 5 => if field w 6 20 != 0 then .error .reserved else .ok .kend
    | 6 => if field w 6 10 != 0 || field w 21 5 != 0 then .error .reserved else .ok (.sgld (w.extractLsb' 16 5))
    | 7 => if field w 6 20 != 0 then .error .reserved else .ok .kbrk
    | 8 => if field w 6 5 != 0 || field w 21 5 != 0 then .error .reserved else .ok (.ktlbi (w.extractLsb' 16 5) (w.extractLsb' 11 5))
    | 9 => if field w 6 20 != 0 then .error .reserved else .ok .kyield
    | _ => .error .unassigned
  | 0x17 =>
    match field w 0 6 with
    | 0 => if field w 6 10 != 0 || field w 17 4 != 0 then .error .reserved else .ok (.fence (w.extractLsb' 21 5) (w.extractLsb' 16 1))
    | 1 => if field w 6 10 != 0 || field w 17 4 != 0 then .error .reserved else .ok (.fenceAcq (w.extractLsb' 21 5) (w.extractLsb' 16 1))
    | 2 => if field w 6 10 != 0 || field w 17 4 != 0 then .error .reserved else .ok (.fenceRel (w.extractLsb' 21 5) (w.extractLsb' 16 1))
    | 3 => if field w 6 10 != 0 || field w 17 4 != 0 then .error .reserved else .ok (.fenceSc (w.extractLsb' 21 5) (w.extractLsb' 16 1))
    | 4 => if field w 6 5 != 0 then .error .reserved else .ok (.fencex (w.extractLsb' 21 5) (w.extractLsb' 16 5) (w.extractLsb' 11 5))
    | _ => .error .unassigned
  | 0x18 =>
    match field w 0 6 with
    | 0 => if field w 6 10 != 0 then .error .reserved else .ok (.pwait (w.extractLsb' 21 5) (w.extractLsb' 16 5))
    | 1 => if field w 6 10 != 0 || field w 21 5 != 0 then .error .reserved else .ok (.cbwait (w.extractLsb' 16 5))
    | _ => .error .unassigned
  | 0x19 =>
    match field w 0 6 with
    | 0 => if field w 6 15 != 0 then .error .reserved else .ok (.cseal (w.extractLsb' 21 5))
    | 1 => if field w 6 10 != 0 then .error .reserved else .ok (.srec (w.extractLsb' 21 5) (w.extractLsb' 16 5))
    | 2 => if field w 6 10 != 0 || field w 21 5 != 0 then .error .reserved else .ok (.cpm (w.extractLsb' 16 5))
    | _ => .error .unassigned
  | 0x1a =>
    match field w 0 6 with
    | 0 => if field w 6 5 != 0 || field w 21 5 != 0 then .error .reserved else .ok (.barinit (w.extractLsb' 16 5) (w.extractLsb' 11 5))
    | 1 => if field w 6 10 != 0 then .error .reserved else .ok (.barr (w.extractLsb' 21 5) (w.extractLsb' 16 5))
    | 2 => if field w 6 5 != 0 || field w 21 5 != 0 then .error .reserved else .ok (.barw (w.extractLsb' 16 5) (w.extractLsb' 11 5))
    | 3 => if field w 6 10 != 0 then .error .reserved else .ok (.barrw (w.extractLsb' 21 5) (w.extractLsb' 16 5))
    | 4 => if field w 6 5 != 0 || field w 21 5 != 0 then .error .reserved else .ok (.barx (w.extractLsb' 16 5) (w.extractLsb' 11 5))
    | _ => .error .unassigned
  | 0x1b =>
    match field w 0 6 with
    | 0 => if field w 6 10 != 0 then .error .reserved else .ok (.rgrow (w.extractLsb' 21 5) (w.extractLsb' 16 5))
    | 1 => if field w 6 10 != 0 then .error .reserved else .ok (.rshrk (w.extractLsb' 21 5) (w.extractLsb' 16 5))
    | 2 => if field w 6 15 != 0 then .error .reserved else .ok (.racq (w.extractLsb' 21 5))
    | _ => .error .unassigned
  | 0x1c =>
    match field w 0 6 with
    | 0 =>
      match field w 11 5 with
      | 0 => if field w 6 5 != 0 || field w 21 5 != 0 then .error .reserved else .ok (.bmodeStor (w.extractLsb' 16 5))
      | 1 => if field w 6 5 != 0 || field w 21 5 != 0 then .error .reserved else .ok (.bmodeComp (w.extractLsb' 16 5))
      | _ => .error .code
    | 1 =>
      match field w 11 5 with
      | 0 => if field w 6 5 != 0 || field w 21 5 != 0 then .error .reserved else .ok (.bstepOff (w.extractLsb' 16 5))
      | 1 => if field w 6 5 != 0 || field w 21 5 != 0 then .error .reserved else .ok (.bstepOn (w.extractLsb' 16 5))
      | 2 => if field w 6 5 != 0 || field w 21 5 != 0 then .error .reserved else .ok (.bstepStep (w.extractLsb' 16 5))
      | _ => .error .code
    | 2 => if field w 6 10 != 0 then .error .reserved else .ok (.bquery (w.extractLsb' 21 5) (w.extractLsb' 16 5))
    | 3 => if field w 6 10 != 0 || field w 21 5 != 0 then .error .reserved else .ok (.bsync (w.extractLsb' 16 5))
    | _ => .error .unassigned
  | 0x1d =>
    match field w 0 6 with
    | 0 => if field w 6 10 != 0 || field w 21 5 != 0 then .error .reserved else .ok (.bvAdd (w.extractLsb' 16 5))
    | 1 => if field w 6 10 != 0 || field w 21 5 != 0 then .error .reserved else .ok (.bvSub (w.extractLsb' 16 5))
    | 2 => if field w 6 10 != 0 || field w 21 5 != 0 then .error .reserved else .ok (.bvMul (w.extractLsb' 16 5))
    | 3 => if field w 6 10 != 0 || field w 21 5 != 0 then .error .reserved else .ok (.bvNeg (w.extractLsb' 16 5))
    | 4 => if field w 6 5 != 0 || field w 21 5 != 0 then .error .reserved else .ok (.bvAddk (w.extractLsb' 16 5) (w.extractLsb' 11 5))
    | _ => .error .unassigned
  | 0x1e =>
    match field w 0 6 with
    | 0 => if field w 6 10 != 0 || field w 21 5 != 0 then .error .reserved else .ok (.bvAnd (w.extractLsb' 16 5))
    | 1 => if field w 6 10 != 0 || field w 21 5 != 0 then .error .reserved else .ok (.bvOr (w.extractLsb' 16 5))
    | 2 => if field w 6 10 != 0 || field w 21 5 != 0 then .error .reserved else .ok (.bvXor (w.extractLsb' 16 5))
    | 3 => if field w 6 10 != 0 || field w 21 5 != 0 then .error .reserved else .ok (.bvNot (w.extractLsb' 16 5))
    | 4 => if field w 6 10 != 0 || field w 21 5 != 0 then .error .reserved else .ok (.bvCpy (w.extractLsb' 16 5))
    | 5 => if field w 6 5 != 0 || field w 21 5 != 0 then .error .reserved else .ok (.bvSet (w.extractLsb' 16 5) (w.extractLsb' 11 5))
    | 6 => if field w 6 5 != 0 || field w 21 5 != 0 then .error .reserved else .ok (.bvShl (w.extractLsb' 16 5) (w.extractLsb' 11 5))
    | 7 => if field w 6 5 != 0 || field w 21 5 != 0 then .error .reserved else .ok (.bvShr (w.extractLsb' 16 5) (w.extractLsb' 11 5))
    | _ => .error .unassigned
  | 0x1f =>
    match field w 0 6 with
    | 0 => if field w 6 10 != 0 || field w 21 5 != 0 then .error .reserved else .ok (.bvCmpeq (w.extractLsb' 16 5))
    | 1 => if field w 6 10 != 0 || field w 21 5 != 0 then .error .reserved else .ok (.bvCmplt (w.extractLsb' 16 5))
    | 2 => if field w 6 10 != 0 || field w 21 5 != 0 then .error .reserved else .ok (.bvCmpltn (w.extractLsb' 16 5))
    | 3 => if field w 6 10 != 0 || field w 21 5 != 0 then .error .reserved else .ok (.bvSel (w.extractLsb' 16 5))
    | 4 => if field w 6 10 != 0 || field w 21 5 != 0 then .error .reserved else .ok (.bvPld (w.extractLsb' 16 5))
    | 5 => if field w 6 10 != 0 || field w 21 5 != 0 then .error .reserved else .ok (.bvPst (w.extractLsb' 16 5))
    | _ => .error .unassigned
  | 0x20 =>
    match field w 0 6 with
    | 0 => if field w 6 5 != 0 || field w 21 5 != 0 then .error .reserved else .ok (.mtx (w.extractLsb' 16 5) (w.extractLsb' 11 5))
    | 1 => if field w 6 10 != 0 || field w 21 5 != 0 then .error .reserved else .ok (.mclr (w.extractLsb' 16 5))
    | 2 => if field w 6 5 != 0 || field w 21 5 != 0 then .error .reserved else .ok (.mdrain (w.extractLsb' 16 5) (w.extractLsb' 11 5))
    | _ => .error .unassigned
  | 0x21 =>
    match field w 0 6 with
    | 0 => if field w 6 10 != 0 then .error .reserved else .ok (.klaunch (w.extractLsb' 21 5) (w.extractLsb' 16 5))
    | 1 => if field w 6 10 != 0 then .error .reserved else .ok (.bdsub (w.extractLsb' 21 5) (w.extractLsb' 16 5))
    | _ => .error .unassigned
  | 0x22 =>
    match field w 0 6 with
    | 0 => if field w 6 15 != 0 then .error .reserved else .ok (.vbeg (w.extractLsb' 21 5))
    | 1 => if field w 6 15 != 0 then .error .reserved else .ok (.vcom (w.extractLsb' 21 5))
    | _ => .error .unassigned
  | _ => .error .unassigned

/-- Decodes a scalar word (R110 to R112). -/
def decodeScalar (w : BitVec 32) : Except Ill Instr :=
  match rawScalar w with
  | .error e => .error e
  | .ok i =>
    match i.illegal with
    | some e => .error e
    | none => .ok i

/-! ### Lane words -/

/-- The fields of a lane word below OPC and FN (R113). -/
def laneFields (w : BitVec 96) : LaneF :=
  { ty := Ty.ofCode (field w 78 4), gp := w.extractLsb' 75 3, gn := w.getLsbD 74, nwb := w.getLsbD 73,
    lt := w.extractLsb' 71 2, dst := w.extractLsb' 63 8, sa := w.extractLsb' 55 8, sb := w.extractLsb' 47 8,
    sc := w.extractLsb' 39 8, md := w.extractLsb' 32 7, imm := w.extractLsb' 0 32 }

/-- Decodes a lane word (R113 to R118). -/
def decodeLane (w : BitVec 96) : Except Ill Instr :=
  match LaneOp.ofCode (field w 88 8) (field w 82 6) with
  | none => .error .unassigned
  | some op =>
    match op.illegal (laneFields w) with
    | some e => .error e
    | none => .ok (op.instr (laneFields w))

/-! ### Stack-core words -/

/-- The stack instruction of a word by its OP, unused fields checked (R120, R339 to R349). -/
def rawStack (w : BitVec 64) : Except Ill Instr :=
  match field w 56 8 with
  | 0x01 =>
    if field w 32 9 != 0 || field w 0 32 != 0 then .error .reserved
    else .ok (.sadd (w.extractLsb' 51 5) (w.extractLsb' 46 5) (w.extractLsb' 41 5))
  | 0x02 =>
    if field w 32 9 != 0 || field w 0 32 != 0 then .error .reserved
    else .ok (.ssub (w.extractLsb' 51 5) (w.extractLsb' 46 5) (w.extractLsb' 41 5))
  | 0x03 =>
    if field w 32 9 != 0 || field w 0 32 != 0 then .error .reserved
    else .ok (.sand (w.extractLsb' 51 5) (w.extractLsb' 46 5) (w.extractLsb' 41 5))
  | 0x04 =>
    if field w 32 9 != 0 || field w 0 32 != 0 then .error .reserved
    else .ok (.sor (w.extractLsb' 51 5) (w.extractLsb' 46 5) (w.extractLsb' 41 5))
  | 0x05 =>
    if field w 32 9 != 0 || field w 0 32 != 0 then .error .reserved
    else .ok (.sxor (w.extractLsb' 51 5) (w.extractLsb' 46 5) (w.extractLsb' 41 5))
  | 0x06 =>
    if field w 32 9 != 0 || field w 0 32 != 0 then .error .reserved
    else .ok (.sshl (w.extractLsb' 51 5) (w.extractLsb' 46 5) (w.extractLsb' 41 5))
  | 0x07 =>
    if field w 32 9 != 0 || field w 0 32 != 0 then .error .reserved
    else .ok (.sshr (w.extractLsb' 51 5) (w.extractLsb' 46 5) (w.extractLsb' 41 5))
  | 0x08 =>
    if field w 32 9 != 0 || field w 0 32 != 0 then .error .reserved
    else .ok (.ssra (w.extractLsb' 51 5) (w.extractLsb' 46 5) (w.extractLsb' 41 5))
  | 0x09 =>
    if field w 32 9 != 0 || field w 0 32 != 0 then .error .reserved
    else .ok (.smul (w.extractLsb' 51 5) (w.extractLsb' 46 5) (w.extractLsb' 41 5))
  | 0x0a =>
    if field w 32 9 != 0 || field w 0 32 != 0 then .error .reserved
    else .ok (.sslt (w.extractLsb' 51 5) (w.extractLsb' 46 5) (w.extractLsb' 41 5))
  | 0x0b =>
    if field w 32 9 != 0 || field w 0 32 != 0 then .error .reserved
    else .ok (.ssltn (w.extractLsb' 51 5) (w.extractLsb' 46 5) (w.extractLsb' 41 5))
  | 0x0c =>
    if field w 41 5 != 0 || field w 32 9 != 0 then .error .reserved
    else .ok (.saddi (w.extractLsb' 51 5) (w.extractLsb' 46 5) (w.extractLsb' 0 32))
  | 0x0d =>
    if field w 46 5 != 0 || field w 41 5 != 0 || field w 32 9 != 0 then .error .reserved
    else .ok (.sli (w.extractLsb' 51 5) (w.extractLsb' 0 32))
  | 0x0e =>
    if field w 46 5 != 0 || field w 41 5 != 0 || field w 32 9 != 0 then .error .reserved
    else .ok (.slhi (w.extractLsb' 51 5) (w.extractLsb' 0 32))
  | 0x10 =>
    if field w 41 5 != 0 || field w 36 5 != 0 then .error .reserved
    else .ok (.sld (w.extractLsb' 51 5) (w.extractLsb' 46 5) (w.extractLsb' 32 3) (w.getLsbD 35) (w.extractLsb' 0 32))
  | 0x11 =>
    if field w 41 5 != 0 || field w 36 5 != 0 || field w 34 1 != 0 then .error .reserved
    else .ok (.sst (w.extractLsb' 51 5) (w.extractLsb' 46 5) (w.extractLsb' 32 2) (w.getLsbD 35) (w.extractLsb' 0 32))
  | 0x18 =>
    if field w 51 5 != 0 || field w 32 9 != 0 then .error .reserved
    else .ok (.sbeq (w.extractLsb' 46 5) (w.extractLsb' 41 5) (w.extractLsb' 0 32))
  | 0x19 =>
    if field w 51 5 != 0 || field w 32 9 != 0 then .error .reserved
    else .ok (.sbne (w.extractLsb' 46 5) (w.extractLsb' 41 5) (w.extractLsb' 0 32))
  | 0x1a =>
    if field w 51 5 != 0 || field w 32 9 != 0 then .error .reserved
    else .ok (.sblt (w.extractLsb' 46 5) (w.extractLsb' 41 5) (w.extractLsb' 0 32))
  | 0x1b =>
    if field w 51 5 != 0 || field w 32 9 != 0 then .error .reserved
    else .ok (.sbge (w.extractLsb' 46 5) (w.extractLsb' 41 5) (w.extractLsb' 0 32))
  | 0x1c =>
    if field w 46 5 != 0 || field w 41 5 != 0 || field w 32 9 != 0 then .error .reserved
    else .ok (.sjal (w.extractLsb' 51 5) (w.extractLsb' 0 32))
  | 0x1d =>
    if field w 41 5 != 0 || field w 32 9 != 0 then .error .reserved
    else .ok (.sjr (w.extractLsb' 51 5) (w.extractLsb' 46 5) (w.extractLsb' 0 32))
  | 0x20 =>
    if field w 55 1 != 0 || field w 41 5 != 0 || field w 32 3 != 0 || field w 36 5 != 0 then .error .reserved
    else .ok (.vld (w.extractLsb' 51 4) (w.extractLsb' 46 5) (w.getLsbD 35) (w.extractLsb' 0 32))
  | 0x21 =>
    if field w 55 1 != 0 || field w 41 5 != 0 || field w 32 3 != 0 || field w 36 5 != 0 then .error .reserved
    else .ok (.vst (w.extractLsb' 51 4) (w.extractLsb' 46 5) (w.getLsbD 35) (w.extractLsb' 0 32))
  | 0x22 =>
    if field w 55 1 != 0 || field w 32 3 != 0 || field w 36 5 != 0 then .error .reserved
    else .ok (.vlds (w.extractLsb' 51 4) (w.extractLsb' 46 5) (w.extractLsb' 41 5) (w.getLsbD 35) (w.extractLsb' 0 32))
  | 0x23 =>
    if field w 55 1 != 0 || field w 32 3 != 0 || field w 36 5 != 0 then .error .reserved
    else .ok (.vsts (w.extractLsb' 51 4) (w.extractLsb' 46 5) (w.extractLsb' 41 5) (w.getLsbD 35) (w.extractLsb' 0 32))
  | 0x24 =>
    if field w 55 1 != 0 || field w 41 5 != 0 || field w 32 9 != 0 || field w 0 32 != 0 then .error .reserved
    else .ok (.vsplat (w.extractLsb' 51 4) (w.extractLsb' 46 5))
  | 0x25 =>
    if field w 55 1 != 0 || field w 50 1 != 0 || field w 45 1 != 0 || field w 37 4 != 0 || field w 0 32 != 0 then .error .reserved
    else .ok (.vadd (w.extractLsb' 51 4) (w.extractLsb' 46 4) (w.extractLsb' 41 4) (w.getLsbD 32) (w.extractLsb' 33 3) (w.getLsbD 36))
  | 0x26 =>
    if field w 55 1 != 0 || field w 50 1 != 0 || field w 45 1 != 0 || field w 37 4 != 0 || field w 0 32 != 0 then .error .reserved
    else .ok (.vsub (w.extractLsb' 51 4) (w.extractLsb' 46 4) (w.extractLsb' 41 4) (w.getLsbD 32) (w.extractLsb' 33 3) (w.getLsbD 36))
  | 0x27 =>
    if field w 55 1 != 0 || field w 50 1 != 0 || field w 45 1 != 0 || field w 37 4 != 0 || field w 0 32 != 0 then .error .reserved
    else .ok (.vmul (w.extractLsb' 51 4) (w.extractLsb' 46 4) (w.extractLsb' 41 4) (w.getLsbD 32) (w.extractLsb' 33 3) (w.getLsbD 36))
  | 0x28 =>
    if field w 55 1 != 0 || field w 50 1 != 0 || field w 45 1 != 0 || field w 37 4 != 0 || field w 32 1 != 0 || field w 0 32 != 0 then .error .reserved
    else .ok (.vfma (w.extractLsb' 51 4) (w.extractLsb' 46 4) (w.extractLsb' 41 4) (w.extractLsb' 33 3) (w.getLsbD 36))
  | 0x29 =>
    if field w 55 1 != 0 || field w 50 1 != 0 || field w 45 1 != 0 || field w 37 4 != 0 || field w 33 3 != 0 || field w 0 32 != 0 then .error .reserved
    else .ok (.vmin (w.extractLsb' 51 4) (w.extractLsb' 46 4) (w.extractLsb' 41 4) (w.getLsbD 32) (w.getLsbD 36))
  | 0x2a =>
    if field w 55 1 != 0 || field w 50 1 != 0 || field w 45 1 != 0 || field w 37 4 != 0 || field w 33 3 != 0 || field w 0 32 != 0 then .error .reserved
    else .ok (.vmax (w.extractLsb' 51 4) (w.extractLsb' 46 4) (w.extractLsb' 41 4) (w.getLsbD 32) (w.getLsbD 36))
  | 0x2b =>
    if field w 55 1 != 0 || field w 50 1 != 0 || field w 41 5 != 0 || field w 40 1 != 0 || field w 0 32 != 0 then .error .reserved
    else .ok (.vcvt (w.extractLsb' 51 4) (w.extractLsb' 46 4) (w.extractLsb' 32 4) (w.extractLsb' 36 3) (w.getLsbD 39))
  | 0x2c =>
    if field w 55 1 != 0 || field w 50 1 != 0 || field w 45 1 != 0 || field w 0 32 != 0 then .error .reserved
    else
      match field w 32 9 with
      | 0 => if field w 41 5 != 0 then .error .reserved
             else .ok (.vbaccF32 (w.extractLsb' 51 4) (w.extractLsb' 46 4))
      | 1 => .ok (.vbaccMulF32 (w.extractLsb' 51 4) (w.extractLsb' 46 4) (w.extractLsb' 41 4))
      | 2 => .ok (.vbaccMulBf16 (w.extractLsb' 51 4) (w.extractLsb' 46 4) (w.extractLsb' 41 4))
      | _ => .error .code
  | 0x2d =>
    if field w 55 1 != 0 || field w 50 1 != 0 || field w 41 5 != 0 || field w 32 9 != 0 || field w 0 32 != 0 then .error .reserved
    else .ok (.vbrd (w.extractLsb' 51 4) (w.extractLsb' 46 4))
  | 0x2e =>
    if field w 55 1 != 0 || field w 46 5 != 0 || field w 41 5 != 0 || field w 32 9 != 0 || field w 0 32 != 0 then .error .reserved
    else .ok (.vbclr (w.extractLsb' 51 4))
  | 0x2f =>
    if field w 50 1 != 0 || field w 41 5 != 0 || field w 32 9 != 0 || field w 0 32 != 0 then .error .reserved
    else .ok (.vhsum (w.extractLsb' 51 5) (w.extractLsb' 46 4))
  | 0x40 =>
    if field w 51 5 != 0 || field w 45 1 != 0 || field w 32 9 != 0 || field w 0 32 != 0 then .error .reserved
    else .ok (.msend (w.extractLsb' 46 5) (w.extractLsb' 41 4))
  | 0x41 =>
    if field w 55 1 != 0 || field w 41 5 != 0 || field w 32 9 != 0 || field w 0 32 != 0 then .error .reserved
    else .ok (.mrecv (w.extractLsb' 51 4) (w.extractLsb' 46 5))
  | 0x42 =>
    if field w 41 5 != 0 || field w 32 9 != 0 || field w 0 32 != 0 then .error .reserved
    else .ok (.mwait (w.extractLsb' 51 5) (w.extractLsb' 46 5))
  | 0x43 =>
    if field w 41 5 != 0 || field w 32 9 != 0 || field w 0 32 != 0 then .error .reserved
    else .ok (.mpoll (w.extractLsb' 51 5) (w.extractLsb' 46 5))
  | 0x48 =>
    if field w 51 5 != 0 || field w 46 5 != 0 || field w 41 5 != 0 || field w 32 9 != 0 || field w 0 32 != 0 then .error .reserved
    else .ok .sfence
  | 0x49 =>
    if field w 51 5 != 0 || field w 33 8 != 0 || field w 0 32 != 0 then .error .reserved
    else .ok (.sflag (w.extractLsb' 46 5) (w.extractLsb' 41 5) (w.getLsbD 32))
  | 0x4a =>
    if field w 51 5 != 0 || field w 46 5 != 0 || field w 41 5 != 0 || field w 32 9 != 0 || field w 0 32 != 0 then .error .reserved
    else .ok .shalt
  | 0x4b =>
    if field w 51 5 != 0 || field w 46 5 != 0 || field w 41 5 != 0 || field w 32 9 != 0 || field w 0 32 != 0 then .error .reserved
    else .ok .syield
  | 0x4c =>
    if field w 46 5 != 0 || field w 41 5 != 0 || field w 32 9 != 0 || field w 12 20 != 0 then .error .reserved
    else .ok (.scsrr (w.extractLsb' 51 5) (w.extractLsb' 0 12))
  | 0x4d =>
    if field w 51 5 != 0 || field w 41 5 != 0 || field w 32 9 != 0 || field w 12 20 != 0 then .error .reserved
    else .ok (.scsrw (w.extractLsb' 0 12) (w.extractLsb' 46 5))
  | _ => .error .unassigned

/-- Decodes a stack-core word (R120, R121). -/
def decodeStack (w : BitVec 64) : Except Ill Instr :=
  match rawStack w with
  | .error e => .error e
  | .ok i =>
    match i.illegal with
    | some e => .error e
    | none => .ok i

/-! ### Bytes -/

/-- The little-endian number in a list of bytes (R5). -/
def leNat : List Byte → Nat
  | [] => 0
  | b :: rest => b.toNat + 256 * leNat rest

/-- n bytes of a number, lowest first (R5). -/
def leBytes : Nat → Nat → List Byte
  | 0, _ => []
  | n + 1, x => BitVec.ofNat 8 x :: leBytes n (x / 256)

/-- Bytes in a word of a stream (R109). -/
def Stream.wordBytes : Stream → Nat
  | .scalar => 4
  | .lane => 12
  | .stack => 8

/-- Decodes the instruction at the head of a list of bytes as a stream's word (R109). -/
def decode (st : Stream) (bytes : List Byte) : Except Ill Instr :=
  if bytes.length < st.wordBytes then .error .short
  else
    let n := leNat (bytes.take st.wordBytes)
    match st with
    | .scalar => decodeScalar (BitVec.ofNat 32 n)
    | .lane => decodeLane (BitVec.ofNat 96 n)
    | .stack => decodeStack (BitVec.ofNat 64 n)

/-- The stream whose words have a width in bits (R109). -/
def streamOfBits : Nat → Option Stream
  | 32 => some .scalar
  | 96 => some .lane
  | 64 => some .stack
  | _ => none

/-- What the decoder reads from an instruction whose bits are w, nbits of them. -/
def decodeTableWord (nbits w : Nat) : Option Instr :=
  match streamOfBits nbits with
  | none => none
  | some st =>
    match decode st (leBytes st.wordBytes w) with
    | .ok i => some i
    | .error _ => none

/-! ### The encoder -/

/-- The word of a scalar instruction (R110, R111); 0 for an instruction of another stream. -/
def encodeScalar : Instr → BitVec 32
  | .kadd d a b => 1#6 ++ d ++ a ++ b ++ 0#11
  | .ksub d a b => 1#6 ++ d ++ a ++ b ++ 1#11
  | .kand d a b => 1#6 ++ d ++ a ++ b ++ 2#11
  | .kor d a b => 1#6 ++ d ++ a ++ b ++ 3#11
  | .kxor d a b => 1#6 ++ d ++ a ++ b ++ 4#11
  | .kshl d a b => 1#6 ++ d ++ a ++ b ++ 5#11
  | .kshr d a b => 1#6 ++ d ++ a ++ b ++ 6#11
  | .ksra d a b => 1#6 ++ d ++ a ++ b ++ 7#11
  | .kmul d a b => 1#6 ++ d ++ a ++ b ++ 8#11
  | .kmulh d a b => 1#6 ++ d ++ a ++ b ++ 9#11
  | .kmulhn d a b => 1#6 ++ d ++ a ++ b ++ 10#11
  | .kdiv d a b => 1#6 ++ d ++ a ++ b ++ 11#11
  | .kdivn d a b => 1#6 ++ d ++ a ++ b ++ 12#11
  | .krem d a b => 1#6 ++ d ++ a ++ b ++ 13#11
  | .kremn d a b => 1#6 ++ d ++ a ++ b ++ 14#11
  | .kmin d a b => 1#6 ++ d ++ a ++ b ++ 15#11
  | .kmax d a b => 1#6 ++ d ++ a ++ b ++ 16#11
  | .kminn d a b => 1#6 ++ d ++ a ++ b ++ 17#11
  | .kmaxn d a b => 1#6 ++ d ++ a ++ b ++ 18#11
  | .kslt d a b => 1#6 ++ d ++ a ++ b ++ 19#11
  | .ksltn d a b => 1#6 ++ d ++ a ++ b ++ 20#11
  | .kseq d a b => 1#6 ++ d ++ a ++ b ++ 21#11
  | .kclz d a => 1#6 ++ d ++ a ++ 22#16
  | .kpopc d a => 1#6 ++ d ++ a ++ 23#16
  | .kaddi d a i => 2#6 ++ d ++ a ++ i
  | .kandi d a i => 3#6 ++ d ++ a ++ i
  | .kori d a i => 4#6 ++ d ++ a ++ i
  | .kxori d a i => 5#6 ++ d ++ a ++ i
  | .kshli d a i => 6#6 ++ d ++ a ++ 0#10 ++ i
  | .kshri d a i => 7#6 ++ d ++ a ++ 0#10 ++ i
  | .ksrai d a i => 8#6 ++ d ++ a ++ 0#10 ++ i
  | .kslti d a i => 9#6 ++ d ++ a ++ i
  | .ksltni d a i => 10#6 ++ d ++ a ++ i
  | .klui d i => 11#6 ++ d ++ 0#5 ++ i
  | .kins d a w p => 12#6 ++ d ++ a ++ 0#4 ++ w ++ p
  | .kld d a s m o => 13#6 ++ d ++ a ++ s ++ m ++ o
  | .kst d a s w o => 14#6 ++ d ++ a ++ s ++ 0#1 ++ w ++ o
  | .kbr c a i => 15#6 ++ c ++ a ++ i
  | .kjal i => 16#6 ++ i
  | .kjalr d a i => 17#6 ++ d ++ a ++ i
  | .kcall s i => 18#6 ++ s ++ i
  | .kret s => 19#6 ++ s ++ 0#22
  | .lbk a i => 640#11 ++ a ++ i
  | .lsync => 1409286144#32
  | .lget d a => 21#6 ++ d ++ a ++ 1#16
  | .lslots d => 21#6 ++ d ++ 2#21
  | .knop => 1476395008#32
  | .csrr d n => 22#6 ++ d ++ 0#5 ++ n ++ 1#6
  | .csrw a n => 704#11 ++ a ++ n ++ 2#6
  | .ktrap a => 704#11 ++ a ++ 3#16
  | .keret => 1476395012#32
  | .kend => 1476395013#32
  | .sgld a => 704#11 ++ a ++ 6#16
  | .kbrk => 1476395015#32
  | .ktlbi a b => 704#11 ++ a ++ b ++ 8#11
  | .kyield => 1476395017#32
  | .fence s b => 23#6 ++ s ++ 0#4 ++ b ++ 0#16
  | .fenceAcq s b => 23#6 ++ s ++ 0#4 ++ b ++ 1#16
  | .fenceRel s b => 23#6 ++ s ++ 0#4 ++ b ++ 2#16
  | .fenceSc s b => 23#6 ++ s ++ 0#4 ++ b ++ 3#16
  | .fencex s f t => 23#6 ++ s ++ f ++ t ++ 4#11
  | .pwait p a => 24#6 ++ p ++ a ++ 0#16
  | .cbwait a => 768#11 ++ a ++ 1#16
  | .cseal d => 25#6 ++ d ++ 0#21
  | .srec s a => 25#6 ++ s ++ a ++ 1#16
  | .cpm a => 800#11 ++ a ++ 2#16
  | .barinit a b => 832#11 ++ a ++ b ++ 0#11
  | .barr d a => 26#6 ++ d ++ a ++ 1#16
  | .barw a b => 832#11 ++ a ++ b ++ 2#11
  | .barrw d a => 26#6 ++ d ++ a ++ 3#16
  | .barx a b => 832#11 ++ a ++ b ++ 4#11
  | .rgrow d a => 27#6 ++ d ++ a ++ 0#16
  | .rshrk d a => 27#6 ++ d ++ a ++ 1#16
  | .racq d => 27#6 ++ d ++ 2#21
  | .bmodeStor a => 896#11 ++ a ++ 0#16
  | .bmodeComp a => 896#11 ++ a ++ 2048#16
  | .bstepOff a => 896#11 ++ a ++ 1#16
  | .bstepOn a => 896#11 ++ a ++ 2049#16
  | .bstepStep a => 896#11 ++ a ++ 4097#16
  | .bquery d a => 28#6 ++ d ++ a ++ 2#16
  | .bsync a => 896#11 ++ a ++ 3#16
  | .bvAdd a => 928#11 ++ a ++ 0#16
  | .bvSub a => 928#11 ++ a ++ 1#16
  | .bvMul a => 928#11 ++ a ++ 2#16
  | .bvNeg a => 928#11 ++ a ++ 3#16
  | .bvAddk a b => 928#11 ++ a ++ b ++ 4#11
  | .bvAnd a => 960#11 ++ a ++ 0#16
  | .bvOr a => 960#11 ++ a ++ 1#16
  | .bvXor a => 960#11 ++ a ++ 2#16
  | .bvNot a => 960#11 ++ a ++ 3#16
  | .bvCpy a => 960#11 ++ a ++ 4#16
  | .bvSet a b => 960#11 ++ a ++ b ++ 5#11
  | .bvShl a b => 960#11 ++ a ++ b ++ 6#11
  | .bvShr a b => 960#11 ++ a ++ b ++ 7#11
  | .bvCmpeq a => 992#11 ++ a ++ 0#16
  | .bvCmplt a => 992#11 ++ a ++ 1#16
  | .bvCmpltn a => 992#11 ++ a ++ 2#16
  | .bvSel a => 992#11 ++ a ++ 3#16
  | .bvPld a => 992#11 ++ a ++ 4#16
  | .bvPst a => 992#11 ++ a ++ 5#16
  | .mtx a b => 1024#11 ++ a ++ b ++ 0#11
  | .mclr a => 1024#11 ++ a ++ 1#16
  | .mdrain a b => 1024#11 ++ a ++ b ++ 2#11
  | .klaunch d a => 33#6 ++ d ++ a ++ 0#16
  | .bdsub d a => 33#6 ++ d ++ a ++ 1#16
  | .vbeg d => 34#6 ++ d ++ 0#21
  | .vcom d => 34#6 ++ d ++ 1#21
  | _ => 0

/-- The word of a lane member and its fields (R113). -/
def encodeLane (op : LaneOp) (f : LaneF) : BitVec 96 :=
  BitVec.ofNat 8 op.code.1 ++ BitVec.ofNat 6 op.code.2 ++ BitVec.ofNat 4 f.ty.code ++ f.gp ++ BitVec.ofBool f.gn ++
    BitVec.ofBool f.nwb ++ f.lt ++ f.dst ++ f.sa ++ f.sb ++ f.sc ++ f.md ++ f.imm

/-- A stack-core word from its fields (R120). -/
def stackWord (op : BitVec 8) (d a b : BitVec 5) (md : BitVec 9) (imm : Half) : BitVec 64 :=
  op ++ d ++ a ++ b ++ md ++ imm

def bit (b : Bool) : BitVec 1 := BitVec.ofBool b

def wreg (r : WReg) : BitVec 5 := 0#1 ++ r

/-- The word of a stack-core instruction (R120, R339 to R349); 0 for an instruction of another stream. -/
def encodeStack : Instr → BitVec 64
  | .sadd d a b => stackWord 0x01 d a b 0 0
  | .ssub d a b => stackWord 0x02 d a b 0 0
  | .sand d a b => stackWord 0x03 d a b 0 0
  | .sor d a b => stackWord 0x04 d a b 0 0
  | .sxor d a b => stackWord 0x05 d a b 0 0
  | .sshl d a b => stackWord 0x06 d a b 0 0
  | .sshr d a b => stackWord 0x07 d a b 0 0
  | .ssra d a b => stackWord 0x08 d a b 0 0
  | .smul d a b => stackWord 0x09 d a b 0 0
  | .sslt d a b => stackWord 0x0a d a b 0 0
  | .ssltn d a b => stackWord 0x0b d a b 0 0
  | .saddi d a imm => stackWord 0x0c d a 0 0 imm
  | .sli d imm => stackWord 0x0d d 0 0 0 imm
  | .slhi d imm => stackWord 0x0e d 0 0 0 imm
  | .sld d a w ls imm => stackWord 0x10 d a 0 (0#5 ++ bit ls ++ w) imm
  | .sst d a w ls imm => stackWord 0x11 d a 0 (0#5 ++ bit ls ++ 0#1 ++ w) imm
  | .sbeq a b imm => stackWord 0x18 0 a b 0 imm
  | .sbne a b imm => stackWord 0x19 0 a b 0 imm
  | .sblt a b imm => stackWord 0x1a 0 a b 0 imm
  | .sbge a b imm => stackWord 0x1b 0 a b 0 imm
  | .sjal d imm => stackWord 0x1c d 0 0 0 imm
  | .sjr d a imm => stackWord 0x1d d a 0 0 imm
  | .vld d a ls imm => stackWord 0x20 (wreg d) a 0 (0#5 ++ bit ls ++ 0#3) imm
  | .vst d a ls imm => stackWord 0x21 (wreg d) a 0 (0#5 ++ bit ls ++ 0#3) imm
  | .vlds d a b ls imm => stackWord 0x22 (wreg d) a b (0#5 ++ bit ls ++ 0#3) imm
  | .vsts d a b ls imm => stackWord 0x23 (wreg d) a b (0#5 ++ bit ls ++ 0#3) imm
  | .vsplat d a => stackWord 0x24 (wreg d) a 0 0 0
  | .vadd d a b s rnd ftz => stackWord 0x25 (wreg d) (wreg a) (wreg b) (0#4 ++ bit ftz ++ rnd ++ bit s) 0
  | .vsub d a b s rnd ftz => stackWord 0x26 (wreg d) (wreg a) (wreg b) (0#4 ++ bit ftz ++ rnd ++ bit s) 0
  | .vmul d a b s rnd ftz => stackWord 0x27 (wreg d) (wreg a) (wreg b) (0#4 ++ bit ftz ++ rnd ++ bit s) 0
  | .vfma d a b rnd ftz => stackWord 0x28 (wreg d) (wreg a) (wreg b) (0#4 ++ bit ftz ++ rnd ++ 0#1) 0
  | .vmin d a b s ftz => stackWord 0x29 (wreg d) (wreg a) (wreg b) (0#4 ++ bit ftz ++ 0#3 ++ bit s) 0
  | .vmax d a b s ftz => stackWord 0x2a (wreg d) (wreg a) (wreg b) (0#4 ++ bit ftz ++ 0#3 ++ bit s) 0
  | .vcvt d a c rnd ftz => stackWord 0x2b (wreg d) (wreg a) 0 (0#1 ++ bit ftz ++ rnd ++ c) 0
  | .vbaccF32 d a => stackWord 0x2c (wreg d) (wreg a) 0 0 0
  | .vbaccMulF32 d a b => stackWord 0x2c (wreg d) (wreg a) (wreg b) 1 0
  | .vbaccMulBf16 d a b => stackWord 0x2c (wreg d) (wreg a) (wreg b) 2 0
  | .vbrd d a => stackWord 0x2d (wreg d) (wreg a) 0 0 0
  | .vbclr d => stackWord 0x2e (wreg d) 0 0 0 0
  | .vhsum d a => stackWord 0x2f d (wreg a) 0 0 0
  | .msend a b => stackWord 0x40 0 a (wreg b) 0 0
  | .mrecv d a => stackWord 0x41 (wreg d) a 0 0 0
  | .mwait d a => stackWord 0x42 d a 0 0 0
  | .mpoll d a => stackWord 0x43 d a 0 0 0
  | .sfence => stackWord 0x48 0 0 0 0 0
  | .sflag a b add => stackWord 0x49 0 a b (0#8 ++ bit add) 0
  | .shalt => stackWord 0x4a 0 0 0 0 0
  | .syield => stackWord 0x4b 0 0 0 0 0
  | .scsrr d n => stackWord 0x4c d 0 0 0 (0#20 ++ n)
  | .scsrw n a => stackWord 0x4d 0 a 0 0 (0#20 ++ n)
  | _ => 0

/-- The bytes of an instruction, in the order the hardware stores them (R5, R109); none for a device step. -/
def encode (i : Instr) : List Byte :=
  match i.stream? with
  | some .scalar => leBytes 4 (encodeScalar i).toNat
  | some .lane =>
    match i.lane? with
    | some (op, f) => leBytes 12 (encodeLane op f).toNat
    | none => []
  | some .stack => leBytes 8 (encodeStack i).toNat
  | none => []

end Sys2Proof
end

