-- ==== Sys2Proof/Config.lean ====
section
/-! DEFINITION. What the implementation fixes and the spec does not give: the free values of the model. Every one
is opaque, so no proof can learn a value of it. -/

namespace Sys2Proof.Config

/-- The device's own choice between two permitted outcomes, at its n-th such choice (R46, R47, R230).
DESIGN CHOICE (log 5): an unconstrained value. -/
opaque choice : Nat → Bool

/-- A value that the spec leaves open where the machine goes on: an unconstrained 64-bit value for each use.
DESIGN CHOICE (log 7). -/
opaque freeValue : Nat → BitVec 64

/-- The fixed functions of R149, by member (0 frcp, 1 frsq, 2 fexp2, 3 flog2, 4 fsin, 5 fcos), input bits and
FTZ/DAZ bit: which of the values that R149 permits is returned (an index into the model's list of them).
DESIGN CHOICE (log 9). -/
opaque approx : Nat → Word → Bool → Nat

/-- The save-area tag key drawn for a context at its n-th CREATE (R32). DESIGN CHOICE (log 8). -/
opaque tagKey : Nat → BitVec 128

/-- KMAC128 of a key and a message, with a 128-bit output (R364). DESIGN CHOICE (log 8). -/
opaque kmac128 : BitVec 128 → List Byte → BitVec 128

/-- SHA3-512 of a message (R403, R404). DESIGN CHOICE (log 8). -/
opaque sha3 : List Byte → BitVec 512

/-- Whether an ML-DSA-87 signature over a hash verifies against the fused public key (R403).
DESIGN CHOICE (log 8). -/
opaque signatureValid : BitVec 512 → List Byte → Bool

/-- The ML-DSA-87 signature made under the device key (R404). DESIGN CHOICE (log 8). -/
opaque sign : BitVec 512 → List Byte

/-- What a management client reads as the inventory (R406). DESIGN CHOICE (log 8): the spec gives no format. -/
opaque inventory : List Byte

/-- The 1,024 bytes of the first region table in the platform image of a verified bundle, from the bytes of its images
(R403). DESIGN CHOICE (log 8): the spec gives no image format. -/
opaque platformTable : List (List Byte) → List Byte

/-- The entry point of the host image of a verified bundle (R403). DESIGN CHOICE (log 8). -/
opaque hostEntry : List (List Byte) → Word

end Sys2Proof.Config
end

