-- ==== Sys2Proof/Machine/Approx.lean ====
section
/-! DEFINITION. The approximated functions of R149: the values that the bound permits, as a range of consecutive values
of the format, and the one that the device returns among them, which the spec leaves open (log 9). -/

namespace Sys2Proof.Machine

open Sys2Proof

/-- Fraction bits of the fixed-point enclosures below. -/
def prec : Nat := 300

/-- ⌊π × 2^400⌋. -/
def piScaled : Nat := 8112377246730971238862271351300894519161151600179265203591191037615230905373990498745523360926816815427566779727327576236

/-- ⌊ln 2 × 2^400⌋. -/
def ln2Scaled : Nat := 1789879222497203190815761498240779176894896805856420935579692301363062920687047601279850318367644315849030039181347319086

/-- Values of a format in order: −largest … −0, +0 … +infinity, as integers (E4M3 is not approximated). -/
def Fmt.rank (f : Fmt) (x : Nat) : Int :=
  let h := 2 ^ (f.ebits + f.fbits)
  if x / h % 2 == 1 then -1 - ((x % h : Nat) : Int) else ((x % h : Nat) : Int)

def Fmt.unrank (f : Fmt) (r : Int) : Nat :=
  if r < 0 then 2 ^ (f.ebits + f.fbits) + (-1 - r).toNat else r.toNat

/-- The range of ranks of the values of a format from lo × 2^e to hi × 2^e, lo at most hi. An infinity stands for the value
after the largest finite one. -/
def Fmt.between (f : Fmt) (lo hi e : Int) : Int × Int :=
  let up (x : Int) : Nat :=        -- the smallest value not below x
    f.roundExact 3 false (decide (x < 0)) x.natAbs e false
  let down (x : Int) : Nat :=      -- the largest value not above x
    if 0 < x && decide ((f.bias : Int) + 1 ≤ (Nat.log2 x.natAbs : Int) + e) then f.inf
    else f.roundExact 2 false (decide (x < 0)) x.natAbs e false
  (f.rank (if lo == 0 then 2 ^ (f.ebits + f.fbits) else up lo), f.rank (down hi))

/-- Exponent of the ulp of an exact result whose leading bit has exponent top (R149). -/
def Fmt.ulpExp (f : Fmt) (top : Int) : Int :=
  max (min top ((2 ^ f.ebits - 2 : Nat) - (f.bias : Int)) - f.fbits) f.qmin

/-- The values within k ulp of an exact result y of a sign, with lo × 2^e ≤ |y| < hi × 2^e. The enclosures below are narrow
enough that a power of two in one is above y. -/
def Fmt.within (f : Fmt) (k : Nat) (neg : Bool) (lo hi e : Int) : Int × Int :=
  let u := f.ulpExp ((Nat.log2 lo.natAbs : Int) + e)
  let q := min e u
  let sl := 2 ^ (e - q).toNat
  let du := (k : Int) * 2 ^ (u - q).toNat
  let r := f.between (lo * sl - du) (hi * sl + du - 1) q
  if neg then (-1 - r.2, -1 - r.1) else r

/-- The value returned among a range of ranks: a fixed function of the member, the input bits and the FTZ/DAZ bit
(R149, log 9). -/
def Fmt.choose (f : Fmt) (member x : Nat) (ftz : Bool) (r : Int × Int) : Nat :=
  let n := (r.2 - r.1 + 1).toNat
  f.unrank (if n == 0 then f.rank f.inf else r.1 + ((Config.approx member (BitVec.ofNat 64 x) ftz % n : Nat) : Int))

/-! ### Enclosures -/

/-- ⌊x × y ÷ 2^p⌋. -/
def mulFix (p : Nat) (x y : Int) : Int := x * y / (2 ^ p : Nat)

/-- Σ x^k ÷ k! from a term on, with n terms, in fixed point with p fraction bits. -/
def expTail (p : Nat) (x : Int) : Nat → Nat → Int → Int
  | 0, _, _ => 0
  | n + 1, k, t => t + expTail p x n (k + 1) (mulFix p t x / (k + 1 : Nat))

/-- Σ (−1)^k x^(2k) ÷ … of the sine (k odd) or cosine (k even) series: t is the current term, k its degree. -/
def trigTail (p : Nat) (x2 : Int) : Nat → Nat → Int → Int
  | 0, _, _ => 0
  | n + 1, k, t => t + trigTail p x2 n (k + 2) (-(mulFix p t x2 / ((k + 1) * (k + 2) : Nat)))

/-- Fraction bits of log2 of y (1 ≤ y < 2, in fixed point with p fraction bits), n of them, by repeated squaring. -/
def logBits (p : Nat) : Nat → Nat → Nat → Nat
  | 0, _, acc => acc
  | n + 1, y, acc =>
    let y2 := y * y / 2 ^ p
    if 2 ^ (p + 1) ≤ y2 then logBits p n (y2 / 2) (2 * acc + 1) else logBits p n y2 (2 * acc)

/-- Every enclosure below is v ± slack, in units of 2^−prec. -/
def slack : Int := 2 ^ 60

/-- m × 2^e in fixed point with p fraction bits, rounded down. -/
def toFix (p : Nat) (neg : Bool) (m : Nat) (e : Int) : Int :=
  let d := e + p
  let v : Nat := if 0 ≤ d then m * 2 ^ d.toNat else m / 2 ^ (-d).toNat
  if neg then -(v : Int) else v

/-! ### The functions -/

/-- frcp of R149. -/
def frcpBits (f : Fmt) (neg ftz : Bool) (a : Nat) : Nat :=
  let x := f.flush ftz (if neg then f.flipSign a else a)
  let r :=
    match f.value x with
    | .nan => f.nan
    | .inf s => f.signBit s
    | .fin s m e =>
      if m == 0 then f.signBit s + f.inf
      else if m == 2 ^ Nat.log2 m then f.roundExact 0 false s 1 (-e - Nat.log2 m) false
      else
        let k := 400 + Nat.log2 m
        let q : Int := (2 ^ k / m : Nat)
        -- 1 ÷ (m × 2^e) lies between q and q + 1, in units of 2^(−k − e)
        f.choose 0 x ftz (f.within 1 s q (q + 1) (-k - e))
  f.flush ftz r

/-- frsq of R149. -/
def frsqBits (f : Fmt) (neg ftz : Bool) (a : Nat) : Nat :=
  let x := f.flush ftz (if neg then f.flipSign a else a)
  let r :=
    match f.value x with
    | .nan => f.nan
    | .inf s => if s then f.nan else 0
    | .fin s m e =>
      if m == 0 then f.signBit s + f.inf
      else if s then f.nan
      else
        -- 1 ÷ √(m × 2^e) with e made even: √(2^(2k) ÷ m') × 2^(−k − e' ÷ 2)
        let m' := if e % 2 == 0 then m else 2 * m
        let e' := if e % 2 == 0 then e else e - 1
        let k := 300 + Nat.log2 m'
        let q : Int := (isqrt (2 ^ (2 * k) / m') : Nat)
        f.choose 1 x ftz (f.within 1 false q (q + 1) (-k - e' / 2))
  f.flush ftz r

/-- fexp2 of R149. -/
def fexp2Bits (neg ftz : Bool) (a : Nat) : Nat :=
  let f := Fmt.f32
  let x := f.flush ftz (if neg then f.flipSign a else a)
  let r :=
    match f.value x with
    | .nan => f.nan
    | .inf s => if s then 0 else f.inf
    | .fin s m e =>
      let v := toFix prec s m e
      let n := v / (2 ^ prec : Nat)         -- floor of x
      let fr := v % (2 ^ prec : Nat)
      if m == 0 || (m * 2 ^ (e + 149).toNat) % 2 ^ 149 == 0 && -149 ≤ n && n ≤ 127 then
        f.roundExact 0 false false 1 (if m == 0 then 0 else n) false
      else if 1000 < n then f.inf
      else if n < -1000 then f.choose 2 x ftz (f.between (-1) 2 f.qmin)
      else
        let t := mulFix prec fr ((ln2Scaled / 2 ^ (400 - prec) : Nat) : Int)
        let y := expTail prec t 80 0 (2 ^ prec : Nat)
        f.choose 2 x ftz (f.within 2 false (y - slack) (y + slack) (n - prec))
  f.flush ftz r

/-- flog2 of R149. -/
def flog2Bits (neg ftz : Bool) (a : Nat) : Nat :=
  let f := Fmt.f32
  let x := f.flush ftz (if neg then f.flipSign a else a)
  let r :=
    match f.value x with
    | .nan => f.nan
    | .inf s => if s then f.nan else f.inf
    | .fin s m e =>
      if m == 0 then f.signBit true + f.inf
      else if s then f.nan
      else
        let top : Int := (Nat.log2 m : Int) + e
        if m == 2 ^ Nat.log2 m then f.ofNum 0 false (Num.ofInt top)
        else
          let n := 260
          let fr : Int := (logBits prec n (m * 2 ^ (prec - Nat.log2 m)) 0 : Nat)
          -- log2 x in units of 2^−n, within 2^40 units
          let v := top * (2 ^ n : Nat) + fr
          f.choose 3 x ftz (f.within 2 (decide (v < 0)) (v.natAbs - 2 ^ 40) (v.natAbs + 2 ^ 40) (-n))
  f.flush ftz r

/-- The sine or cosine of m × 2^e (either sign) within ±slack, in units of 2^−prec. -/
def trigFix (cosine : Bool) (s : Bool) (m : Nat) (e : Int) : Int :=
  let p := 400
  let v := toFix p s m e
  let half : Int := (piScaled / 2 : Nat)
  let k := v / half                       -- quadrant
  let r := (v % half) / (2 ^ 100 : Nat)   -- remainder in units of 2^−prec, 0 ≤ r < π ÷ 2
  let quad := (k + (if cosine then 1 else 0)) % 4
  let r2 := mulFix prec r r
  let sin := trigTail prec r2 60 1 r
  let cos := trigTail prec r2 60 0 (2 ^ prec : Nat)
  if quad == 0 then sin else if quad == 1 then cos else if quad == 2 then -sin else -cos

/-- fsin and fcos of R149. -/
def trigBits (cosine neg ftz : Bool) (a : Nat) : Nat :=
  let f := Fmt.f32
  let x := f.flush ftz (if neg then f.flipSign a else a)
  let member := if cosine then 5 else 4
  let r :=
    match f.value x with
    | .nan => f.nan
    | .inf _ => f.nan
    | .fin s m e =>
      if m == 0 then (if cosine then 0x3F800000 else f.signBit s)
      else
        let y := trigFix cosine s m e
        let large := decide (2 ^ 16 * 2 ^ 149 < m * 2 ^ (e + 149).toNat)
        if large then
          let one : Int := (2 ^ prec : Nat)
          let d : Int := (2 ^ (prec - 22) : Nat)
          f.choose member x ftz (f.between (max (y - slack - d) (-one)) (min (y + slack + d) one) (-prec))
        else
          -- the sine is below its argument, and both are below 1
          let one : Int := (2 ^ prec : Nat)
          let top := if cosine then one else min one (toFix prec false m e)
          f.choose member x ftz (f.within 2 (decide (y < 0)) (y.natAbs - slack) (min (y.natAbs + slack) top) (-prec))
  f.flush ftz r

end Sys2Proof.Machine
end

