-- ==== Sys2Proof/Machine/State.lean ====
section
/-! DEFINITION. The state of one TLV-B8 package as plain data, and the state right after package reset.
Lists keyed by a number or a name stand for the package's many like units (cores, crews, gangs, contexts, tasks,
ports); a unit that is not listed is as reset leaves it. -/

namespace Sys2Proof.Machine

open Sys2Proof

/-! ### Memory -/

/-- Bytes by address in canonical form: addresses strictly rising, no entry equal to what an unlisted address
reads as (log 3: zero). -/
abbrev Memory := List Host.Cell

/-- A 128-byte cache line (R228, R231): its line number (physical address div 128), its bytes, whether it is
dirty, the 32-byte sectors of it (0 to 3) that are poisoned (R375), and for an L1 line those whose check value did
not match when it was filled (R377). -/
structure Line where
  num : Nat
  data : List Byte
  dirty : Bool
  poison : List Nat
  mism : List Nat
deriving DecidableEq, Repr

/-- A word held in an instruction cache (R230): `len` bytes of code from va, 4 of a scalar word, 12 of a lane word. -/
structure CodeWord where
  asid : Nat
  va : Nat
  len : Nat
  bits : Nat
deriving DecidableEq, Repr

/-- A translation cached by one of the 17 agents (R47): agent 0 to 7 compute dies, 8 to 15 base dies, 16 the
harbour die. `bad` holds the level of an entry that R45 refuses, and then the entry stands for that refusal. -/
structure TlbEntry where
  agent : Nat
  asid : Nat
  va : Nat       -- first virtual address of the page
  size : Nat     -- bytes in the page
  pa : Nat       -- first physical address of the page
  r : Bool
  w : Bool
  x : Bool
  mt : Nat
  bad : Option Nat
deriving DecidableEq, Repr

/-- An invalidation in progress (R48 to R50): which agents have acknowledged, and who issued it. `port` is true for
one of CPTLBI; `gang` is the gang of a ktlbi that waits for it; `failed` holds the agents that had not acknowledged
when its time ran out (R49). -/
structure Tlbi where
  id : Nat
  asid : Nat
  all : Bool
  va : Nat
  acked : List Nat
  start : Nat
  port : Bool
  gang : Option GangRef
  failed : Option (BitVec 17)
deriving DecidableEq, Repr

/-! ### Segments, traps and levels -/

structure Seg where
  base : Word
  limit : Word
deriving DecidableEq, Repr

/-- The five segment registers of a gang (R42). -/
structure Segs where
  g : Seg
  s : Seg
  p : Seg
  c : Seg
  l : Seg
deriving DecidableEq, Repr

/-- Privilege level of a gang (R29, R30). -/
inductive Level where
  | u | k
deriving DecidableEq, Repr

/-- The trap causes (R352). -/
inductive Cause where
  | ill | opnd | latch | seg | xlat | align | prot | priv | spill | fill | deadlock | bankmode | fmt | mcast
  | version | ue | sdc | divstack | brk
deriving DecidableEq, Repr

/-- Gang states (R87). `absent`: the record holds no gang. -/
inductive GangStatus where
  | absent | run | halted | ended
deriving DecidableEq, Repr

/-- The engine paths with in-flight counters (R238). -/
inductive Path where
  | cp | mx | xf | bd | fx
deriving DecidableEq, Repr

/-- How a barrier is found: the crew's own, or those of its kernel at a level and place (R319). -/
inductive BarAt where
  | crew (id num : Nat)
  | kernel (serial level dom num : Nat)
deriving DecidableEq, Repr

/-- What a scalar instruction in WAIT awaits (R87, R127). -/
inductive Wait where
  | laneIdle
  | laneSpace
  | stores
  | loads
  | drain
  | counter (p : Path) (n : Nat)
  | batchSpace
  | batchGap (n : Nat)
  | kendBatches
  | kendCounters
  | loadsAndStores (bd : Bool)
  | tick (t : Nat)
  | tlbi (id : Nat)
  | barrier (a : BarAt) (token : Bool)
  | arrived (a : BarAt) (token : Bool)      -- a barrw that has arrived (R325)
  | bankOps (ids : List Nat)
  | grant
  | passed (token : Option Bool)            -- a barw, or a barrw with its token, whose phase has completed (R322, R325)
  | children (rec : List Byte)              -- a klaunch that has read its record (R81)
  | bdSpace (rec : List Byte)               -- a bdsub that has read its record (R177)
deriving DecidableEq, Repr

/-! ### The lane stream -/

/-- A divergence slot (R91). `join = none` is the value end. -/
structure Slot where
  valid : Bool
  pc : BitVec 24
  mask : Mask
  join : Option (BitVec 24)
  parked : Bool
deriving DecidableEq, Repr

/-- An enqueued lane block: its first index and the k registers captured at lbk (R89). -/
structure Block where
  idx : BitVec 24
  snap : List Word
deriving DecidableEq, Repr

/-- The lane stream of a gang (R88, R91, R107): the queue, the running block's snapshot, the two slots, the depth
of the divergence stack (its words lie in L memory, R93), the slot that issued last, and the head of the chain.
`enqueued` counts the blocks of the gang. -/
structure LaneStream where
  queue : List Block
  running : Bool
  snap : List Word
  s0 : Slot
  s1 : Slot
  depth : Nat
  cur : Bool            -- the slot: false S0, true S1
  chainHead : BitVec 24
  enqueued : Nat
deriving DecidableEq, Repr

/-- A bypass latch (R106). -/
structure Latch where
  valid : Bool
  vals : List Half
deriving DecidableEq, Repr

/-- What kind of unit a pending register write waits for. -/
inductive PendKind where
  | load | smm | xfm | cpr
deriving DecidableEq, Repr

/-- A lane instruction issued and not yet written back (R94, R198, R214, R254, R296): register writes as (slot of
the register stack, lane, value), the lanes its data makes dead (R197, R378) and the latch it writes. -/
structure Pend where
  id : Nat
  kind : PendKind
  writes : List (Nat × Nat × Half)
  regs : List Nat       -- register-stack slots reserved
  dead : Mask
  latch : Option (Nat × List Half)
deriving DecidableEq, Repr

/-- One engine instruction counted in IFC (R238), in issue order; `done` once complete but not yet counted. -/
structure Ifc where
  path : Path
  id : Nat
  done : Bool
deriving DecidableEq, Repr

/-- What an unfinished or the last finished batch records (R248). -/
structure BatchNote where
  num : Nat
  poison : Bool
  drop : Bool
  replay : Bool
deriving DecidableEq, Repr

/-- A stream record (R252). -/
structure StreamRec where
  base : Word
  seg : Nat
  elog : Nat
  dims : Nat
  indirect : Bool
  nc : Bool
  count : List Nat
  stride : List Int
  ibase : Word
  ilog : Nat
  iscale : Nat
deriving DecidableEq, Repr

/-- A stream slot of a gang: its record and the position of the next element (R175, R199). -/
structure StreamSlot where
  desc : StreamRec
  pos : Nat
deriving DecidableEq, Repr

/-- The place of a byte (R245, R259): physical memory, or a byte of a bank page of a crew (crew, its page by bank
handle, byte of the bank). -/
inductive Place where
  | phys (pa : Nat)
  | bank (crew page byte : Nat)
deriving DecidableEq, Repr

/-- An entry of the undo log (R372): what the registers and the memory that the instruction wrote held before it. A fence
entry undoes nothing. -/
structure UndoEntry where
  fence : Bool
  lane : Bool
  pc : Word
  index : BitVec 24
  slot : Bool
  k : List (Nat × Word)
  v : List (Nat × Nat × Half)
  q : List (Nat × Mask)
  sr : List (Nat × Word)
  segs : Option Segs
  lptBase : Option (Option Word)
  period : Option Nat                -- HB_PERIOD
  dbg : Option (Bool × Bool × Bool)  -- DEBUG.HALTTRAP, HALTBRK, UNDO
  wb : Option (Nat × Nat)            -- WIN and RES
  mem : List (Place × Byte)
deriving DecidableEq, Repr

/-- The shadow of a Mordant gang (R380 to R382): its slot, and whether the effect that the leader is about to perform
has compared equal. The shadow's own registers are those of the gang with the same name in `State.shadows`. -/
structure Shadow where
  slot : Nat
  equal : Bool
deriving DecidableEq, Repr

/-- What an instruction of the leader of a Mordant pair has written to the gang's registers (R381): registers and
predicates as (number, value), lane registers as (slot, lane, value), and where the gang stands after it. -/
structure Taken where
  k : List (Nat × Word)
  v : List (Nat × Nat × Half)
  q : List (Nat × Mask)
  latches : List Latch
  win : Nat
  res : Nat
  slots : Nat
  dead : Mask
  pc : Word
  lane : LaneStream
deriving DecidableEq, Repr

/-- What the leader of a Mordant pair has put in the value queue for its shadow, or has gone through before it (R381): an
instruction that the shadow runs itself, and where the pair stands before it; the values of one that took values from
outside; values that have returned, with the dead lanes; an SMM that has written; a lane block that started; an entry
to K. -/
inductive Trail where
  | run (pc : Word) (s0 s1 : Slot) (i : Instr)
  | values (pc : Word) (s0 s1 : Slot) (taken : Taken)
  | back (v : List (Nat × Nat × Half)) (latch : Option (Nat × List Half)) (dead : Mask)
  | smm
  | start
  | enter
deriving DecidableEq, Repr

/-- A byte that the scalar stream has accessed before lane blocks that precede it in program order were done (R88,
R264): those blocks, up to number `upto`, find `old` there. -/
structure EarlyByte where
  upto : Nat
  place : Place
  old : Byte
deriving DecidableEq, Repr

/-- One gang (R85): everything the spec gives a gang, saved and restored with it (R362). -/
structure Gang where
  ref : GangRef
  core : Nat            -- (die × 2 + cluster) × 128 + physical core
  slot : Nat            -- gang slot of the core, 8 × scheduler + slot
  status : GangStatus
  level : Level
  k : List Word         -- k0 to k31
  kAlt : List Word      -- the eight K registers exchanged with k24 to k31 (R353)
  kPoison : List Nat    -- k registers holding uncorrectable errors (R375)
  srPoison : List Nat   -- the same for special registers, by SRN
  pc : Word
  segs : Segs
  wait : Option Wait
  kept : Option (Word × Wait)   -- a ktlbi or barrw stopped in its wait, and its address (R49, R325)
  yieldUntil : Nat
  win : Nat
  res : Nat
  allot : Nat
  units : List Nat      -- the register bank of each unit held (R104)
  regs : List (List Half)      -- resident slots RES, RES+1, …, each 32 lanes
  vPoison : List (Nat × Nat)   -- (slot, lane) of poisoned lane registers (R375)
  q : List Mask         -- q0 to q7
  latches : List Latch
  lane : LaneStream
  pend : List Pend
  ust : Nat
  ifc : List Ifc
  sealed : BitVec 32
  batchDone : BitVec 32
  dropCnt : Nat
  errCnt : Nat
  lastBatch : BatchNote
  notes : List BatchNote
  dead : Mask
  trapCause : Word
  trapPc : Word
  trapInfo : Word
  trapVec : Word
  haltTrap : Bool       -- a trap is recorded and not delivered (R355)
  lptBase : Option Word -- value written to LPT_BASE (R73)
  dbgHaltTrap : Bool
  dbgHaltBrk : Bool
  dbgUndo : Bool
  dbgLaunch : Bool
  undo : List UndoEntry -- newest first
  undoMem : List (Place × Byte)  -- bytes the instruction being executed overwrote, newest first
  stepOne : Option Stream
  haltDue : Bool        -- a debug halt waits until what the lanes have issued is written (R214, R254, R296)
  streams : List (Option StreamSlot)
  shadow : Option Shadow
  trail : List Trail    -- the value queue of a Mordant pair, oldest first (R381)
  laneAge : Nat         -- the cycle after the last lane issue, from which its age counter counts (R94)
  scalarAge : Nat       -- the same for the scalar stream
  early : List EarlyByte
  lBase : Word          -- the L base derived at crew start (R236)
deriving DecidableEq, Repr

/-! ### Crews, kernels, pages and banks -/

/-- A barrier (R319, R320). `dom`: the crew-level barriers are the crew's own (0); otherwise the cluster index,
the die or 0. -/
structure Barrier where
  level : Nat
  dom : Nat
  num : Nat
  phase : Bool
  memb : Half
  arr : Half
  tx : Int
  next : Option Half
  excess : Bool         -- more arrivals than members have come in this phase (R321)
deriving DecidableEq, Repr

/-- The column periphery of one bank column (R274): BP0 to BP3, ACC, the scale store, OVF, NAN, the poison mark. -/
structure Col where
  bp : List (BitVec 22)
  acc : Word
  scale : List (BitVec 9)
  ovf : Bool
  nan : Bool
  poison : Bool
deriving DecidableEq, Repr

/-- The row operations (R293). -/
inductive BvOp where
  | add | sub | mul | neg | addk | and | or | xor | not | cpy | set | shl | shr | cmpeq | cmplt | cmpltn | sel | pld
  | pst
deriving DecidableEq, Repr

/-- What a bank operation waiting at a port does (R279). -/
inductive BankAct where
  | bv (op : BvOp) (desc : Word) (scalar : Word)
  | cpr (sel j : Nat) (desc : Half) (on : Mask) (dst : Nat) (ty64 : Bool)
  | cpw (sel j : Nat) (desc : Half) (on : Mask) (data : List Word)
  | mode (comp : Bool)
  | stepOn
  | mx (id : Nat)
  | copy (id piece : Nat)
deriving DecidableEq, Repr

/-- A bank operation at a port (R279, R280), with the gang that issued it and the steps it has taken in step mode
(R282). -/
structure BankOp where
  id : Nat
  gang : GangRef
  act : BankAct
  steps : Nat
deriving DecidableEq, Repr

/-- Page states (R235). -/
inductive PageState where
  | absent | pinned | unpinning | backed | refilling
deriving DecidableEq, Repr

/-- One page-holding bank of a crew, with the bank's cells, mode bit, periphery, port and step owner (R234, R273
to R282). `cells` are bank bytes 0 to 32,767. -/
structure Page where
  site : Nat
  comp : Bool
  state : PageState
  cells : Memory
  poison : List Nat          -- poisoned rows
  dirty : List Nat           -- dirty 128-byte lines
  cols : List (Nat × Col)    -- columns not all zero
  owner : Option GangRef     -- step owner
  port : List BankOp         -- arrival order, head first
  outside : List BankOp      -- operations held before the port by step mode (R282)
  backing : Nat
  moved : Nat                -- lines below it are written back or refilled already (R235, R237)
deriving DecidableEq, Repr

/-- Crew states (R86). `stopping`: pre-empted, its work being drained before the swap; `failing`: ended, by a failure
or, with cause 0, by its last kend, and work on its pages is not all complete. -/
inductive CrewState where
  | waiting | starting | running | stopping | saved | failing | done
deriving DecidableEq, Repr

/-- The version of a versioned crew (R366, R370): its held bytes by physical address, addresses strictly rising (a
held zero is listed), the 32-byte sectors of them that are poisoned (R376), and the lines written with MT 2 (R229). -/
structure Version where
  versioned : Bool
  opened : Bool
  commits : Nat
  held : List (Nat × Byte)
  bad : List Nat
  direct : List Nat
deriving DecidableEq, Repr

/-- One crew (R85, R86). -/
structure Crew where
  id : Nat
  kernel : Nat          -- serial of its kernel
  stage : Nat
  die : Nat
  cluster : Nat
  rank : Nat            -- merged rank (R83)
  core : Nat
  dealRank : Nat
  state : CrewState
  prio : Nat
  started : Nat         -- order of its last start (R359)
  stopAt : Nat          -- cycle at which issue stopped (R361)
  drainAt : Nat         -- cycle at which its copy drain limit expires (R361)
  gangs : Nat
  pages : List Page     -- by bank handle (R275)
  barriers : List Barrier
  cause : Nat           -- cause of its failure, 0 for none
  failAt : Nat          -- cycle of its failure (R79)
  version : Version
  swapped : Bool        -- its state has left the registers (R362)
  begun : Bool          -- its gangs have started: it is started again by a restore (R86)
  saveBad : Option Nat  -- a 4 KiB chunk of its saved state that holds an uncorrectable error (R38)
deriving DecidableEq, Repr

/-- A launch record (R66). -/
structure LaunchRec where
  code : Word
  laneCode : Word
  param : Word
  completion : Word
  crews : Nat
  dieMask : Nat
  clusterMask : Nat
  stages : Nat
  gangs : Nat
  prologue : Nat
  full : Nat
  scratch : Nat
  banks : Nat
  versioned : Bool
  mordant : Bool
  debug : Bool
  mergeable : Bool
  constBase : Word
  constLimit : Nat
  localBytes : Nat
  localBase : Word
  stageMasks : List Nat
deriving DecidableEq, Repr

/-- One child of a kernel: its own parameter block and completion record, and what R79 counts for it. `fails` lists its
failed crews in the order of the failure list: cycle of the failure, global crew number, cause. -/
structure Child where
  param : Word
  completion : Word
  completed : Nat
  deadLanes : Nat
  failList : Nat
  ended : Nat
  fails : List (Nat × Nat × Nat)
  reported : Bool
deriving DecidableEq, Repr

/-- Who started a kernel or a task: a queue command, or a gang's klaunch or bdsub. -/
inductive Owner where
  | command (asid queue index : Nat)
  | gang (g : GangRef) (id : Nat)
deriving DecidableEq, Repr

/-- Kernel states (R80). -/
inductive KernelState where
  | placing | running | suspended | done
deriving DecidableEq, Repr

structure Kernel where
  serial : Nat
  order : Nat           -- place in the order in which kernels started (R77)
  asid : Nat
  recAddr : Nat
  desc : LaunchRec      -- the common record, crews multiplied for a merged grid
  each : Nat            -- crews per cluster of one child (R83)
  prio : Nat
  state : KernelState
  children : List Child
  owner : Option Owner
  unadmitted : Nat
  unended : Nat
  barriers : List Barrier
deriving DecidableEq, Repr

/-- An open aggregate of mergeable children (R82). -/
structure Aggregate where
  id : Nat
  asid : Nat
  prio : Nat
  serial : Nat
  opened : Nat
  recAddr : Nat
  raw : List Byte                 -- the 128 bytes of the first child's record
  children : List (Word × Word)   -- parameter block and completion record, in arrival order
deriving DecidableEq, Repr

/-- What a copy does (R240 to R250): lanes as (lane, source bytes, destination bytes); columns as (bank handle, source
bytes, column, slot, scale); the virtual addresses of a G side, item by item, for a replay (R258); a multicast with all its receivers,
those still to be reached, and the data once read with its poisoned 32-byte sectors. -/
inductive CopyAct where
  | lanes (items : List (Nat × List Place × List Place)) (vas : List Nat) (size : Nat) (s2g : Bool) (bar : Option Nat)
  | transpose (items : List (Nat × List Place × Nat × Nat × BitVec 9)) (vas : List Nat) (run : Nat) (e2m1 scale : Bool)
      (bar : Option Nat)
  | multicast (src : Nat) (bytes dst : Nat) (bar : Option Nat) (stage : Nat) (all left : List Nat)
      (data : List Byte) (bad : List Nat)
deriving DecidableEq, Repr

/-- A write that a copy still has to make (R242, R244, R279): bytes within one 128-byte line, by place, with those that
are poisoned; or a run of elements in one column of a bank of its crew. -/
inductive CopyPiece where
  | line (id : Nat) (cells : List (Place × Byte)) (bad : List Place)
  | column (id h col t : Nat) (codes : List Nat) (scale : Option (BitVec 9)) (bad : Bool)
deriving DecidableEq, Repr

/-- An accepted copy that has not landed (R245). `work` is none until its sources are read (R241), and then holds the
writes still to be made; `lines` are the lines of multicast deliveries that are written or dropped, as (receiver,
line); `lost` are the receivers that have lost a line (R250); `direct` are the lines of a G destination on a page of MT 2
(R229); `used` are the pages, as first address and size, whose translations it was accepted with (R48). -/
structure CopyOp where
  id : Nat
  gang : GangRef
  batch : BitVec 32
  act : CopyAct
  work : Option (List CopyPiece)
  lines : List (Nat × Nat)
  lost : List Nat
  direct : List Nat
  used : List (Nat × Nat)
  delivered : Nat       -- multicast receivers not dropped
  dropped : Nat
  squashed : Bool
  replayed : Bool
  void : Bool           -- its crew's open version is discarded: its G writes are dropped (R368)
deriving DecidableEq, Repr

/-- A multicast delivery held for a crew that has not started (R250). -/
structure Buffered where
  kernel : Nat
  cluster : Nat
  stage : Nat
  rank : Nat
  dst : Nat
  data : List Byte
  poison : List Nat     -- poisoned 32-byte sectors of the data
deriving DecidableEq, Repr

/-- Which member of the MTX family an operation is (R304). -/
inductive MxKind where
  | mtx | mclr | mdrain
deriving DecidableEq, Repr

/-- Consecutive bytes of one bank page: its crew and bank handle, the first byte and the number of bytes. -/
structure Span where
  crew : Nat
  page : Nat
  first : Nat
  n : Nat
deriving DecidableEq, Repr

/-- An accepted mtx, mclr or mdrain (R306): the 64 bytes of its format block as read at issue, its descriptor, the
bank handles at whose ports it is, its active source range (R246) and the pages of its ranges (R306, R318). -/
structure MxOp where
  id : Nat
  gang : GangRef
  kind : MxKind
  block : List Byte
  desc : Word
  banks : List Nat
  active : List Span
  pages : List (Nat × Nat)
  started : Bool
deriving DecidableEq, Repr

/-- A request in a core's grant queue (R100, R101): its gang, the units asked for, whether it is a racq, and the
register its result goes to. -/
structure Grant where
  gang : GangRef
  n : Nat
  racq : Bool
  kd : Reg
deriving DecidableEq, Repr

/-- One core: its L1 and instruction caches, the distributor's queue, the grant queue, register-bank power. -/
structure Core where
  id : Nat
  l1 : List Line
  code : List CodeWord
  rot : Nat             -- scheduler that took the previous gang (R76)
  queue : List Nat      -- crews waiting, in the order of R77
  grants : List Grant   -- waiting requests (R101)
  stuckSince : Option Nat               -- since when the condition of R102 holds
  gated : List Nat      -- register banks power-gated (R104)
  shadowBank : List Nat -- crews whose state the shadow bank holds (R362)
  admitAt : Nat         -- cycle of the last admission by the cluster distributor (R77)
deriving DecidableEq, Repr

/-! ### Contexts and queues -/

/-- Context states (R36), FREE apart: a context that is FREE is not listed. -/
inductive CtxState where
  | created | active | quiescing | quiesced | faulted
deriving DecidableEq, Repr

/-- Queue states (R65). -/
inductive QueueState where
  | off | idle | active | blocked | halted | error
deriving DecidableEq, Repr

/-- A fetched command (R56): its index, its 64 bytes, whether it has started, and for COPY whether it is
suspended (R65), how many of its bytes are written, and whether one of them was written poisoned (R383). -/
structure Cmd where
  index : Nat
  bytes : List Byte
  started : Bool
  suspended : Bool
  copied : Nat
  hurt : Bool
deriving DecidableEq, Repr

/-- A queue of a context (R51), or the queue of a Causeway ring (R395). -/
structure Queue where
  num : Nat
  ringBase : Nat
  ringLog2 : Nat
  kind : Nat
  prio : Nat
  widxAddr : Nat
  ridx : Nat
  state : QueueState
  error : Nat
  errorIdx : Nat
  cmds : List Cmd
  failed : Bool         -- a command completed with a status other than OK since the last SIGNAL (R61)
  rung : Bool           -- a doorbell has been rung and no read of the write index has found new commands since (R55)
deriving DecidableEq, Repr

/-- A Causeway ring of a context and landing die (R395), by the address of its entry. -/
structure Ring where
  asid : Nat
  land : Nat
  entry : Nat
  q : Queue
deriving DecidableEq, Repr

structure Ctx where
  desc : Nat            -- physical address of the descriptor (R413)
  asid : Nat
  state : CtxState
  destroying : Bool     -- QUIESCE actions of a DESTROY are under way (R36)
  prioCeil : Nat
  dieMask : Nat
  ptRoot : Nat
  queueTable : Nat
  queueCount : Nat
  saveBase : Nat
  saveSize : Nat
  trapVec : Word
  faultRec : Nat
  featEn : List Word
  key : BitVec 128
  queues : List Queue
deriving DecidableEq, Repr

/-! ### Stack cores -/

/-- A mailbox and its wake register (R347). -/
structure Mailbox where
  full : Bool
  msg : List Half
  rcvd : Byte
  sstack : Nat
  score : Nat
deriving DecidableEq, Repr

/-- A stack task record (R329). -/
structure TaskRec where
  code : Word
  param : Word
  coreMask : BitVec 16
  stackMask : BitVec 8
  flagAdd : Bool
  loc : Bool
  inputs : Word
  outputs : Word
  flag : Word
  value : Word
deriving DecidableEq, Repr

/-- Task states (R335). -/
inductive TaskState where
  | flushing | running | failing | finishing | suspended | done
deriving DecidableEq, Repr

structure Task where
  serial : Nat
  asid : Nat
  desc : TaskRec
  ins : List (Nat × Nat)
  outs : List (Nat × Nat)
  prio : Nat
  owner : Owner
  state : TaskState
  before : TaskState    -- the state before SUSPENDED
  count : Nat
  ended : Nat
  failedCount : Nat
  first : Option Nat    -- rank of the first instance that trapped
  cause : Nat
  failAt : Nat          -- stack cycle of that trap (R331)
  inLines : List (Nat × Nat)  -- lines of its input regions, as first and last, written back at its dispatch (R271)
  kept : List (Nat × Byte)  -- bytes of those lines as step 1 left them, where DRAM has changed since (R271)
deriving DecidableEq, Repr

/-- Where an instance is in its life (R333, R334, R338). -/
inductive InstState where
  | absent | queued | running | saved | ended
deriving DecidableEq, Repr

/-- One instance of a stack task on one stack core (R328). -/
structure Instance where
  task : Nat
  die : Nat
  core : Nat
  rank : Nat
  prio : Nat
  order : Nat           -- place in the dispatcher's queue (R333)
  state : InstState
  a : List Word
  w : List (List Half)
  ba : List (List Word)
  pc : Word
  scratch : Word
  sram : Memory         -- local SRAM, 128 KiB
  poison : List Nat     -- poisoned 32-byte sectors of it
  mail : List Mailbox
  saveUe : Bool         -- its save slot or local-SRAM save holds an uncorrectable error
  yielded : Bool
deriving DecidableEq, Repr

/-! ### Links -/

/-- Causeway port states (R390). -/
inductive PortState where
  | down | training | up | degraded | retrain | fenced
deriving DecidableEq, Repr

structure CwPort where
  num : Nat
  enable : Bool
  fence : Bool
  state : PortState
  cause : Nat
  lanes : BitVec 4
  retrains : Nat
  peer : Option (Word × Nat)
  since : Nat           -- cycle at which the state was entered
  tx : List (List Byte) -- the images of the flits put on the wire, oldest first (R391)
deriving DecidableEq, Repr

/-- Both directions of one flow of a port group (R392 to R394). -/
structure Flow where
  group : Nat
  num : Nat
  home : Option Nat
  nextSeq : Half
  unacked : List Flit   -- oldest first
  expect : Half
  window : List Flit
  inbox : List Flit     -- delivered, not yet taken by a descriptor
  acked : Half          -- last sequence number acknowledged to the peer
  refused : Option Half -- the delivered chunk that is to be sent again (R400)
  fails : Nat           -- failed checks of the chunk at the head of the inbox (R400)
  discard : Bool        -- flits are discarded up to LAST (R397)
deriving DecidableEq, Repr

/-- What has been received for the descriptor at the head of a flow (R397 to R400). -/
structure Rx where
  asid : Nat
  land : Nat
  index : Nat
  taken : Nat           -- payload bytes taken
  chunk : Nat
  nocheck : Nat
  firstNocheck : Option Nat
deriving DecidableEq, Repr

/-! ### Ports, management and the whole -/

/-- The context control port (R33, R50, R55, R361). -/
structure CpPort where
  desc : Word
  op : BitVec 4
  asid : Nat
  code : Nat
  overrun : Bool
  busy : Bool
  tlbiVa : Word
  tlbiAsid : BitVec 12
  tlbiMode : Bool
  tlbiCode : Nat
  tlbiBusy : Bool
  tlbiOverrun : Bool
  tlbiMissing : BitVec 17
  drain : Nat
deriving DecidableEq, Repr

/-- A host core (R401): whether it runs, its level, its program counter, its translation mode (bits 63:60 of SATP: 0
bare, 8 Sv39, 9 Sv48, 10 Sv57), its x, f and 256-bit v registers, and the doubleword of its reservation. -/
structure HostCore where
  num : Nat
  running : Bool
  level : HostLevel
  pc : Word
  satp : Word
  x : List Word
  f : List Word
  v : List (BitVec 256)
  reserved : Option Nat
deriving DecidableEq, Repr

/-- The debug port (R373). -/
structure DbgPort where
  sel : Word
  cmd : Word
  busy : Bool
  code : Nat
  data : Word
deriving DecidableEq, Repr

/-- The region port (R226) and the table in force. -/
structure RgnPort where
  stage : List RgnEntry
  active : List RgnEntry
  gen : BitVec 16
  badIdx : Nat
  code : Nat
  busy : Bool
deriving DecidableEq, Repr

/-- An error record (R384). -/
structure ErrorRecord where
  kind : Nat
  unit : Nat
  die : Nat
  asid : Nat
  addr : Word
  crew : Half
  tick : Word
deriving DecidableEq, Repr

/-- The error log (R405): unread records oldest first, the index of the oldest, the records lost, and the 8-byte
reads made of the record at HEAD. -/
structure ErrLog where
  recs : List ErrorRecord
  head : Nat
  lost : Nat
  reads : Nat
deriving DecidableEq, Repr

/-- Power and temperature (R407, R408). -/
structure Power where
  limit : Nat
  level : Nat
  tmax : Nat
  power : Nat
  nextAdjust : Nat
deriving DecidableEq, Repr

/-- What the last host or management access returned. The model's own field. -/
inductive Reply where
  | none
  | value (v : Word)
  | fault
  | bytes (b : List Byte)
  | bootFail (image : Nat)
deriving DecidableEq, Repr

/-- Boot (R403). -/
inductive Boot where
  | inReset
  | booted
  | fail (image : Nat)
  | off                 -- power removed (R408)
deriving DecidableEq, Repr

/-- Whose turn it is. -/
inductive Agent where
  | idle
  | gang (g : GangRef)
  | stack (die core : Nat)
deriving DecidableEq, Repr

/-- One turn of the agenda: a device step, or an instruction of a stream. `cycles` compute cycles pass before it. -/
inductive Turn where
  | event (cycles : Nat) (i : Instr)
  | scalar (cycles : Nat) (g : GangRef)
  | lane (cycles : Nat) (g : GangRef)
  | stack (cycles : Nat) (die core : Nat)
  | shadow (cycles : Nat) (g : GangRef)               -- the shadow of a Mordant gang takes one entry of its queue (R381)
  | clocks (cycles stackCycles : Nat)                 -- the compute and the stack domain pass apart (R26)
  | walk (cycles agent asid va : Nat)                 -- an agent caches a translation of its own accord (R47)
  | page (cycles crew handle lines : Nat)             -- lines of a page are written back or refilled (R235)
  | copy (cycles asid queue index bytes : Nat)        -- bytes of a started COPY command are moved (R59, R65)
deriving DecidableEq, Repr

/-- Why a step stops the machine. Nothing of the spec stops the package but the loss of its power. -/
inductive Fault where
  /-- Raised by `step` when the package has no power (R408: THERMAL_TRIP removed it) and the next turn is no package
  reset. Safe: the package does nothing without power. -/
  | noPower
deriving DecidableEq, Repr

/-- Why a step gives an instruction no meaning. -/
inductive Refusal where
  /-- Raised by `exec` for an instruction that has no meaning yet. Safe: nothing is proved of it. -/
  | notModelled (mnemonic : String)
deriving DecidableEq, Repr

structure State where
  -- the schedule and the free values (the model's own)
  agenda : List Turn
  focus : Agent
  free : Nat
  nextId : Nat
  reply : Reply
  -- time (R27, R270)
  cycle : Nat
  stackCycle : Nat
  heartbeat : Word
  hbPeriod : Nat
  nextTick : Nat
  -- identity and boot (R2, R72, R403)
  boot : Boot
  serial : Word
  fwMajor : Byte
  fwMinor : Byte
  fwFix : Byte
  harvest : List (BitVec 128)   -- enabled cores of cluster 2 × die + cluster
  rollback : Nat
  flash : Bundle
  staged : Option Bundle
  running : Bundle
  -- memory
  dram : Memory
  poison : List Nat             -- poisoned 32-byte DRAM sectors, by placement div 32
  checks : List (Nat × BitVec 16)  -- sectors whose carried check value was changed (R377)
  l2 : List Line
  rgn : RgnPort
  tlb : List TlbEntry
  tlbis : List Tlbi
  multicast : List Buffered
  -- contexts, kernels, crews
  cp : CpPort
  ctxs : List Ctx
  creates : Nat                 -- CREATEs so far, for the tag key
  kernels : List Kernel
  kernelSerial : Nat            -- kernels started (R81)
  aggregates : List Aggregate
  crews : List Crew
  cores : List Core
  g : Gang                      -- the gang whose turn it is (the others are in gangs)
  gangs : List Gang
  shadows : List Gang           -- the shadows of Mordant gangs, under the names of their leaders (R380)
  copies : List CopyOp
  mxs : List MxOp
  lastStart : Nat
  -- stack cores
  tasks : List Task
  taskSerial : Nat              -- stack tasks started (R177)
  inst : Instance               -- the instance whose turn it is (the others are in insts)
  insts : List Instance
  -- links
  ports : List CwPort
  flows : List Flow
  rings : List Ring
  rxs : List Rx
  stalls : List (Nat × Nat)          -- groups with no usable port, and since when (R394)
  cwring : Word
  lostLinks : List UcieLink
  lostModules : List (UcieLink × Nat)  -- modules lost of links that still run (R387)
  rr : List (Nat × Nat)         -- round-robin positions: (priority, last asid × 64 + queue), and for the rings of
                                -- landing die q (256 × (q + 1) + priority, last asid)
  -- management and the host complex
  hosts : List HostCore
  trained : Bool                -- every UCIe module is trained (R386, R403)
  dbg : DbgPort
  errlog : ErrLog
  pwr : Power
deriving DecidableEq, Repr

/-! ### Reset -/

def Seg.zero : Seg := { base := 0, limit := 0 }

def Slot.empty : Slot := { valid := false, pc := 0, mask := 0, join := none, parked := false }

def LaneStream.empty : LaneStream :=
  { queue := [], running := false, snap := [], s0 := Slot.empty, s1 := Slot.empty, depth := 0, cur := false,
    chainHead := 0, enqueued := 0 }

def Latch.empty : Latch := { valid := false, vals := List.replicate 32 0 }

def BatchNote.zero : BatchNote := { num := 0, poison := false, drop := false, replay := false }

/-- A gang record that holds no gang, every register zero (R86: registers are zero when a gang starts). -/
def Gang.empty : Gang :=
  { ref := { crew := 0, idx := 0 }, core := 0, slot := 0, status := .absent, level := .u,
    k := List.replicate 32 0, kAlt := List.replicate 8 0, kPoison := [], srPoison := [], pc := 0,
    segs := { g := Seg.zero, s := Seg.zero, p := Seg.zero, c := Seg.zero, l := Seg.zero },
    wait := none, kept := none, yieldUntil := 0, win := 0, res := 0, allot := 0, units := [], regs := [], vPoison := [],
    q := List.replicate 8 0, latches := List.replicate 4 Latch.empty, lane := LaneStream.empty, pend := [],
    ust := 0, ifc := [], sealed := 0, batchDone := 0, dropCnt := 0, errCnt := 0, lastBatch := BatchNote.zero,
    notes := [], dead := 0, trapCause := 0, trapPc := 0, trapInfo := 0, trapVec := 0, haltTrap := false,
    lptBase := none, dbgHaltTrap := false, dbgHaltBrk := false, dbgUndo := false, dbgLaunch := false, undo := [],
    undoMem := [], stepOne := none, haltDue := false, streams := List.replicate 4 none, shadow := none,
    trail := [], laneAge := 0, scalarAge := 0, early := [], lBase := 0 }

def Mailbox.empty : Mailbox :=
  { full := false, msg := List.replicate 16 0, rcvd := 0, sstack := 0, score := 0 }

/-- An instance record that holds no instance; every register of a stack core is zero when an instance starts
(R328). -/
def Instance.empty : Instance :=
  { task := 0, die := 0, core := 0, rank := 0, prio := 0, order := 0, state := .absent,
    a := List.replicate 32 0, w := List.replicate 16 (List.replicate 16 0),
    ba := List.replicate 16 (List.replicate 16 0), pc := 0, scratch := 0, sram := [], poison := [],
    mail := List.replicate 4 Mailbox.empty, saveUe := false, yielded := false }

def RgnEntry.unused : RgnEntry := { base := 0, size := 0, pcOff := 0, mode := 0, stack := 0 }

/-- The bundle in the management flash at reset: no image. DESIGN CHOICE (log 2): the spec gives none. -/
def Bundle.empty : Bundle := { images := [], major := 0, minor := 0, fix := 0 }

/-- A host core in reset (R403); its registers read zero. DESIGN CHOICE (log 4): the spec gives them no value. -/
def HostCore.reset (n : Nat) : HostCore :=
  { num := n, running := false, level := .m, pc := 0, satp := 0, x := List.replicate 32 0, f := List.replicate 32 0,
    v := List.replicate 32 0, reserved := none }

def CwPort.reset (n : Nat) : CwPort :=
  { num := n, enable := false, fence := false, state := .down, cause := 0, lanes := 0, retrains := 0,
    peer := none, since := 0, tx := [] }

/-- The package right after reset (R403: only the management controller runs; the Reset columns of the register
maps). No context, crew or task exists. -/
def State.reset : State :=
  { agenda := [], focus := .idle, free := 0, nextId := 1, reply := .none,
    cycle := 0, stackCycle := 0, heartbeat := 0, hbPeriod := 1024, nextTick := 1024,
    boot := .inReset, serial := 0, fwMajor := 0, fwMinor := 0, fwFix := 0,
    harvest := List.replicate 16 (BitVec.allOnes 128), rollback := 0,
    flash := Bundle.empty, staged := none, running := Bundle.empty,
    dram := [], poison := [], checks := [], l2 := [],
    rgn := { stage := List.replicate 64 RgnEntry.unused, active := List.replicate 64 RgnEntry.unused,
             gen := 0, badIdx := 0, code := 0, busy := false },
    tlb := [], tlbis := [], multicast := [],
    cp := { desc := 0, op := 0, asid := 0, code := 0, overrun := false, busy := false, tlbiVa := 0, tlbiAsid := 0,
            tlbiMode := false, tlbiCode := 0, tlbiBusy := false, tlbiOverrun := false, tlbiMissing := 0,
            drain := 20000 },
    ctxs := [], creates := 0, kernels := [], kernelSerial := 0, aggregates := [], crews := [], cores := [],
    g := Gang.empty, gangs := [], shadows := [], copies := [], mxs := [], lastStart := 0,
    tasks := [], taskSerial := 0, inst := Instance.empty, insts := [],
    ports := (List.range 36).map CwPort.reset, flows := [], rings := [], rxs := [], stalls := [], cwring := 0, lostLinks := [],
    lostModules := [], rr := [],
    hosts := (List.range 16).map HostCore.reset, trained := false,
    dbg := { sel := 0, cmd := 0, busy := false, code := 0, data := 0 },
    errlog := { recs := [], head := 0, lost := 0, reads := 0 },
    pwr := { limit := 1800, level := 0, tmax := 0, power := 0, nextAdjust := 100000 } }

end Sys2Proof.Machine
end

