-- ==== Sys2Proof/Machine/Mem.lean ====
section
/-! DEFINITION. Physical memory: the region table (R221 to R224), DRAM, the L2 homes (R225, R231), the L1 of a core
(R228), the harbour window and device info page (R68, R74, R221), poison and check values (R375 to R377), the
error log (R384, R405). A line of an L2 is listed only when it may differ from DRAM: dirty, or clean and older than a
store that a stack core made to DRAM (log 6). -/

namespace Sys2Proof.Machine

open Sys2Proof

/-! ### Bytes by address -/

/-- The byte at an address: zero where none is listed (log 3). -/
def Memory.read : Memory → Nat → Byte
  | [], _ => 0
  | (k, v) :: rest, a => if k == a then v else Memory.read rest a

/-- The memory with one byte stored, in canonical form. -/
def Memory.write : Memory → Nat → Byte → Memory
  | [], a, b => if b == 0 then [] else [(a, b)]
  | (k, v) :: rest, a, b =>
    if k < a then (k, v) :: Memory.write rest a b
    else if k == a then (if b == 0 then rest else (a, b) :: rest)
    else if b == 0 then (k, v) :: rest else (a, b) :: (k, v) :: rest

/-- Every listed address of m is above a, strictly rising, and no listed byte is zero. -/
def Memory.wfFrom : Nat → Memory → Bool
  | _, [] => true
  | a, (k, v) :: rest => decide (a ≤ k) && v != 0 && Memory.wfFrom (k + 1) rest

/-- The canonical form: addresses strictly rising, no byte equal to what an unlisted address reads as. -/
def Memory.wf (m : Memory) : Bool := Memory.wfFrom 0 m

def Memory.readBytes (m : Memory) (a n : Nat) : List Byte := (List.range n).map fun i => m.read (a + i)

def Memory.writeBytes (m : Memory) (a : Nat) : List Byte → Memory
  | [] => m
  | b :: rest => Memory.writeBytes (m.write a b) (a + 1) rest

/-- Bytes by address, a stored zero included (the held bytes of a version, R366): the byte, if any. -/
def cellAt : List (Nat × Byte) → Nat → Option Byte
  | [], _ => none
  | (k, v) :: rest, a => if k == a then some v else cellAt rest a

def cellPut : List (Nat × Byte) → Nat → Byte → List (Nat × Byte)
  | [], a, b => [(a, b)]
  | (k, v) :: rest, a, b =>
    if k < a then (k, v) :: cellPut rest a b
    else if k == a then (a, b) :: rest
    else (a, b) :: (k, v) :: rest

/-- The first entry of a list whose key is n, and the list with that entry replaced or added. -/
def findBy {α : Type} (p : α → Bool) : List α → Option α
  | [] => none
  | x :: rest => if p x then some x else findBy p rest

def updBy {α : Type} (p : α → Bool) (f : α → α) : List α → List α
  | [] => []
  | x :: rest => if p x then f x :: rest else x :: updBy p f rest

def dropBy {α : Type} (p : α → Bool) : List α → List α
  | [] => []
  | x :: rest => if p x then rest else x :: dropBy p rest

/-- A number added to a list that holds it once at most. -/
def addNat (l : List Nat) (n : Nat) : List Nat := if l.contains n then l else n :: l

/-- n distinct numbers of a list. -/
def distinct : List Nat → List Nat
  | [] => []
  | x :: rest => if rest.contains x then distinct rest else x :: distinct rest

/-- Insertion into an ascending list, by a key. -/
def insertBy {α : Type} (key : α → Nat) (x : α) : List α → List α
  | [] => [x]
  | y :: rest => if key x < key y then x :: y :: rest else y :: insertBy key x rest

def sortBy {α : Type} (key : α → Nat) : List α → List α
  | [] => []
  | x :: rest => insertBy key x (sortBy key rest)

/-! ### Free choices -/

/-- The device's own choice at this step, by what is chosen (`tag`) and for which item (`x`) (log 5). -/
def State.choose (s : State) (tag x : Nat) : Bool := Config.choice (s.free * 2 ^ 80 + tag * 2 ^ 64 + x % 2 ^ 64)

/-! ### Identity, harvesting and the device info page -/

/-- FEAT_CAP0 to FEAT_CAP3 (R40). -/
def featCap (i : Nat) : Word := if i == 0 then 0xFFFF else 0

/-- Which physical cores of a cluster (2 × die + cluster) are enabled (R72). -/
def State.enabledCores (s : State) (cl : Nat) : List Nat :=
  (List.range 128).filter fun p => (s.harvest.getD cl 0).getLsbD p

/-- E of a cluster (R72). -/
def State.coreCount (s : State) (cl : Nat) : Nat := popcount 128 (s.harvest.getD cl 0).toNat

/-- The physical core of a logical rank, if the cluster has it (R73). -/
def State.physOf (s : State) (cl rank : Nat) : Option Nat := (s.enabledCores cl)[rank]?

/-- The logical rank of a physical core (R73). -/
def State.rankOf (s : State) (cl phys : Nat) : Nat :=
  popcount phys ((s.harvest.getD cl 0).toNat % 2 ^ phys)

/-- The rotation of a die in quarter turns (R17): compute dies 0 to 7, base dies 8 to 15, landing dies 16 to 19; none
for the harbour die. -/
def dieRot (d : Nat) : Option Nat :=
  if d < 16 then some (d % 8 / 2) else if d < 20 then some (d - 16) else none

/-- DIE_ORIENT of a compute die (R18). -/
def dieOrient (d : Nat) : Nat := d / 2 % 4 * 4 + d / 2 % 4 + d % 2 * 16

/-- The physical lane of a logical lane of a UCIe module of a die (R21): reversed on a die of rotation 2 or 3. -/
def ucieLane (die l : Nat) : Nat :=
  match dieRot die with
  | some r => if 2 ≤ r then 63 - l else l
  | none => l

/-- The place of a physical core of a cluster in the package frame (R20). -/
def corePosition (rot cluster phys : Nat) : Nat × Nat :=
  let x := 8 * cluster + phys % 8
  let y := phys / 8
  match rot with
  | 0 => (x, y)
  | 1 => (15 - y, x)
  | 2 => (15 - x, 15 - y)
  | _ => (y, 15 - x)

/-- The PHY site of a logical channel of a base die (R22). -/
def phySite (base channel : Nat) : Nat := (channel + 8 * (base / 2 % 4)) % 32

/-- The identification block (R2). -/
def State.idByte (s : State) (o : Nat) : Byte :=
  if o < 4 then BitVec.ofNat 8 (0x0B4D0B08 / 256 ^ o)
  else if o < 8 then BitVec.ofNat 8 (0x00010001 / 256 ^ (o - 4))
  else if o < 16 then BitVec.ofNat 8 (s.serial.toNat / 256 ^ (o - 8))
  else if o == 16 then s.fwFix
  else if o == 17 then s.fwMinor
  else if o == 18 then s.fwMajor
  else 0

/-- A byte of the device info page (R74). -/
def State.infoByte (s : State) (o : Nat) : Byte :=
  if o < 0x40 then s.idByte o
  else if o < 0x60 then BitVec.ofNat 8 (s.coreCount ((o - 0x40) / 2) / 256 ^ (o % 2))
  else if o < 0x68 then BitVec.ofNat 8 (dieOrient (o - 0x60))
  else if o < 0x80 then 0
  else if o < 0x180 then BitVec.ofNat 8 ((s.harvest.getD ((o - 0x80) / 16) 0).toNat / 256 ^ ((o - 0x80) % 16))
  else if o < 0x980 then
    match s.physOf ((o - 0x180) / 128) ((o - 0x180) % 128) with
    | some p => BitVec.ofNat 8 p
    | none => 0xFF
  else 0

/-! ### The region table -/

/-- The harbour window (R221). -/
def inWindow (pa : Nat) : Bool := decide (2 ^ 36 - 2 ^ 20 ≤ pa ∧ pa < 2 ^ 36)

/-- A byte of the harbour window (R221). -/
def State.windowByte (s : State) (pa : Nat) : Byte :=
  if 2 ^ 36 - 4096 ≤ pa then s.infoByte (pa % 4096) else 0

def rgnBytes (e : RgnEntry) : Nat := e.size.toNat * 2 ^ 20

/-- Whether an entry in use covers a physical address (R221, R223). -/
def rgnCovers (e : RgnEntry) (pa : Nat) : Bool :=
  e.mode.toNat % 4 != 0 && decide (e.base.toNat ≤ pa ∧ pa < e.base.toNat + rgnBytes e)

/-- The DRAM byte of a physical address under an entry, as (stack × 64 + pseudo-channel) × 2^30 + byte (R224). -/
def rgnPlace (e : RgnEntry) (pa : Nat) : Nat :=
  let o := pa - e.base.toNat
  let off := e.pcOff.toNat * 2 ^ 21
  match e.mode.toNat % 4 with
  | 1 => (o / 2 ^ 12 % 8 * 64 + (o / 2 ^ 8 % 16 + 16 * (o / 2 ^ 15 % 4))) * 2 ^ 30 + off + 256 * (o / 2 ^ 17) + o % 256
  | 2 => (e.stack.toNat % 8 * 64 + o / 2 ^ 8 % 64) * 2 ^ 30 + off + 256 * (o / 2 ^ 14) + o % 256
  | _ => (e.stack.toNat % 8 * 64 + e.mode.toNat / 4) * 2 ^ 30 + off + o

/-- The entry in force that covers a physical address. -/
def State.regionOf (s : State) (pa : Nat) : Option RgnEntry := findBy (fun e => rgnCovers e pa) s.rgn.active

/-- Whether an access to a physical address has a target at all (R221). -/
def State.covered (s : State) (pa : Nat) : Bool := inWindow pa || (s.regionOf pa).isSome

/-- The placement of a physical address in DRAM, for an address outside the window (R224). -/
def State.placeOf (s : State) (pa : Nat) : Option Nat := (s.regionOf pa).map fun e => rgnPlace e pa

/-- The L2 home of an address (R225): the die of the stack that holds it. -/
def State.homeDie (s : State) (pa : Nat) : Nat :=
  match s.placeOf pa with
  | some p => p / 2 ^ 36
  | none => 0

/-! ### Check values and the error log -/

/-- One bit of the CRC-16 of R377. -/
def crcStep (crc : Nat) : Nat → Nat
  | 0 => crc
  | n + 1 => crcStep (if crc ≥ 0x8000 then (crc * 2 % 0x10000) ^^^ 0x8BB7 else crc * 2) n

/-- The CRC-16 with polynomial 0x8BB7 and initial value 0 (R377). -/
def crc16 (bytes : List Byte) : Nat := bytes.foldl (fun crc b => crcStep (crc ^^^ (b.toNat * 256)) 8) 0

/-- An error record appended to the log (R384, R405). -/
def State.logError (s : State) (kind unit die asid addr crew : Nat) : State :=
  let r : ErrorRecord := { kind := kind, unit := unit, die := die, asid := asid, addr := BitVec.ofNat 64 addr,
                           crew := BitVec.ofNat 32 crew, tick := s.heartbeat }
  if s.errlog.recs.length < 4096 then { s with errlog := { s.errlog with recs := s.errlog.recs ++ [r] } }
  else
    { s with errlog := { recs := s.errlog.recs.drop 1 ++ [r], head := (s.errlog.head + 1) % 4096,
                         lost := min 65535 (s.errlog.lost + 1), reads := 0 } }

/-! ### DRAM and the L2 homes -/

/-- The listed L2 line of an address. -/
def State.l2Line (s : State) (pa : Nat) : Option Line := findBy (fun l => l.num == pa / 128) s.l2

/-- A DRAM byte by physical address. -/
def State.dramByte (s : State) (pa : Nat) : Byte :=
  match s.placeOf pa with
  | some p => s.dram.read p
  | none => 0

def State.dramPoison (s : State) (pa : Nat) : Bool :=
  match s.placeOf pa with
  | some p => s.poison.contains (p / 32) || s.lostLinks.contains (.base (p / 2 ^ 36))
  | none => false

/-- The last byte written at the home of an address (R263). -/
def State.homeByte (s : State) (pa : Nat) : Byte :=
  if inWindow pa then s.windowByte pa
  else
    match s.l2Line pa with
    | some l => l.data.getD (pa % 128) 0
    | none => s.dramByte pa

def State.homeBytes (s : State) (pa n : Nat) : List Byte := (List.range n).map fun i => s.homeByte (pa + i)

/-- A little-endian value at its home (R5). -/
def State.homeVal (s : State) (pa n : Nat) : Nat := leNat (s.homeBytes pa n)

/-- Whether the sector of an address is poisoned at its home (R375). -/
def State.homePoison (s : State) (pa : Nat) : Bool :=
  if inWindow pa then false
  else
    match s.l2Line pa with
    | some l => l.poison.contains (pa % 128 / 32)
    | none => s.dramPoison pa

/-- The storage that holds a sector now, as an error record names it (R375, R384): its unit and its die. -/
def State.memUnit (s : State) (pa : Nat) : Nat := if (s.l2Line pa).isSome then 3 else 6
def State.memDie (s : State) (pa : Nat) : Nat := if (s.l2Line pa).isSome then s.homeDie pa else 8 + s.homeDie pa

/-- An error record about a sector (R384). -/
def State.logSector (s : State) (kind pa asid crew : Nat) : State :=
  s.logError kind (s.memUnit pa) (s.memDie pa) asid (pa / 32 * 32) crew

/-- Whether the check value carried by the sector of an address differs from that of its bytes (R377). -/
def State.checkFails (s : State) (pa : Nat) : Bool :=
  match s.placeOf pa with
  | some p =>
    match findBy (fun c => c.1 == p / 32) s.checks with
    | some c => !inWindow pa && crc16 (s.homeBytes (pa / 32 * 32) 32) != c.2.toNat
    | none => false
  | none => false

/-- Sectors of 32 bytes that n bytes at an address touch, by their first address. -/
def sectors (pa n : Nat) : List Nat :=
  (List.range ((pa + n - 1) / 32 + 1 - pa / 32)).map fun i => (pa / 32 + i) * 32

/-- A sector of an access that its consumer meets as bad data: poisoned, or (where R377 checks) with a failing check
value. -/
def State.badSector (s : State) (checked : Bool) (pa n : Nat) : Option Nat :=
  findBy (fun a => s.homePoison a || (checked && s.checkFails a)) (sectors pa n)

/-- The 128 bytes and poisoned sectors of a line in DRAM. -/
def State.dramLine (s : State) (num : Nat) : Line :=
  { num := num, data := (List.range 128).map fun i => s.dramByte (num * 128 + i), dirty := false,
    poison := match s.placeOf (num * 128) with
      | some p => (List.range 4).filter fun i =>
          s.poison.contains (p / 32 + i) || s.lostLinks.contains (.base (p / 2 ^ 36))
      | none => [],
    mism := [] }

/-- Before bytes of DRAM change under a stack task: what the task's step 1 left in its input lines is kept for it
(R271). `own` is the task that writes, whose own values replace what is kept. -/
def Task.keep (t : Task) (own : Option Nat) (olds : List (Nat × Byte)) : Task :=
  if t.inLines.isEmpty then t
  else if own == some t.serial then { t with kept := t.kept.filter fun k => !(olds.any fun x => x.1 == k.1) }
  else
    { t with kept := olds.foldl (fun k x =>
        if (t.inLines.any fun r => decide (r.1 ≤ x.1 / 128 ∧ x.1 / 128 ≤ r.2)) && (cellAt k x.1).isNone then cellPut k x.1 x.2
        else k) t.kept }

def State.keepInputs (s : State) (own : Option Nat) (pas : List Nat) : State :=
  if s.tasks.all fun t => t.inLines.isEmpty then s
  else
    let olds := pas.map fun pa => (pa, s.dramByte pa)
    { s with tasks := s.tasks.map fun t => t.keep own olds }

/-- A line written back to DRAM, its sideband poison marks with it (R376), and removed from the list. -/
def State.writeBack (s : State) (num : Nat) : State :=
  match findBy (fun l => l.num == num) s.l2 with
  | none => s
  | some l =>
    let s := { s with l2 := dropBy (fun l => l.num == num) s.l2 }
    if l.dirty then
      let s := s.keepInputs none ((List.range 128).map fun i => num * 128 + i)
      match s.placeOf (num * 128) with
      | some p =>
        { s with
          dram := s.dram.writeBytes p l.data,
          poison := (s.poison.filter fun x => !(decide (p / 32 ≤ x ∧ x < p / 32 + 4)))
            ++ (l.poison.map fun i => p / 32 + i) }
      | none => s
    else s

/-- The line dropped from the L2 without a write-back. -/
def State.dropLine (s : State) (num : Nat) : State := { s with l2 := dropBy (fun l => l.num == num) s.l2 }

/-- A clean line that a stack core's store has made older than DRAM may have been evicted before it is read
(R231, R271): the device's own choice. -/
def State.settleLine (s : State) (pa : Nat) : State :=
  match s.l2Line pa with
  | some l => if !l.dirty && l.data != (s.dramLine l.num).data && s.choose 1 l.num then s.dropLine l.num else s
  | none => s

/-- The 128 bytes of a line with one replaced. -/
def setAt (l : List Byte) (i : Nat) (x : Byte) : List Byte := (l ++ List.replicate (128 - l.length) 0).set i x

/-- One byte stored at its home; poison and check values apart. -/
def State.putHome (s : State) (pa : Nat) (b : Byte) : State :=
  if inWindow pa then s
  else
    match s.l2Line pa with
    | some _ =>
      { s with l2 := updBy (fun l => l.num == pa / 128)
                       (fun l => { l with data := setAt l.data (pa % 128) b, dirty := true }) s.l2 }
    | none =>
      if (s.regionOf pa).isSome then
        let l := s.dramLine (pa / 128)
        { s with l2 := insertBy Line.num { l with data := setAt l.data (pa % 128) b, dirty := true } s.l2 }
      else s

/-- The poison mark of the sector of an address. -/
def State.markPoison (s : State) (pa : Nat) (on : Bool) : State :=
  if inWindow pa then s
  else
    match s.l2Line pa with
    | some _ =>
      { s with l2 := updBy (fun l => l.num == pa / 128)
                       (fun l => { l with poison := if on then addNat l.poison (pa % 128 / 32)
                                                    else l.poison.filter fun i => i != pa % 128 / 32,
                                          dirty := true }) s.l2 }
    | none =>
      match s.placeOf pa with
      | some p => { s with poison := if on then addNat s.poison (p / 32) else s.poison.filter fun x => x != p / 32 }
      | none => s

def State.clearCheck (s : State) (pa : Nat) : State :=
  match s.placeOf pa with
  | some p => { s with checks := s.checks.filter fun c => c.1 != p / 32 }
  | none => s

/-- The sectors of a write before it performs (R376, R377): a sector wholly covered loses its mark; one covered in
part keeps it, and becomes poisoned when its check value fails, which is a mismatch and a poison created (R384). -/
def State.beforeWrite (s : State) (addrs : List Nat) : State :=
  (distinct (addrs.map fun a => a / 32)).foldl (fun s sec =>
    let pa := sec * 32
    if (distinct (addrs.filter fun a => a / 32 == sec)).length == 32 then
      (if s.homePoison pa then s.markPoison pa false else s).clearCheck pa
    else if s.checkFails pa then
      (((s.markPoison pa true).clearCheck pa).logSector 3 pa 0 0xFFFFFFFF).logSector 1 pa 0 0xFFFFFFFF
    else s.clearCheck pa) s

/-- One write of bytes at their homes (R225, R376). A write to the window has no effect (R221). -/
def State.writeHome (s : State) (cells : List (Nat × Byte)) : State :=
  cells.foldl (fun s c => s.putHome c.1 c.2)
    (if s.poison.isEmpty && s.checks.isEmpty && s.lostLinks.isEmpty && s.l2.all (fun l => l.poison.isEmpty) then s
     else s.beforeWrite (cells.map (·.1)))

/-- The cells of consecutive bytes. -/
def cellsFrom (pa : Nat) : List Byte → List (Nat × Byte)
  | [] => []
  | b :: rest => (pa, b) :: cellsFrom (pa + 1) rest

/-- Lines written with MT 2 are not held in an L2 (R229): they go to DRAM at once. -/
def State.uncache (s : State) (lines : List Nat) : State := lines.foldl (fun s n => s.writeBack n) s

def State.writeHomeBytes (s : State) (pa : Nat) (bs : List Byte) : State := s.writeHome (cellsFrom pa bs)

/-- The sectors of a write marked poisoned after it: data that arrives poisoned (R376). -/
def State.poisonRange (s : State) (pa n : Nat) : State :=
  (sectors pa n).foldl (fun s a => s.markPoison a true) s

/-! ### The L1 of a core -/

def Core.fresh (id : Nat) : Core :=
  { id := id, l1 := [], code := [], rot := 3, queue := [], grants := [], stuckSince := none,
    gated := List.range 16, shadowBank := [], admitAt := 0 }

/-- A core that is not listed is as reset leaves it. -/
def State.core (s : State) (id : Nat) : Core := (findBy (fun c => c.id == id) s.cores).getD (Core.fresh id)

def State.updCore (s : State) (id : Nat) (f : Core → Core) : State :=
  { s with cores :=
      if (findBy (fun c => c.id == id) s.cores).isSome then updBy (fun c => c.id == id) f s.cores
      else insertBy Core.id (f (Core.fresh id)) s.cores }

def State.l1Line (s : State) (core pa : Nat) : Option Line := findBy (fun l => l.num == pa / 128) (s.core core).l1

/-- The line of an address as its home holds it now. -/
def State.homeLine (s : State) (pa : Nat) : Line :=
  if inWindow pa then
    { num := pa / 128, data := (List.range 128).map fun i => s.windowByte (pa / 128 * 128 + i), dirty := false, poison := [],
      mism := [] }
  else
    let l := (s.l2Line pa).getD (s.dramLine (pa / 128))
    { l with dirty := false,
             mism := if s.checks.isEmpty then [] else (List.range 4).filter fun i => s.checkFails (pa / 128 * 128 + 32 * i) }

def State.l1Drop (s : State) (core num : Nat) : State :=
  if (s.l1Line core (num * 128)).isSome then
    s.updCore core fun c => { c with l1 := dropBy (fun l => l.num == num) c.l1 }
  else s

/-- Every line of a core's L1 invalidated (R261). -/
def State.l1Flush (s : State) (core : Nat) : State :=
  if (s.core core).l1.isEmpty then s else s.updCore core fun c => { c with l1 := [] }

/-- A load's line brought into the L1 (R228): a miss fills it; a line older than its home may have been replaced
before the hit, which is the device's own choice (R95, R228). -/
def State.l1Fill (s : State) (core pa : Nat) : State :=
  match s.l1Line core pa with
  | some l =>
    if l != s.homeLine pa && s.choose 2 l.num then
      s.updCore core fun c => { c with l1 := updBy (fun x => x.num == l.num) (fun _ => s.homeLine pa) c.l1 }
    else s
  | none => s.updCore core fun c => { c with l1 := insertBy Line.num (s.homeLine pa) c.l1 }

/-- A byte as a gang of a core reads it: from the L1 line it hits, or at its home. -/
def State.coreByte (s : State) (core : Nat) (viaL1 : Bool) (pa : Nat) : Byte :=
  match (if viaL1 then s.l1Line core pa else none) with
  | some l => l.data.getD (pa % 128) 0
  | none => s.homeByte pa

/-- A line of an L1 after a write of its core (R228): the bytes written, and the marks of sectors wholly written gone; a
sector written in part whose check value did not match is poisoned (R376, R377). -/
def Line.store (l : Line) (cells : List (Nat × Byte)) : Line :=
  let mine := cells.filter fun x => x.1 / 128 == l.num
  let touched := fun i => mine.any fun x => x.1 % 128 / 32 == i
  let whole := fun i => (distinct ((mine.filter fun x => x.1 % 128 / 32 == i).map (·.1))).length == 32
  if mine.isEmpty then l
  else
    { l with
      data := mine.foldl (fun d x => setAt d (x.1 % 128) x.2) l.data,
      poison := if l.poison.isEmpty && l.mism.isEmpty then []
        else (List.range 4).filter fun i => !whole i && (l.poison.contains i || (touched i && l.mism.contains i)),
      mism := l.mism.filter fun i => !touched i }

/-- The bytes of a write put into the matching L1 lines of the writer's core (R228); a write to the harbour window has
no effect (R221). -/
def State.l1Store (s : State) (core : Nat) (cells : List (Nat × Byte)) : State :=
  let cells := cells.filter fun x => !inWindow x.1
  if (s.core core).l1.all fun l => !(cells.any fun x => x.1 / 128 == l.num) then s
  else s.updCore core fun c => { c with l1 := c.l1.map fun l => l.store cells }

/-! ### Stack cores at DRAM (R271) -/

/-- Before a stack core touches a line: a dirty line of an L2 may have been written back, by the device's choice. -/
def State.stackSettle (s : State) (pa : Nat) : State :=
  match s.l2Line pa with
  | some l => if l.dirty && s.choose 3 l.num then s.writeBack l.num else s
  | none => s

/-- A byte as the task of the instance whose turn it is reads it (R221): in DRAM, or as step 1 of its dispatch left an
input line that has changed since (R271). -/
def State.stackByte (s : State) (pa : Nat) : Byte :=
  if inWindow pa then s.windowByte pa
  else
    match findBy (fun (t : Task) => t.serial == s.inst.task) s.tasks with
    | some t => (cellAt t.kept pa).getD (s.dramByte pa)
    | none => s.dramByte pa

/-- Stores of a stack core: in DRAM; an L2 may go on holding the older line, by the device's choice (log 6). -/
def State.stackWrite (s : State) (cells : List (Nat × Byte)) : State :=
  let s := (distinct (cells.map fun c => c.1 / 128)).foldl (fun s num =>
    if !inWindow (num * 128) && (s.l2Line (num * 128)).isNone && (s.regionOf (num * 128)).isSome
        && s.choose 4 num then
      { s with l2 := insertBy Line.num (s.dramLine num) s.l2 }
    else s) s
  cells.foldl (fun s c =>
    if inWindow c.1 then s
    else
      match s.placeOf c.1 with
      | some p => { s with dram := s.dram.write p c.2 }
      | none => s) (s.keepInputs (some s.inst.task) (cells.map (·.1)))

end Sys2Proof.Machine
end

