-- ==== Sys2Proof/Machine/Xlat.lean ====
section
/-! DEFINITION. Translation: the five-level walk (R44, R45), contiguous groups (R46), cached translations of the 17
agents (R47), permissions, and the invalidation of translations (R48). -/

namespace Sys2Proof.Machine

open Sys2Proof

/-- What an access needs of a page (R45). -/
inductive Need where
  | read | write | fetch
deriving DecidableEq, Repr

/-- A context that is not FREE, by asid. -/
def State.ctx (s : State) (asid : Nat) : Option Ctx := findBy (fun c => c.asid == asid) s.ctxs

def State.updCtx (s : State) (asid : Nat) (f : Ctx → Ctx) : State :=
  { s with ctxs := updBy (fun c => c.asid == asid) f s.ctxs }

/-- Whether a context has feature n of FEAT_EN0 (R40). -/
def State.feature (s : State) (asid n : Nat) : Bool :=
  match s.ctx asid with
  | some c => (c.featEn.getD 0 0).getLsbD n
  | none => false

/-! ### The walk -/

/-- Bits hi..lo of a number. -/
def bits (x hi lo : Nat) : Nat := x / 2 ^ lo % 2 ^ (hi + 1 - lo)

/-- The page-table index of an address at a level (R44). -/
def ptIndex (va level : Nat) : Nat := bits va (20 + 9 * (level - 1)) (12 + 9 * (level - 1))

/-- An entry that R45 refuses at any level. -/
def pteBad (woad : Bool) (e : Nat) : Bool :=
  bits e 0 0 == 0 || bits e 63 52 != 0 || bits e 11 11 != 0 || bits e 6 4 != 0 || bits e 9 8 == 3
    || (bits e 2 2 == 1 && bits e 1 1 == 0) || (bits e 10 10 == 1 && !woad)

def pteIsPointer (e : Nat) : Bool := bits e 3 1 == 0

/-- The physical base that an entry names. -/
def pteBase (e : Nat) : Nat := bits e 51 12 * 4096

/-- A leaf as a cached translation. -/
def pteLeaf (agent asid va size base e : Nat) : TlbEntry :=
  { agent := agent, asid := asid, va := va / size * size, size := size, pa := base,
    r := bits e 1 1 == 1, w := bits e 2 2 == 1, x := bits e 3 3 == 1, mt := bits e 9 8, bad := none }

/-- A refusal of R45 as a cached translation of its 4 KiB page (R47). -/
def badEntry (agent asid va level : Nat) : TlbEntry :=
  { agent := agent, asid := asid, va := va / 4096 * 4096, size := 4096, pa := 0, r := false, w := false, x := false,
    mt := 0, bad := some level }

/-- The outcome of a walk: the translation and whether it may be cached, or the fault with the level of the entry. -/
abbrev WalkResult := Except (Cause × Nat) (TlbEntry × Bool)

/-- A page-table entry read at its home (R45), or why it cannot be read. -/
def State.readPte (s : State) (pa level : Nat) : Except (Cause × Nat) Nat :=
  if !s.covered pa then .error (.xlat, level)
  else if (s.badSector false pa 8).isSome then .error (.ue, level)
  else .ok (s.homeVal pa 8)

/-- A level-1 entry checked and applied (R45). -/
def leaf1 (woad : Bool) (agent asid va e off : Nat) (cache : Bool) (size : Nat) : WalkResult :=
  if pteBad woad e || pteIsPointer e then .error (.xlat, 1)
  else .ok (pteLeaf agent asid va size (pteBase e + off) e, cache)

/-- Level 1 of a walk, with the groups of R46: a group whose 16 entries agree is one 64 KiB page; in one whose
entries do not, the device uses the access's own entry or the group's first. -/
def State.walkLast (s : State) (woad : Bool) (agent asid va table : Nat) : WalkResult :=
  let i := ptIndex va 1
  match s.readPte (table + 8 * i) 1 with
  | .error f => .error f
  | .ok own =>
    match s.readPte (table + 8 * (i / 16 * 16)) 1 with
    | .error f => if bits own 7 7 == 1 then .error f else leaf1 woad agent asid va own 0 true 4096
    | .ok first =>
      if bits own 7 7 == 0 && bits first 7 7 == 0 then leaf1 woad agent asid va own 0 true 4096
      else if bits first 15 12 == 0 && (List.range 16).all fun k =>
          s.readPte (table + 8 * (i / 16 * 16 + k)) 1 == .ok (first + 4096 * k) then
        leaf1 woad agent asid va first 0 true 65536
      else if s.choose 5 va then leaf1 woad agent asid va own 0 false 4096
      else leaf1 woad agent asid va first (i % 16 * 4096) false 4096

/-- The walk of R44 and R45 from a table of a level, down to level 1. -/
def State.walkFrom (s : State) (woad : Bool) (agent asid va : Nat) : Nat → Nat → WalkResult
  | 0, _ => .error (.xlat, 0)
  | 1, table => s.walkLast woad agent asid va table
  | level + 1, table =>
    match s.readPte (table + 8 * ptIndex va (level + 1)) (level + 1) with
    | .error f => .error f
    | .ok e =>
      if pteBad woad e || bits e 7 7 == 1 then .error (.xlat, level + 1)
      else if pteIsPointer e then s.walkFrom woad agent asid va level (pteBase e)
      else if level + 1 == 2 && bits e 20 12 == 0 then .ok (pteLeaf agent asid va (2 ^ 21) (pteBase e) e, true)
      else .error (.xlat, level + 1)

/-- A fresh walk for a context (R44). -/
def State.walk (s : State) (agent asid va : Nat) : WalkResult :=
  match s.ctx asid with
  | some c => s.walkFrom (s.feature asid 2) agent asid va 5 c.ptRoot
  | none => .error (.xlat, 5)

/-! ### Cached translations -/

def TlbEntry.covers (e : TlbEntry) (agent asid va : Nat) : Bool :=
  e.agent == agent && e.asid == asid && decide (e.va ≤ va ∧ va < e.va + e.size)

def State.tlbAdd (s : State) (e : TlbEntry) : State := { s with tlb := e :: s.tlb }

def State.tlbDrop (s : State) (agent asid va : Nat) : State :=
  { s with tlb := s.tlb.filter fun e => !e.covers agent asid va }

/-- What a cached translation answers. -/
def TlbEntry.answer (e : TlbEntry) : Except (Cause × Nat) TlbEntry :=
  match e.bad with
  | some level => .error (.xlat, level)
  | none => .ok e

/-- The address of the entry of a level that a walk for va reads, from a table so many levels above it (R44). -/
def State.ptEntry (s : State) (va level : Nat) : Nat → Nat → Nat
  | 0, table => table + 8 * ptIndex va level
  | n + 1, table => s.ptEntry va level n (pteBase (s.homeVal (table + 8 * ptIndex va (level + n + 1)) 8))

/-- The poisoned entry of a level that a walk has met, in the error log (R45, R384): of a group of 16, the access's own
entry or the group's first (R46). -/
def State.logWalk (s : State) (asid va level : Nat) : State :=
  match s.ctx asid with
  | none => s
  | some c =>
    let own := s.ptEntry va level (5 - level) c.ptRoot
    s.logSector 2 (if (s.badSector false own 8).isSome then own else own - 8 * (ptIndex va level % 16)) asid 0xFFFFFFFF

/-- A fresh walk of an agent, its result kept where it may be (R46, R47): a translation, or the refusal of an entry. -/
def State.walkKept (s : State) (agent asid va : Nat) : Except (Cause × Nat) TlbEntry × State :=
  match s.walk agent asid va with
  | .ok (e, cache) => (.ok e, if cache then (s.tlbDrop agent asid va).tlbAdd e else s)
  | .error (c, level) =>
    (.error (c, level),
     if c == .xlat then (s.tlbDrop agent asid va).tlbAdd (badEntry agent asid va level) else s.logWalk asid va level)

/-- The translation an access of an agent uses (R47): a cached one, or that of a fresh walk, by the device's choice where
both are there. -/
def State.translate (s : State) (agent asid va : Nat) : Except (Cause × Nat) TlbEntry × State :=
  match findBy (fun e => e.covers agent asid va) s.tlb with
  | none => s.walkKept agent asid va
  | some c =>
    match s.walk agent asid va with
    | .ok (e, _) => if e == c || s.choose 6 va then (c.answer, s) else s.walkKept agent asid va
    | .error (x, level) =>
      if (x == .xlat && c.bad == some level) || s.choose 6 va then (c.answer, s) else s.walkKept agent asid va

/-- An agent caches what the tables give now, for no access (R47). -/
def State.prefetchWalk (s : State) (agent asid va : Nat) : State :=
  if agent < 17 && decide (va < 2 ^ 57) && (s.ctx asid).isSome then (s.walkKept agent asid va).2 else s

def TlbEntry.allows (e : TlbEntry) : Need → Bool
  | .read => e.r
  | .write => e.w
  | .fetch => e.x

/-- The physical address and memory type of an access, or its fault (R44, R45, R221). -/
def State.resolve (s : State) (agent asid va : Nat) (need : Need) : Except (Cause × Nat) (Nat × Nat) × State :=
  if decide (2 ^ 57 ≤ va) then (.error (.seg, 0), s)
  else
    match s.translate agent asid va with
    | (.error f, s) => (.error f, s)
    | (.ok e, s) =>
      if !e.allows need then (.error (.prot, 0), s)
      else if !s.covered (e.pa + (va - e.va)) then (.error (.xlat, 0), s)
      else (.ok (e.pa + (va - e.va), e.mt), s)

/-- The translation agents (R47): the command processor walks as the harbour die's. -/
def harbourAgent : Nat := 16

/-- The TRAP_INFO of an XLAT in the scalar stream (R356). -/
def xlatInfo (va level : Nat) : Word := BitVec.ofNat 64 (va % 2 ^ 57 + level * 2 ^ 57)

/-- The page that holds an address, as an agent holds it or as the tables give it: first address and size. -/
def State.pageOf (s : State) (agent asid va : Nat) : Nat × Nat :=
  match findBy (fun e => e.covers agent asid va && e.bad.isNone) s.tlb with
  | some e => (e.va, e.size)
  | none =>
    match s.walk agent asid va with
    | .ok (e, _) => (e.va, e.size)
    | .error _ => (va / 4096 * 4096, 4096)

/-- The pages that hold n bytes at an address, as first address and size: an access may cross into a second one. -/
def State.pagesOf (s : State) (agent asid va n : Nat) : List (Nat × Nat) :=
  if va % 4096 + n ≤ 4096 then [s.pageOf agent asid va]
  else [s.pageOf agent asid va, s.pageOf agent asid (va + n - 1)]

/-- Whether a context is ACTIVE and its DESTROY has not begun (R36). -/
def State.ctxActive (s : State) (asid : Nat) : Bool :=
  match s.ctx asid with
  | some c => c.state == .active && !c.destroying
  | none => false

/-- What one agent removes for an invalidation: every matching translation and, where it is a compute die, the
matching words of its cores' instruction caches (R48, R230). -/
def State.invalidate (s : State) (agent asid : Nat) (all : Bool) (va : Nat) : State :=
  let page := s.pageOf agent asid va
  { s with
    tlb := s.tlb.filter fun e => !(e.agent == agent && e.asid == asid && (all || e.covers agent asid va)),
    cores := s.cores.map fun c =>
      if c.id / 256 == agent then
        { c with code := c.code.filter fun w =>
            !(w.asid == asid && (all || decide (page.1 < w.va + w.len ∧ w.va < page.1 + page.2))) }
      else c }

end Sys2Proof.Machine
end

