-- ==== Sys2Proof/Machine/Pages.lean ====
section
/-! DEFINITION. Finding the units a gang belongs to, and the pages and banks of a crew: who holds a site, where a page's
bytes are (R234 to R237), and bytes by place. -/

namespace Sys2Proof.Machine

open Sys2Proof

/-! ### Looking up -/

def State.crew (s : State) (id : Nat) : Option Crew := findBy (fun c => c.id == id) s.crews

def State.updCrew (s : State) (id : Nat) (f : Crew → Crew) : State :=
  { s with crews := updBy (fun c => c.id == id) f s.crews }

def State.kernel (s : State) (serial : Nat) : Option Kernel := findBy (fun k => k.serial == serial) s.kernels

def State.updKernel (s : State) (serial : Nat) (f : Kernel → Kernel) : State :=
  { s with kernels := updBy (fun k => k.serial == serial) f s.kernels }

/-- Every gang, the one whose turn it is included. -/
def State.allGangs (s : State) : List Gang :=
  if s.g.status == .absent then s.gangs else s.g :: s.gangs

def State.gang (s : State) (r : GangRef) : Option Gang := findBy (fun g => g.ref == r) s.allGangs

def State.updGang (s : State) (r : GangRef) (f : Gang → Gang) : State :=
  if s.g.ref == r && s.g.status != .absent then { s with g := f s.g }
  else { s with gangs := updBy (fun g => g.ref == r) f s.gangs }

def State.mapGangs (s : State) (f : Gang → Gang) : State :=
  { s with g := if s.g.status == .absent then s.g else f s.g, gangs := s.gangs.map f }

/-- The list of the other gangs, in the order of their names. -/
def putAside (g : Gang) (l : List Gang) : List Gang :=
  if g.status == .absent then l else insertBy (fun x => x.ref.crew * 32 + x.ref.idx) g l

/-- A gang made the one whose turn it is; nothing where there is no such gang. -/
def State.bring (s : State) (r : GangRef) : State :=
  if s.g.ref == r && s.g.status != .absent then s
  else
    match findBy (fun g => g.ref == r) s.gangs with
    | none => s
    | some x => { s with g := x, gangs := putAside s.g (dropBy (fun g => g.ref == r) s.gangs) }

/-- A step of another gang, after which the turn is where it was. -/
def State.onGang (s : State) (r : GangRef) (f : State → State) : State :=
  if (s.gang r).isSome then (f (s.bring r)).bring s.g.ref else s

/-- What a step does to the shadow of a gang, by its leader's name, taken as the gang whose turn it is (R380). -/
def State.onShadow (s : State) (r : GangRef) (f : State → State) : State :=
  match findBy (fun (g : Gang) => g.ref == r) s.shadows with
  | none => s
  | some x => { s with shadows := updBy (fun (g : Gang) => g.ref == r) (fun _ => (f { s with g := x }).g) s.shadows }

/-- The gangs of a crew. -/
def State.crewGangs (s : State) (id : Nat) : List Gang := s.allGangs.filter fun g => g.ref.crew == id

/-- The crew of the gang whose turn it is. -/
def State.myCrew (s : State) : Option Crew := s.crew s.g.ref.crew

/-- The kernel of a crew. -/
def State.kernelOf (s : State) (crew : Nat) : Option Kernel :=
  match s.crew crew with
  | some c => s.kernel c.kernel
  | none => none

/-- The context of a crew. -/
def State.asidOf (s : State) (crew : Nat) : Nat :=
  match s.kernelOf crew with
  | some k => k.asid
  | none => 0

/-- The compute die, cluster index and logical rank of a core number. -/
def coreDie (core : Nat) : Nat := core / 256
def coreCluster (core : Nat) : Nat := core / 128
def corePhys (core : Nat) : Nat := core % 128

def State.coreRank (s : State) (core : Nat) : Nat := s.rankOf (coreCluster core) (corePhys core)

/-- The merged child a crew belongs to (R83), and its own CREW_ID. -/
def Crew.child (c : Crew) (k : Kernel) : Nat := if k.each == 0 then 0 else c.rank / k.each
def Crew.crewId (c : Crew) (k : Kernel) : Nat := if k.each == 0 then c.rank else c.rank % k.each

/-- The global crew number of a crew within its child (R70, R83). -/
def Crew.global (c : Crew) (k : Kernel) : Nat :=
  ((c.stage * 8 + c.die) * 2 + c.cluster) * k.each + c.crewId k

/-! ### Pages -/

def Page.byte (p : Page) (y : Nat) : Byte := p.cells.read y

/-- Cell (r, c) of a bank (R273). -/
def Page.cell (p : Page) (r c : Nat) : Bool := (p.cells.read (32 * r + c / 8)).getLsbD (c % 8)

def Page.setByte (p : Page) (y : Nat) (b : Byte) : Page :=
  { p with cells := p.cells.write y b, dirty := addNat p.dirty (y / 128) }

def Page.setCell (p : Page) (r c : Nat) (v : Bool) : Page :=
  let b := p.cells.read (32 * r + c / 8)
  let m : Byte := BitVec.twoPow 8 (c % 8)
  p.setByte (32 * r + c / 8) (if v then b ||| m else b &&& ~~~m)

def Col.zero : Col := { bp := [0, 0, 0, 0], acc := 0, scale := [0, 0, 0, 0], ovf := false, nan := false, poison := false }

def Page.col (p : Page) (c : Nat) : Col :=
  match findBy (fun (x : Nat × Col) => x.1 == c) p.cols with
  | some x => x.2
  | none => Col.zero

def insertCol (c : Nat) (v : Col) : List (Nat × Col) → List (Nat × Col)
  | [] => if v == Col.zero then [] else [(c, v)]
  | (k, x) :: rest =>
    if k < c then (k, x) :: insertCol c v rest
    else if k == c then (if v == Col.zero then rest else (c, v) :: rest)
    else if v == Col.zero then (k, x) :: rest else (c, v) :: (k, x) :: rest

def Page.setCol (p : Page) (c : Nat) (v : Col) : Page := { p with cols := insertCol c v p.cols }

/-- A page as its crew finds it at the start (R234, R235, R274). -/
def Page.fresh (site : Nat) (comp : Bool) (backing : Nat) : Page :=
  { site := site, comp := comp, state := .pinned, cells := [], poison := [], dirty := List.range 256, cols := [],
    owner := none, port := [], outside := [], backing := backing, moved := 0 }

def Crew.page (c : Crew) (h : Nat) : Option Page := c.pages[h]?

def State.page (s : State) (crew h : Nat) : Option Page := (s.crew crew).bind fun c => c.page h

def State.updPage (s : State) (crew h : Nat) (f : Page → Page) : State :=
  s.updCrew crew fun c =>
    match c.page h with
    | some p => { c with pages := c.pages.set h (f p) }
    | none => c

/-- The bank handle and bank byte of a scratch byte (R234). -/
def scratchHandle (banks e : Nat) : Nat := banks + e / 32768
def scratchByte (e : Nat) : Nat := e % 32768

/-- The crew and bank handle that hold a site of a core for a launch, a page in its bank before one that is saved
(R42, R237). -/
def State.siteHolder (s : State) (kernel core site : Nat) : Option (Nat × Nat) :=
  let hits := s.crews.filterMap fun c =>
    if c.kernel == kernel && c.core == core then
      match findBy (fun (x : Nat × Page) => x.2.site == site && x.2.state != .absent)
          ((List.range c.pages.length).zip c.pages) with
      | some x => some (c.id, x.1, x.2.state == .backed)
      | none => none
    else none
  match findBy (fun (x : Nat × Nat × Bool) => !x.2.2) hits with
  | some x => some (x.1, x.2.1)
  | none => hits.head?.map fun x => (x.1, x.2.1)

/-- Whether a site of a core is free (R234, R236): no crew holds it. -/
def State.siteFree (s : State) (core site : Nat) : Bool :=
  !(s.crews.any fun c => c.core == core
      && c.pages.any fun p => p.site == site && p.state != .absent && p.state != .backed)

/-- Where an access to a byte of a page goes (R237): the bank, its backing line, or nowhere yet. -/
inductive Where where
  | at_ (p : Place)
  | notYet
deriving DecidableEq, Repr

/-- R237, line by line: lines below `moved` are written back, or refilled, already. `own` is an access of the page's own
crew. -/
def pageWhere (crew h y : Nat) (own : Bool) (p : Page) : Where :=
  let done := decide (y / 128 < p.moved)
  match p.state with
  | .pinned => .at_ (.bank crew h y)
  | .backed => if own then .notYet else .at_ (.phys (p.backing + y))
  | .refilling =>
    if done then .at_ (.bank crew h y) else if own then .notYet else .at_ (.phys (p.backing + y))
  | .unpinning => if own || !done then .notYet else .at_ (.phys (p.backing + y))
  | .absent => .notYet

/-- An access of one bank operation that finds the port of its bank free (R279 to R282): no operation has arrived
before it and no gang holds step mode. -/
def Page.portFree (p : Page) : Bool := p.port.isEmpty && p.owner.isNone

/-- Where an S or P access goes: at the bank once its port is free. -/
def portWhere (crew h y : Nat) (own : Bool) (p : Page) : Where :=
  match pageWhere crew h y own p with
  | .at_ (.bank c h y) => if p.portFree then .at_ (.bank c h y) else .notYet
  | x => x

/-! ### Bytes by place -/

def State.placeByte (s : State) : Place → Byte
  | .phys pa => s.homeByte pa
  | .bank c h y =>
    match s.page c h with
    | some p => p.byte y
    | none => 0

/-- Whether the data of a place arrives poisoned; with `checked`, a failing check value counts (R376, R377). -/
def State.placeBad (s : State) (checked : Bool) : Place → Bool
  | .phys pa => s.homePoison pa || (checked && s.checkFails pa)
  | .bank c h y =>
    match s.page c h with
    | some p => p.poison.contains (y / 32)
    | none => false

/-- One write of bytes to bank places (R376): a row wholly covered loses its mark. -/
def State.writeBank (s : State) (cells : List (Place × Byte)) : State :=
  let s := cells.foldl (fun s x =>
    match x.1 with
    | .bank c h y => s.updPage c h fun p => p.setByte y x.2
    | .phys _ => s) s
  if s.crews.all fun c => c.pages.all fun p => p.poison.isEmpty then s
  else
    cells.foldl (fun s x =>
      match x.1 with
      | .bank c h y =>
        let same := distinct (cells.filterMap fun z =>
          match z.1 with
          | .bank c' h' y' => if c' == c && h' == h && y' / 32 == y / 32 then some y' else none
          | .phys _ => none)
        if same.length == 32 then
          s.updPage c h fun p => { p with poison := p.poison.filter fun r => r != y / 32 }
        else s
      | .phys _ => s) s

/-- The physical cells of a list of cells by place. -/
def physCells (cells : List (Place × Byte)) : List (Nat × Byte) :=
  cells.filterMap fun x =>
    match x.1 with
    | .phys pa => some (pa, x.2)
    | .bank _ _ _ => none

/-- One write of bytes by place: at their homes, or in their banks. -/
def State.writePlaces (s : State) (cells : List (Place × Byte)) : State :=
  let phys := physCells cells
  let s := if phys.isEmpty then s else s.writeHome phys
  if phys.length == cells.length then s else s.writeBank cells

/-- The sectors or rows of places marked poisoned. -/
def State.poisonPlaces (s : State) (ps : List Place) : State :=
  ps.foldl (fun s p =>
    match p with
    | .phys pa => s.markPoison pa true
    | .bank c h y => s.updPage c h fun p => { p with poison := addNat p.poison (y / 32) }) s

end Sys2Proof.Machine
end

