-- ==== Sys2Proof/Machine/Access.lean ====
section
/-! DEFINITION. The memory accesses of a gang: segments (R42), the checks of an access in the order of R121 and R195,
loads through the L1 or at their place (R196, R228), stores (R200, R228) and the held writes of a version (R366). -/

namespace Sys2Proof.Machine

open Sys2Proof

/-- The segments, by their codes (R43, R194). -/
inductive SegName where
  | g | s | p | c | l
deriving DecidableEq, Repr

def SegName.ofCode : Nat → Option SegName
  | 0 => some .g
  | 1 => some .s
  | 2 => some .p
  | 3 => some .c
  | 4 => some .l
  | _ => none

def Segs.get (x : Segs) : SegName → Seg
  | .g => x.g
  | .s => x.s
  | .p => x.p
  | .c => x.c
  | .l => x.l

def Segs.put (x : Segs) (n : SegName) (v : Seg) : Segs :=
  match n with
  | .g => { x with g := v }
  | .s => { x with s := v }
  | .p => { x with p := v }
  | .c => { x with c := v }
  | .l => { x with l := v }

/-- What checking one access gives: the places of its bytes with the memory type, a fault with the level of an XLAT,
or an access that cannot be made yet (R237). -/
inductive Chk where
  | ok (places : List Place) (mt : Nat)
  | fault (c : Cause) (level : Nat)
  | notYet
deriving DecidableEq, Repr

/-- The order of the data causes (R121). -/
def Cause.rank : Cause → Nat
  | .seg => 0
  | .align => 1
  | .bankmode => 2
  | .xlat => 3
  | .prot => 4
  | .ue => 5
  | _ => 6

def physRange (pa n : Nat) : List Place := (List.range n).map fun i => Place.phys (pa + i)

def bankRange (c h y n : Nat) : List Place := (List.range n).map fun i => Place.bank c h (y + i)

def whereRange (w : Where) (n : Nat) : Chk :=
  match w with
  | .at_ (.phys pa) => .ok (physRange pa n) 0
  | .at_ (.bank c h y) => .ok (bankRange c h y n) 0
  | .notYet => .notYet

/-- The virtual address of an offset through G or C, and of a lane's offset through L (R42). -/
def segVa (seg : Seg) (o : Nat) : Nat := (seg.base.toNat + o) % 2 ^ 64

def localVa (seg : Seg) (o lane : Nat) : Nat := (seg.base.toNat + o / 4 * 128 + 4 * lane + o % 4) % 2 ^ 64

def needOf (write : Bool) : Need := if write then .write else .read

/-- The places of two adjacent checked pieces as one access (R195). -/
def Chk.append : Chk → Chk → Chk
  | .ok a mt, .ok b _ => .ok (a ++ b) mt
  | .fault c l, .fault c' l' => if c'.rank < c.rank then .fault c' l' else .fault c l
  | .fault c l, _ => .fault c l
  | _, .fault c l => .fault c l
  | .notYet, _ => .notYet
  | _, .notYet => .notYet

/-- The bytes of an access at a that lie below the next multiple of a unit. -/
def untilUnit (unit a n : Nat) : Nat := min n (unit - a % unit)

/-- An access of n bytes of one page at a virtual address (R44, R45). -/
def State.checkPage (s : State) (g : Gang) (va n : Nat) (need : Need) : Chk × State :=
  match s.resolve (coreDie g.core) (s.asidOf g.ref.crew) va need with
  | (.ok (pa, mt), s) => (.ok (physRange pa n) mt, s)
  | (.error (c, level), s) => (.fault c level, s)

/-- An access of n bytes at a virtual address: an sgld base may carry one over a page boundary (R43), and then each page
is translated. -/
def State.checkVa (s : State) (g : Gang) (va n : Nat) (need : Need) : Chk × State :=
  let m := untilUnit 4096 va n
  if m == n then s.checkPage g va n need
  else
    match s.checkPage g va m need with
    | (a, s) =>
      match s.checkPage g (va + m) (n - m) need with
      | (b, s) => (a.append b, s)

/-- An access of n bytes within one bank at a scratch byte e of the gang's own crew (R195, R237, R279). -/
def State.checkBank (s : State) (g : Gang) (e n : Nat) : Chk :=
  match s.crew g.ref.crew, s.kernelOf g.ref.crew with
  | some c, some k =>
    match c.page (scratchHandle k.desc.banks e) with
    | some p =>
      if p.comp then .fault .bankmode 0
      else whereRange (portWhere c.id (scratchHandle k.desc.banks e) (scratchByte e) true p) n
    | none => .fault .seg 0
  | _, _ => .fault .seg 0

def State.checkScratch (s : State) (g : Gang) (e n : Nat) : Chk :=
  let m := untilUnit 32768 e n
  if m == n then s.checkBank g e n else (s.checkBank g e m).append (s.checkBank g (e + m) (n - m))

/-- Whether a scratch range leaves the crew's scratch pages (R42). -/
def State.scratchOut (s : State) (g : Gang) (e n : Nat) : Bool :=
  match s.kernelOf g.ref.crew with
  | some k => decide (k.desc.scratch * 8192 < e + n)
  | none => true

/-- Whether a peer range names no byte: e<19> set, or a rank the cluster has not (R42). -/
def State.peerOut (s : State) (g : Gang) (e n : Nat) : Bool :=
  decide (2 ^ 27 < e + n) || e / 2 ^ 19 % 2 == 1 || (s.physOf (coreCluster g.core) (e / 2 ^ 20)).isNone
    || (e + n - 1) / 2 ^ 19 % 2 == 1

/-- Whether the bank at a site that another launch holds is in compute mode (R237). -/
def State.siteComp (s : State) (core site : Nat) : Bool :=
  s.crews.any fun c => c.core == core
    && c.pages.any fun p => p.site == site && p.state != .absent && p.state != .backed && p.comp

/-- An access of n bytes within one bank site at a peer byte e (R42, R195, R237, R279): a bank in compute mode is
BANKMODE, then a page of no crew of the launch PROT. -/
def State.checkSite (s : State) (g : Gang) (e n : Nat) : Chk :=
  match s.crew g.ref.crew, s.physOf (coreCluster g.core) (e / 2 ^ 20) with
  | some c, some p =>
    let core := coreCluster g.core * 128 + p
    let site := e / 2 ^ 15 % 16
    match (s.siteHolder c.kernel core site).bind fun x => (s.page x.1 x.2).map fun pg => (x, pg) with
    | none => .fault (if s.siteComp core site then .bankmode else .prot) 0
    | some (x, pg) =>
      if pg.comp then .fault .bankmode 0
      else whereRange (portWhere x.1 x.2 (e % 2 ^ 15) (x.1 == g.ref.crew) pg) n
  | _, _ => .fault .seg 0

def State.checkPeer (s : State) (g : Gang) (e n : Nat) : Chk :=
  let m := untilUnit 32768 e n
  if m == n then s.checkSite g e n else (s.checkSite g e m).append (s.checkSite g (e + m) (n - m))

/-- Whether an offset of a segment is SEG (R42, R44): beyond the limit, or an address the segment cannot form. -/
def State.segOut (s : State) (g : Gang) (seg : SegName) (lane o n : Nat) : Bool :=
  let r := g.segs.get seg
  decide (r.limit.toNat < o + n) ||
    (match seg with
     | .g | .c => decide (2 ^ 57 ≤ segVa r o)
     | .l => decide (2 ^ 57 ≤ localVa r o lane)
     | .s => s.scratchOut g (segVa r o) n
     | .p => s.peerOut g (segVa r o) n)

/-- A store through C that translates is PROT, before the error of a walk (R42, R121). -/
def Chk.constStore : Chk → Chk
  | .ok _ _ => .fault .prot 0
  | .fault .ue _ => .fault .prot 0
  | x => x

/-- One access of n bytes at offset o through a segment by a lane, checked in the order SEG, ALIGN, BANKMODE or XLAT,
PROT, UE (R42, R121, R195). `two` allows 8 bytes through L as two words. A write through C is PROT where another
segment would be SEG, and also within the limit (R42). -/
def State.check (s : State) (g : Gang) (seg : SegName) (lane o n : Nat) (write two : Bool) : Chk × State :=
  let r := g.segs.get seg
  let out := s.segOut g seg lane o n
  let cWrite := seg == .c && write
  if out && !cWrite then (.fault .seg 0, s)
  else if o % n != 0 || (seg == .l && n == 8 && !two) then (.fault .align 0, s)
  else if out then (.fault .prot 0, s)
  else
    match seg with
    | .g => s.checkVa g (segVa r o) n (needOf write)
    | .c =>
      match s.checkVa g (segVa r o) n .read with
      | (x, s) => (if write then x.constStore else x, s)
    | .l =>
      if n == 8 then
        match s.checkVa g (localVa r o lane) 4 (needOf write) with
        | (a, s) =>
          match s.checkVa g (localVa r (o + 4) lane) 4 (needOf write) with
          | (b, s) => (a.append b, s)
      else s.checkVa g (localVa r o lane) n (needOf write)
    | .s => (s.checkScratch g (segVa r o) n, s)
    | .p => (s.checkPeer g (segVa r o) n, s)

/-! ### Versions -/

/-- The held byte of a crew's open version at a physical address (R366). -/
def State.heldByte (s : State) (crew pa : Nat) : Option Byte :=
  match s.crew crew with
  | some c => cellAt c.version.held pa
  | none => none

def State.versionOpen (s : State) (crew : Nat) : Bool :=
  match s.crew crew with
  | some c => c.version.opened
  | none => false

/-- Distinct lines of held cells. -/
def heldLines (cells : List (Nat × Byte)) : List Nat := distinct (cells.map fun c => c.1 / 128)

/-- Whether the held lines homed on some die would exceed the capacity of R369 with more cells held. -/
def State.holdFull (s : State) (crew : Nat) (cells : List (Nat × Byte)) : Bool :=
  match s.crew crew with
  | none => false
  | some c =>
    let fresh := (heldLines cells).filter fun l => !(c.version.held.any fun x => x.1 / 128 == l)
    fresh.any fun l =>
      let d := s.homeDie (l * 128)
      decide (131072 < sumNat (s.crews.map fun c => ((heldLines c.version.held).filter
        fun x => s.homeDie (x * 128) == d).length) + (fresh.filter fun x => s.homeDie (x * 128) == d).length)

/-- Poisoned 32-byte sectors of held data after a write of cells (R376): those wholly written lose the mark. -/
def stillBad (bad : List Nat) (cells : List (Nat × Byte)) : List Nat :=
  bad.filter fun n => (distinct ((cells.filter fun x => x.1 / 32 == n).map (·.1))).length != 32

/-- Writes held in the open version of a crew (R366); the harbour window takes none (R221). `direct` marks lines
written with MT 2 (R229). -/
def State.hold (s : State) (crew : Nat) (direct : Bool) (cells : List (Nat × Byte)) : State :=
  let cells := cells.filter fun x => !inWindow x.1
  s.updCrew crew fun c =>
    { c with version := { c.version with
        held := cells.foldl (fun h x => cellPut h x.1 x.2) c.version.held,
        bad := if c.version.bad.isEmpty then [] else stillBad c.version.bad cells,
        direct := if direct then (heldLines cells).foldl addNat c.version.direct else c.version.direct } }

/-- Held bytes marked poisoned, by their sectors (R376, R378). -/
def State.holdPoison (s : State) (crew : Nat) (pas : List Nat) : State :=
  s.updCrew crew fun c =>
    { c with version := { c.version with bad := pas.foldl (fun l pa => addNat l (pa / 32)) c.version.bad } }

/-- One commit point (R367, R178): every held write made visible; `closes` leaves no version open. -/
def State.commitVersion (s : State) (crew : Nat) (closes : Bool) : State :=
  match s.crew crew with
  | none => s
  | some c =>
    if !c.version.opened then s
    else
      let s := s.updCrew crew fun c =>
        { c with version := { c.version with held := [], bad := [], direct := [], opened := !closes,
                                             commits := (c.version.commits + 1) % 256 } }
      let s := (s.l1Store c.core c.version.held).writeHome c.version.held
      let s := c.version.bad.foldl (fun s n => s.markPoison (32 * n) true) s
      s.uncache c.version.direct

/-! ### Loads and stores -/

/-- How a load reads physical memory: through the core's L1, or at its place (R196, R228). -/
def viaL1 (mt : Nat) (bypass : Bool) : Bool := mt == 0 && !bypass

/-- A byte as a gang reads it: its crew's held write, its core's L1 line, or its place. -/
def State.gangByte (s : State) (crew core : Nat) (l1 : Bool) : Place → Byte
  | .phys pa => (s.heldByte crew pa).getD (s.coreByte core l1 pa)
  | .bank c h y => s.placeByte (.bank c h y)

/-- Whether a held byte of a crew's open version lies in a poisoned sector (R376). -/
def State.heldBad (s : State) (crew pa : Nat) : Bool :=
  match s.crew crew with
  | some c => c.version.bad.contains (pa / 32) && (cellAt c.version.held pa).isSome
  | none => false

/-- Whether a byte a gang reads is in poisoned data (R376 to R378). -/
def State.gangBad (s : State) (crew core : Nat) (l1 : Bool) : Place → Bool
  | .phys pa =>
    s.heldBad crew pa ||
    ((s.heldByte crew pa).isNone &&
      (match (if l1 then s.l1Line core pa else none) with
       | some l => l.poison.contains (pa % 128 / 32) || l.mism.contains (pa % 128 / 32)
       | none => s.placeBad true (.phys pa)))
  | .bank c h y => s.placeBad true (.bank c h y)

/-- Whether what makes a byte bad for its reader is its check value alone (R377). -/
def State.badCheck (s : State) (core : Nat) (l1 : Bool) : Place → Bool
  | .phys pa =>
    match (if l1 then s.l1Line core pa else none) with
    | some l => !l.poison.contains (pa % 128 / 32) && l.mism.contains (pa % 128 / 32)
    | none => !s.homePoison pa && s.checkFails pa
  | .bank _ _ _ => false

/-- The lines of the L1 that a load brings in (R228); one that performs at its place invalidates the matching line (R263);
clean lines of an L2 may have been evicted before (log 6). -/
def State.touch (s : State) (core : Nat) (l1 : Bool) (places : List Place) : State :=
  (distinct (places.filterMap fun p =>
    match p with
    | .phys pa => some (pa / 128)
    | .bank _ _ _ => none)).foldl (fun s n =>
      let s := if s.l2.isEmpty then s else s.settleLine (n * 128)
      if l1 then s.l1Fill core (n * 128) else s.l1Drop core n) s

/-- A gang's stores of one instruction: held in its open version (G and L, R366), else written through (R228); bank
bytes at the bank. A store of MT 2 leaves nothing in an L2 (R229). -/
def State.gangWrite (s : State) (crew core : Nat) (held : Bool) (mt : Nat) (cells : List (Place × Byte)) : State :=
  if held && s.versionOpen crew then s.hold crew (mt == 2) (physCells cells)
  else
    let phys := physCells cells
    let s := if phys.isEmpty then s else (s.l1Store core phys).writeHome phys
    let s := if mt == 2 then s.uncache (heldLines phys) else s
    if phys.length == cells.length then s else s.writeBank cells

/-- Data of a gang that arrives poisoned marks what it was written to (R376): held bytes in the version, others at their
place. -/
def State.gangPoison (s : State) (held : Bool) (ps : List Place) : State :=
  if ps.isEmpty then s
  else if held && s.versionOpen s.g.ref.crew then
    s.holdPoison s.g.ref.crew (ps.filterMap fun p => match p with
      | .phys pa => some pa
      | .bank _ _ _ => none)
  else s.poisonPlaces ps

/-- The bytes of places with what they hold now, for the undo log (R372). -/
def State.oldBytes (s : State) (crew core : Nat) (cells : List (Place × Byte)) : List (Place × Byte) :=
  cells.map fun c => (c.1, s.gangByte crew core false c.1)

end Sys2Proof.Machine
end

