-- ==== Sys2Proof/Machine/Finish.lean ====
section
/-! DEFINITION. Ending work: done blocks (R59), queue states (R65), completion records and failure lists (R79), crews
that end and crews that fail (R86), and barriers as they complete phases (R321, R322). -/

namespace Sys2Proof.Machine

open Sys2Proof

/-- The codes of R352. -/
def Cause.code : Cause → Nat
  | .ill => 1
  | .opnd => 2
  | .latch => 3
  | .seg => 4
  | .xlat => 5
  | .align => 6
  | .prot => 7
  | .priv => 8
  | .spill => 9
  | .fill => 10
  | .deadlock => 11
  | .bankmode => 12
  | .fmt => 13
  | .mcast => 14
  | .version => 15
  | .ue => 16
  | .sdc => 17
  | .divstack => 18
  | .brk => 19

/-! ### The command processor's accesses in a context -/

/-- Consecutive virtual bytes of a context, at most 4,096, as the command processor reaches them (R58, R272): their
physical addresses, or the first fault. -/
def State.cpResolve (s : State) (asid va n : Nat) (need : Need) : Except (Cause × Nat) (List Nat) × State :=
  let m := min n (4096 - va % 4096)
  match s.resolve harbourAgent asid va need with
  | (.error f, s) => (.error f, s)
  | (.ok (pa, _), s) =>
    let a := (List.range m).map fun i => pa + i
    if m == n then (.ok a, s)
    else
      match s.resolve harbourAgent asid (va + m) need with
      | (.error f, s) => (.error f, s)
      | (.ok (pb, _), s) => (.ok (a ++ (List.range (n - m)).map fun i => pb + i), s)

/-- A write of the command processor at a virtual address of a context, or none where it faults (R79). -/
def State.cpWrite (s : State) (asid va : Nat) (bytes : List Byte) : Option State :=
  match s.cpResolve asid va bytes.length .write with
  | (.ok pas, s) => some (s.writeHome (pas.zip bytes))
  | (.error _, _) => none

/-- A read of the command processor at a virtual address of a context: its bytes, or the fault; UE where the data
arrives poisoned (R58). -/
def State.cpRead (s : State) (asid va n : Nat) : Except (Cause × Nat) (List Byte) × State :=
  match s.cpResolve asid va n .read with
  | (.ok pas, s) =>
    match findBy (fun a => s.homePoison a) pas with
    | some a => (.error (.ue, 0), s.logSector 2 a asid 0xFFFFFFFF)
    | none => (.ok (pas.map s.homeByte), s)
  | (.error f, s) => (.error f, s)

/-! ### Queues -/

def Ctx.queue (c : Ctx) (n : Nat) : Option Queue := findBy (fun q => q.num == n) c.queues

def State.queue (s : State) (asid n : Nat) : Option Queue := (s.ctx asid).bind fun c => c.queue n

def State.updQueue (s : State) (asid n : Nat) (f : Queue → Queue) : State :=
  s.updCtx asid fun c => { c with queues := updBy (fun q => q.num == n) f c.queues }

def QueueState.code : QueueState → Nat
  | .off => 0
  | .idle => 1
  | .active => 2
  | .blocked => 3
  | .halted => 4
  | .error => 5

/-- The queue table entry of a queue (R51). -/
def State.queueEntry (s : State) (asid n : Nat) : Nat :=
  match s.ctx asid with
  | some c => c.queueTable + 64 * n
  | none => 0

/-- A queue put in a state, and the state field of its entry written (R65). -/
def State.setQueueState (s : State) (asid n : Nat) (st : QueueState) : State :=
  match s.queue asid n with
  | none => s
  | some q =>
    if q.state == st then s
    else
      (s.updQueue asid n fun q => { q with state := st }).writeHomeBytes (s.queueEntry asid n + 0x20)
        (leBytes 4 st.code)

/-- QUEUE_ERROR (R65): the queue enters ERROR, error and error_idx written. -/
def State.queueError (s : State) (asid n err idx : Nat) : State :=
  let e := s.queueEntry asid n
  (((s.setQueueState asid n .error).updQueue asid n fun q => { q with error := err, errorIdx := idx }).writeHomeBytes
    (e + 0x24) (leBytes 4 err)).writeHomeBytes (e + 0x28) (leBytes 8 idx)

/-- A field of a command (R56, R57). -/
def Cmd.fieldAt (c : Cmd) (o n : Nat) : Nat := leNat ((c.bytes.drop o).take n)

def Cmd.op (c : Cmd) : Nat := c.fieldAt 0 1
def Cmd.barrier (c : Cmd) : Bool := c.fieldAt 1 1 % 2 == 1
def Cmd.skipFail (c : Cmd) : Bool := c.fieldAt 1 1 / 2 % 2 == 1

/-- Whether a fetched command can start (R60): the commands before it that are not complete number fewer than 16,
and none is left before a BARRIER, a SKIPFAIL or a SIGNAL. Commands start in index order. -/
def Queue.canStart (q : Queue) (c : Cmd) : Bool :=
  let before := q.cmds.filter fun x => x.index < c.index
  !c.started && before.all (fun x => x.started) && decide (before.length < 16)
    && (before.isEmpty || !(c.barrier || c.skipFail || c.op == 5))

/-- The state of a queue that fetches (R65). -/
def State.refreshQueue (s : State) (asid n : Nat) : State :=
  match s.queue asid n with
  | none => s
  | some q =>
    match q.state with
    | .off => s
    | .halted => s
    | .error => s
    | _ =>
      match findBy (fun c => !c.started) q.cmds with
      | some c => s.setQueueState asid n (if q.canStart c then .active else .blocked)
      | none => s.setQueueState asid n (if q.cmds.isEmpty then .idle else .active)

/-- A done block (R59): bytes +0x08 to +0x0F, then done_val. -/
def doneBlock (status cause tag doneVal : Nat) : List Byte × List Byte :=
  (leBytes 1 status ++ leBytes 1 cause ++ leBytes 2 0 ++ leBytes 4 tag, leBytes 8 doneVal)

/-- DONE_BLOCK_WRITE: a command completes with a status (R59, R61, R65). A write of its done block that faults moves the
queue to ERROR from whatever state it is in (log 78). -/
def State.completeCommand (s : State) (asid n index status cause : Nat) : State :=
  match s.queue asid n with
  | none => s
  | some q =>
    match findBy (fun c => c.index == index) q.cmds with
    | none => s
    | some c =>
      let s := s.updQueue asid n fun q =>
        { q with cmds := dropBy (fun c => c.index == index) q.cmds,
                 failed := if c.op == 5 then false else q.failed || status != 0 }
      let addr := c.fieldAt 8 8
      if addr == 0 then s.refreshQueue asid n
      else
        let b := doneBlock status (if status == 1 then cause else 0) (c.fieldAt 4 4) (c.fieldAt 16 8)
        if addr % 16 != 0 then s.refreshQueue asid n
        else
          match s.cpWrite asid (addr + 8) b.1 with
          | some s =>
            match s.cpWrite asid addr b.2 with
            | some s => s.refreshQueue asid n
            | none => s.queueError asid n 4 index
          | none => s.queueError asid n 4 index

/-! ### Kernels -/

/-- Statuses of a completion record (R79). -/
inductive KStatus where
  | ok | failed | badrec | feature | xlat | aborted | ue
deriving DecidableEq, Repr

def KStatus.code : KStatus → Nat
  | .ok => 0
  | .failed => 1
  | .badrec => 2
  | .feature => 3
  | .xlat => 4
  | .aborted => 5
  | .ue => 6

/-- The done-block status of a LAUNCH (R79, R59). -/
def KStatus.doneCode : KStatus → Nat
  | .ok => 0
  | .failed => 1
  | .badrec => 2
  | .feature => 4
  | .xlat => 3
  | .aborted => 6
  | .ue => 7

/-- The places of one child's crews in the grid: (stage, die, cluster) (R70). -/
def LaunchRec.grid (d : LaunchRec) : List (Nat × Nat × Nat) :=
  (List.range d.stages).flatMap fun st =>
    ((List.range 8).filter fun die => (d.stageMasks.getD st 0) / 2 ^ die % 2 == 1).flatMap fun die =>
      ((List.range 2).filter fun c => d.clusterMask / 2 ^ c % 2 == 1).map fun c => (st, die, c)

/-- The crews of one child of a kernel. -/
def Kernel.childCrews (k : Kernel) : Nat := k.desc.grid.length * k.each

/-- The first failing crew of a child and its cause (R79). -/
def Child.first (c : Child) : Nat :=
  match c.fails.head? with
  | some x => x.2.1
  | none => 0xFFFFFFFF

def Child.cause (c : Child) : Nat :=
  match c.fails.head? with
  | some x => x.2.2
  | none => 0

/-- The completion record of a child (R79): every field but status and the failure list, then status. A write that
faults is dropped. -/
def State.writeCompletion (s : State) (asid : Nat) (c : Child) (st : KStatus) : State :=
  let va := c.completion.toNat
  if va == 0 || va % 64 != 0 then s
  else
    let body := leBytes 4 c.completed ++ leBytes 4 c.fails.length
      ++ leBytes 4 c.first ++ leBytes 1 c.cause ++ leBytes 1 0
      ++ leBytes 2 (min 65535 c.deadLanes) ++ leBytes 4 0
    match s.cpWrite asid (va + 4) body with
    | none => s
    | some s =>
      match s.cpWrite asid (va + 0x20) (List.replicate 32 0) with
      | none => s
      | some s => (s.cpWrite asid va (leBytes 4 st.code)).getD s

/-- The report of an ended child: its completion record, then the done block of a LAUNCH (R79). -/
def State.reportChild (s : State) (k : Kernel) (j : Nat) (st : KStatus) : State :=
  match k.children[j]? with
  | none => s
  | some c =>
    let s := s.writeCompletion k.asid c st
    match k.owner with
    | some (.command asid q index) => s.completeCommand asid q index st.doneCode c.cause
    | _ => s

/-- Entry i of a failure list written (R79). -/
def State.writeFailure (s : State) (asid : Nat) (c : Child) (i : Nat) : State :=
  match c.fails[i]? with
  | none => s
  | some x =>
    if c.failList == 0 then s
    else (s.cpWrite asid (c.failList + 8 * i) (leBytes 4 x.2.1 ++ leBytes 1 x.2.2 ++ leBytes 3 0)).getD s

/-- A failed crew in the order of R79: by the cycle of its failure, crews of one cycle by their global numbers. -/
def Child.addFailure (c : Child) (cycle global cause : Nat) : Child :=
  { c with fails := insertBy (fun x => x.1 * 2 ^ 32 + x.2.1) (cycle, global, cause) c.fails }

def setNth {α : Type} (l : List α) (i : Nat) (f : α → α) : List α :=
  match l[i]? with
  | some x => l.set i (f x)
  | none => l

/-- A crew of a child counted (R79, R80): completed, or failed with a cause in some cycle. `cause` 0 counts it
completed. -/
def State.countCrew (s : State) (serial j global cause cycle dead : Nat) : State :=
  match s.kernel serial with
  | none => s
  | some k =>
    match k.children[j]? with
    | none => s
    | some c =>
      let c' : Child := { c with ended := c.ended + 1, deadLanes := c.deadLanes + dead }
      let c' : Child := if cause == 0 then { c' with completed := c.completed + 1 } else c'.addFailure cycle global cause
      let all := c'.ended == k.childCrews
      let c' : Child := { c' with reported := all }
      let s := (List.range c'.fails.length).foldl (fun s i =>
        if c'.fails[i]? == c.fails[i]? then s else s.writeFailure k.asid c' i) s
      let k := { k with children := k.children.set j c', unended := k.unended - 1 }
      let s := s.updKernel serial fun _ => k
      let s := if all then s.reportChild k j (if c'.fails.isEmpty then .ok else .failed) else s
      if k.unended == 0 then { s with kernels := dropBy (fun x => x.serial == serial) s.kernels } else s

/-! ### Barriers -/

def barMatch (level dom num : Nat) (b : Barrier) : Bool := b.level == level && b.dom == dom && b.num == num

def State.barrier (s : State) : BarAt → Option Barrier
  | .crew id num => (s.crew id).bind fun c => findBy (barMatch 0 0 num) c.barriers
  | .kernel serial level dom num => (s.kernel serial).bind fun k => findBy (barMatch level dom num) k.barriers

/-- A gang that waits for a phase which has completed goes on, whatever phases follow (R322). -/
def Wait.release (a : BarAt) (phase : Bool) : Wait → Wait
  | .barrier x token => if x == a && token != phase then .passed none else .barrier x token
  | .arrived x token => if x == a && token != phase then .passed (some token) else .arrived x token
  | w => w

def State.releaseWaiters (s : State) (a : BarAt) (phase : Bool) : State :=
  s.mapGangs fun g =>
    { g with wait := g.wait.map (Wait.release a phase),
             kept := g.kept.map fun (x : Word × Wait) => (x.1, x.2.release a phase) }

/-- A barrier changed, where it is listed; the gangs that wait for a phase which this completes are released (R322). -/
def State.updBarrier (s : State) (a : BarAt) (f : Barrier → Barrier) : State :=
  match s.barrier a with
  | none => s
  | some b =>
    let s :=
      match a with
      | .crew id num => s.updCrew id fun c => { c with barriers := updBy (barMatch 0 0 num) f c.barriers }
      | .kernel serial level dom num =>
        s.updKernel serial fun k => { k with barriers := updBy (barMatch level dom num) f k.barriers }
    if (f b).phase == b.phase then s else s.releaseWaiters a (f b).phase

/-- A phase that completes (R321). -/
def Barrier.advance (b : Barrier) : Barrier :=
  if b.arr == b.memb && b.memb != 0 && b.tx == 0 && !b.excess then
    { b with phase := !b.phase, arr := 0, memb := b.next.getD b.memb, next := none }
  else b

/-- The count-down of a landed copy (R251, R322). -/
def Barrier.countDown (b : Barrier) (bytes : Nat) : Barrier :=
  let t := b.tx - (bytes : Int)
  ({ b with tx := if t < -((2 ^ 39 : Int) - 1) then -((2 ^ 39 : Int) - 1) else t } : Barrier).advance

/-- A gang's end at its crew's barriers (R322). -/
def Barrier.leave (b : Barrier) (idx : Nat) : Barrier :=
  let m : Half := BitVec.twoPow 32 idx
  if b.level == 0 && b.memb &&& m != 0 then
    ({ b with memb := b.memb &&& ~~~m, arr := b.arr &&& ~~~m, next := b.next.map (fun n => n &&& ~~~m) } : Barrier).advance
  else b

/-! ### Crews that end -/

/-- Whether work that an ended crew's gangs issued, or an mtx or mdrain of a peer on its pages, is still to complete
(R86, R318). -/
def State.crewBusy (s : State) (id : Nat) : Bool :=
  (s.copies.any fun c => c.gang.crew == id && !c.squashed)
    || (s.mxs.any fun m => m.gang.crew == id || m.pages.any fun x => x.1 == id)
    || ((s.crewGangs id).any fun g => g.ust != 0)
    || (match s.crew id with
        | some c => c.pages.any fun p => !(p.port.isEmpty && p.outside.isEmpty)
        | none => false)

/-- Every gang of a crew removed, and its requests for units with them. -/
def State.dropGangs (s : State) (id : Nat) : State :=
  { s with
    gangs := s.gangs.filter fun g => g.ref.crew != id,
    shadows := s.shadows.filter fun g => g.ref.crew != id,
    g := if s.g.ref.crew == id then Gang.empty else s.g,
    focus := match s.focus with
      | .gang r => if r.crew == id then .idle else s.focus
      | f => f,
    cores := s.cores.map fun c =>
      { c with grants := c.grants.filter fun x => x.gang.crew != id, queue := c.queue.filter fun x => x != id,
               shadowBank := c.shadowBank.filter fun x => x != id } }

/-- A crew reaches DONE (R86): its slots, units, sites and pages are free, and it is counted (R79); `counted` is
false where R86 leaves it uncounted. -/
def State.crewDone (s : State) (id : Nat) (counted : Bool) : State :=
  match s.crew id, s.kernelOf id with
  | some c, some k =>
    let dead := sumNat ((s.crewGangs id).map fun g => popcount 32 g.dead.toNat)
    let s := s.dropGangs id
    let s := { s with crews := dropBy (fun x => x.id == id) s.crews,
                      copies := s.copies.filter fun x => x.gang.crew != id }
    if counted then s.countCrew k.serial (c.child k) (c.global k) c.cause c.failAt dead else s
  | _, _ => s

/-- Whether a copy names a page of a crew: a source or a destination byte of it. -/
def State.copyNames (s : State) (c : CopyOp) (crew h : Nat) : Bool :=
  let here : Place → Bool
    | .bank x y _ => x == crew && y == h
    | .phys _ => false
  match c.act with
  | .lanes items _ _ _ _ => items.any fun x => x.2.1.any here || x.2.2.any here
  | .transpose items _ _ _ _ _ => items.any fun x => x.2.1.any here || (c.gang.crew == crew && x.1 == h)
  | .multicast src bytes _ _ _ _ _ _ _ =>
    c.gang.crew == crew &&
      (match s.kernelOf crew with
       | some k => (List.range (bytes / 128)).any fun i => scratchHandle k.desc.banks (src + 128 * i) == h
       | none => false)

/-- Whether work that names a page is neither complete nor squashed (R235). -/
def State.pageBusy (s : State) (crew h : Nat) (p : Page) : Bool :=
  !(p.port.isEmpty && p.outside.isEmpty) || (s.mxs.any fun m => m.pages.contains (crew, h))
    || s.copies.any fun c => !c.squashed && s.copyNames c crew h

/-- The pages of a saved crew unpin as the work that names them ends (R235, R360). -/
def State.unpin (s : State) (c : Crew) : State :=
  s.updCrew c.id fun c =>
    { c with pages := (List.range c.pages.length).zip c.pages |>.map fun x =>
        if x.2.state == .pinned && !s.pageBusy c.id x.1 x.2 then { x.2 with state := PageState.unpinning } else x.2 }

/-- A failing crew whose issued work is complete is DONE (R86); the pages of a saved one unpin (R235). -/
def State.settleCrew (s : State) (id : Nat) : State :=
  match s.crew id with
  | some c =>
    if c.state == .failing && !s.crewBusy id then s.crewDone id true
    else if c.state == .saved then s.unpin c
    else s
  | none => s

/-- Every crew whose work may have come to its end. -/
def State.settleAll (s : State) : State := (s.crews.map Crew.id).foldl State.settleCrew s

/-- A gang stopped for good by its crew's failure. -/
def Gang.stop (g : Gang) : Gang :=
  { g with status := .ended, wait := none, pend := [], lane := LaneStream.empty, haltTrap := false, stepOne := none,
           trail := [], early := [] }

/-- Step mode ends at a bank: what waited before the port is accepted (R282). -/
def Page.endStep (p : Page) : Page := { p with owner := none, port := p.port ++ p.outside, outside := [] }

/-- Work that a crew's gangs have issued and that has not performed is given up (R382). -/
def State.dropWork (s : State) (id : Nat) : State :=
  let mine (p : Page) : Page :=
    { p with port := p.port.filter fun o => o.gang.crew != id, outside := p.outside.filter fun o => o.gang.crew != id }
  { s with
    copies := s.copies.filter fun c => c.gang.crew != id,
    mxs := s.mxs.filter fun m => m.gang.crew != id,
    crews := s.crews.map fun c => { c with pages := c.pages.map mine },
    g := if s.g.ref.crew == id then { s.g with ust := 0 } else s.g,
    gangs := s.gangs.map fun g => if g.ref.crew == id then { g with ust := 0 } else g }

/-- A crew fails with a cause (R86): every gang ends, its open version is discarded and G writes of its copies that have
not landed are dropped (R368), and it is DONE once the work its gangs issued is complete. After SDC no work that had
not performed performs (R382). -/
def State.failCrew (s : State) (id cause : Nat) : State :=
  let now := s.cycle
  let versioned := match s.crew id with
    | some c => c.version.versioned
    | none => false
  let s := s.updCrew id fun c =>
    { c with state := .failing, cause := cause, failAt := now, pages := c.pages.map Page.endStep,
             version := { c.version with held := [], bad := [], direct := [], opened := false } }
  let s := if versioned then
      { s with copies := s.copies.map fun c => if c.gang.crew == id then { c with void := true } else c }
    else s
  let s := if cause == Cause.sdc.code then s.dropWork id else s
  let s := s.mapGangs fun g => if g.ref.crew == id then g.stop else g
  State.settleCrew { s with cores := s.cores.map fun (c : Core) =>
    ({ c with grants := c.grants.filter fun x => x.gang.crew != id } : Core) } id

end Sys2Proof.Machine
end

