-- ==== Sys2Proof/Machine/Ops.lean ====
section
/-! DEFINITION. The shared operations of a gang's instructions: its registers (R127), what an instruction answers,
waiting (R127, R152), the undo log (R372), taking a trap (R353, R355) and the return from one (R354, R165). -/

namespace Sys2Proof.Machine

open Sys2Proof

/-! ### Scalar registers -/

/-- k[i]: k0 reads 0 (R127). -/
def Gang.getK (g : Gang) (i : Reg) : Word := if i == 0 then 0 else g.k.getD i.toNat 0

/-- k[i] := x; a write to k0 is discarded (R127), and a write of another clears its error mark. -/
def Gang.setK (g : Gang) (i : Reg) (x : Word) : Gang :=
  if i == 0 then g
  else { g with k := g.k.set i.toNat x, kPoison := g.kPoison.filter fun r => r != i.toNat }

def State.getK (s : State) (i : Reg) : Word := s.g.getK i

def State.setK (s : State) (i : Reg) (x : Word) : State := { s with g := s.g.setK i x }

def State.setPc (s : State) (pc : Word) : State := { s with g := { s.g with pc := pc } }

/-- pc advances by 4 (R152). -/
def State.advance (s : State) : State := s.setPc (s.g.pc + 4)

/-- Whether a register holds an uncorrectable error (R375). -/
def Gang.badK (g : Gang) (i : Reg) : Bool := i != 0 && g.kPoison.contains i.toNat

/-- The lane stream's registers: the slot of window register n (R96). -/
def Gang.slotOf (g : Gang) (n : Nat) : Nat := g.win + n

/-- X, the size of the window (R96). -/
def Gang.window (g : Gang) : Nat := min 64 (8 * g.allot)

/-- The relation of R96 between WB and the allotment. -/
def Gang.windowFits (g : Gang) : Bool := decide (g.res ≤ g.win ∧ g.win + g.window ≤ g.res + 8 * g.allot)

def Gang.getSlot (g : Gang) (slot lane : Nat) : Half := (g.regs.getD (slot - g.res) []).getD lane 0

def Gang.setSlot (g : Gang) (slot lane : Nat) (x : Half) : Gang :=
  { g with regs := setNth g.regs (slot - g.res) fun r => r.set lane x,
           vPoison := g.vPoison.filter fun p => p != (slot, lane) }

/-- v(i, n): slot WIN + n of lane i (R127). -/
def Gang.getV (g : Gang) (lane n : Nat) : Half := g.getSlot (g.slotOf n) lane

/-- q[i]; q0 reads as all ones (R113). -/
def Gang.getQ (g : Gang) (i : Nat) : Mask := if i == 0 then BitVec.allOnes 32 else g.q.getD i 0

/-- q[i] for the lanes of a mask; a write to q0 is discarded (R115). -/
def Gang.setQ (g : Gang) (i : Nat) (on v : Mask) : Gang :=
  if i == 0 then g else { g with q := g.q.set i ((g.q.getD i 0 &&& ~~~on) ||| (v &&& on)) }

/-! ### The streams -/

/-- lane_idle(gang) (R127): at U the queue is empty and no block runs; at K no lane instruction is in flight
(R353). -/
def Gang.laneIdle (g : Gang) : Bool :=
  match g.level with
  | .u => g.lane.queue.isEmpty && !g.lane.running
  | .k => g.pend.isEmpty

/-- Whether every load and atomic the gang has issued has returned (R170). -/
def Gang.loadsBack (g : Gang) : Bool := g.pend.all fun p => p.kind != .load

/-- A gang's in-flight counter of a path (R238). -/
def Gang.ifcOf (g : Gang) (p : Path) : Nat := (g.ifc.filter fun e => e.path == p).length

/-- The instructions of a path counted in issue order: those at the front that are done leave the counter (R238). -/
def dropDone (p : Path) : List Ifc → List Ifc
  | [] => []
  | e :: rest =>
    if e.path != p then e :: dropDone p rest
    else if e.done then dropDone p rest
    else e :: rest

def Gang.raise (g : Gang) (p : Path) (id : Nat) : Gang := { g with ifc := g.ifc ++ [{ path := p, id := id, done := false }] }

/-- An instruction of a path completes (R238). -/
def Gang.lower (g : Gang) (p : Path) (id : Nat) : Gang :=
  { g with ifc := dropDone p (g.ifc.map fun e => if e.path == p && e.id == id then { e with done := true } else e) }

/-- The chain breaks: every latch's valid bit is cleared, and data still to return writes no latch (R107, log 13). -/
def Gang.breakChain (g : Gang) : Gang :=
  { g with latches := g.latches.map fun l => { l with valid := false },
           pend := g.pend.map fun p => { p with latch := none } }

/-! ### What an instruction answers -/

/-- What an instruction leaves in the undo log (R372): nothing, what it overwrote, or a fence. -/
inductive Undo where
  | none | write | fence
deriving DecidableEq, Repr

/-- What an instruction of a gang comes to: complete; a trap with its cause and TRAP_INFO; a wait; or not ready, so that
nothing issues (R94). -/
inductive Act where
  | ok (s : State) (u : Undo)
  | trap (s : State) (c : Cause) (info : Word)
  | wait (s : State) (w : Wait)
  | stall (s : State)

/-- The registers of a list that differ, with what they held. -/
def changed (i : Nat) : List Word → List Word → List (Nat × Word)
  | a :: as, b :: bs => if a == b then changed (i + 1) as bs else (i, a) :: changed (i + 1) as bs
  | _, _ => []

def changedLanes (slot lane : Nat) : List Half → List Half → List (Nat × Nat × Half)
  | a :: as, b :: bs =>
    if a == b then changedLanes slot (lane + 1) as bs else (slot, lane, a) :: changedLanes slot (lane + 1) as bs
  | _, _ => []

def changedSlots (slot : Nat) : List (List Half) → List (List Half) → List (Nat × Nat × Half)
  | a :: as, b :: bs => changedLanes slot 0 a b ++ changedSlots (slot + 1) as bs
  | _, _ => []

def changedQ (i : Nat) : List Mask → List Mask → List (Nat × Mask)
  | a :: as, b :: bs => if a == b then changedQ (i + 1) as bs else (i, a) :: changedQ (i + 1) as bs
  | _, _ => []

/-- The trap registers that an instruction has written, and what they held (R122). -/
def srSaved (before after : Gang) : List (Nat × Word) :=
  [(0x060, before.trapCause, after.trapCause), (0x061, before.trapPc, after.trapPc),
   (0x062, before.trapInfo, after.trapInfo), (0x063, before.trapVec, after.trapVec)].filterMap
    fun (x : Nat × Word × Word) => if x.2.1 == x.2.2 then none else some (x.1, x.2.1)

/-- The old values of registers that a newly issued instruction will write when its data returns. -/
def pendOld (before after : Gang) : List (Nat × Nat × Half) :=
  (after.pend.filter fun p => !(before.pend.any fun x => x.id == p.id)).flatMap fun p =>
    p.writes.map fun w => (w.1, w.2.1, before.getSlot w.1 w.2.1)

/-- A value if it is no longer what it was. -/
def ifChanged {α : Type} [DecidableEq α] (before after : α) : Option α := if before == after then none else some before

/-- The undo entry of an instruction of a stream (R372). -/
def undoEntry (lane : Bool) (u : Undo) (before after : Gang) : UndoEntry :=
  let slot := before.lane.cur
  { fence := u == .fence, lane := lane, pc := before.pc,
    index := (if slot then before.lane.s1 else before.lane.s0).pc, slot := slot,
    k := changed 0 before.k after.k, v := changedSlots before.res before.regs after.regs ++ pendOld before after,
    q := changedQ 0 before.q after.q, sr := srSaved before after, segs := ifChanged before.segs after.segs,
    lptBase := ifChanged before.lptBase after.lptBase, period := none,
    dbg := ifChanged (before.dbgHaltTrap, before.dbgHaltBrk, before.dbgUndo)
      (after.dbgHaltTrap, after.dbgHaltBrk, after.dbgUndo),
    wb := ifChanged (before.win, before.res) (after.win, after.res), mem := after.undoMem }

/-- Whether an instruction of the lane stream that has issued has not written: a halt waits for it (R214, R254, R296,
R360). -/
def Gang.lanesBusy (g : Gang) : Bool := !g.pend.isEmpty

/-- An issue of a stream: its age counter starts again (R94). -/
def State.issued (s : State) (lane : Bool) : State :=
  { s with g := if lane then { s.g with laneAge := s.cycle + 1 } else { s.g with scalarAge := s.cycle + 1 } }

/-- The gang halts, once what its lanes have issued is written (R214, R254, R296). -/
def Gang.halt (g : Gang) : Gang :=
  if g.lanesBusy then { g with haltDue := true } else { g with status := .halted, stepOne := none }

/-- A single step has been made (R374). -/
def Gang.stepDone (g : Gang) (lane : Bool) : Gang :=
  if g.stepOne == some (if lane then .lane else .scalar) && g.status == .run then g.halt else g

/-- An instruction has completed: its wait is over, the undo log takes its entry, and a single step halts the gang
(R152, R372, R374). -/
def State.retire (s before : State) (lane : Bool) (u : Undo) : State :=
  let g := s.g
  let g := if lane then g else { g with wait := none, kept := g.kept.filter fun x => x.1 != before.g.pc }
  let g :=
    if g.dbgUndo && u != .none then
      let e := { undoEntry lane u before.g g with period := ifChanged before.hbPeriod s.hbPeriod }
      { g with undo := (e :: g.undo).take 256, undoMem := [] }
    else g
  let g := { g.stepDone lane with shadow := g.shadow.map fun (x : Shadow) => { x with equal := false } }
  State.issued { s with g := g } lane

/-- Whether the leader of a Mordant pair has still to be compared with its shadow (R381). -/
def Gang.uncompared (g : Gang) : Bool := g.shadow.any fun x => !x.equal

/-! ### Taking a trap -/

/-- k24 to k31 exchanged with the gang's K registers (R353). -/
def Gang.exchange (g : Gang) : Gang :=
  { g with k := g.k.take 24 ++ g.kAlt, kAlt := g.k.drop 24,
           kPoison := g.kPoison.map fun r => if 32 ≤ r then r - 8 else if 24 ≤ r then r + 8 else r }

def levelBit : Level → Nat
  | .u => 0
  | .k => 1

/-- TRAP_CAUSE of a trap (R353, R356). -/
def trapCauseWord (level : Level) (lane : Bool) (c : Cause) : Word :=
  BitVec.ofNat 64 (levelBit level * 512 + (if lane then 256 else 0) + c.code)

/-- The gang's scalar stream is stopped at a boundary (R353): it leaves the grant queue (R100); a ktlbi after its
broadcast and a barrw after its arrival keep what they have obtained (R49, R325); the chain breaks (R107). -/
def State.stopStreams (s : State) : State :=
  let g := s.g
  let kept :=
    match g.wait with
    | some (.tlbi id) => some (g.pc, Wait.tlbi id)
    | some (.arrived a t) => some (g.pc, Wait.arrived a t)
    | some (.passed (some t)) => some (g.pc, Wait.passed (some t))
    | _ => g.kept
  let s := s.updCore g.core fun c => { c with grants := c.grants.filter fun x => x.gang != g.ref }
  { s with g := { g.breakChain with wait := none, kept := kept } }

/-- Whether a trap cannot enter K (R355). -/
def State.trapFails (s : State) : Bool :=
  s.g.trapVec == 0 || s.g.level == .k ||
    (match s.myCrew with
     | some c => c.version.versioned
     | none => false)

/-- A fence entry in the undo log (R372). -/
def Gang.undoFence (g : Gang) : Gang :=
  if g.dbgUndo then { g with undo := (undoEntry false .fence g g :: g.undo).take 256 } else g

/-- The entry to K (R353). -/
def Gang.enterK (g : Gang) : Gang := { g.undoFence.exchange with level := .k, pc := g.trapVec }

/-- The trap registers as a trap writes them (R353, R356). -/
def Gang.recordTrap (g : Gang) (lane : Bool) (c : Cause) (info : Word) : Gang :=
  { g with trapCause := trapCauseWord g.level lane c, trapPc := g.pc, trapInfo := info,
           srPoison := g.srPoison.filter fun n => !(n == 0x060 || n == 0x061 || n == 0x062) }

/-- The global crew number of the gang whose turn it is, as error records give it (R384). -/
def State.myGlobal (s : State) : Nat :=
  match s.myCrew, s.kernelOf s.g.ref.crew with
  | some c, some k => c.global k
  | _, _ => 0xFFFFFFFF

/-- The log record and the failure of a Mordant mismatch (R382, R384). -/
def State.mismatch (s : State) : State :=
  (s.logError 4 1 (coreDie s.g.core) (s.asidOf s.g.ref.crew) 0 s.myGlobal).failCrew s.g.ref.crew Cause.sdc.code

/-- An entry of the value queue of a Mordant leader (R381); a gang without a shadow keeps none. -/
def Gang.tell (g : Gang) (t : Trail) : Gang := if g.shadow.isSome then { g with trail := g.trail ++ [t] } else g

/-- TAKING A TRAP (R353, R355): the gang enters K at TRAP_VEC with its restart address, cause and information saved;
or halts, where DEBUG says so; or its crew fails. -/
def State.takeTrap (s : State) (lane : Bool) (c : Cause) (info : Word) : State :=
  let s := s.stopStreams.issued lane
  if c == .sdc then s.mismatch
  else
    let g := { s.g.recordTrap lane c info with shadow := s.g.shadow.map fun (x : Shadow) => { x with equal := false } }
    if g.dbgHaltTrap || (c == .brk && g.dbgHaltBrk) then
      { s with g := ({ g with haltTrap := true } : Gang).halt }
    else if s.trapFails then s.failCrew s.g.ref.crew c.code
    else
      { s with g := if g.stepOne.isSome then (g.enterK.tell .enter).halt else g.enterK.tell .enter }

/-- How the lane stream resumes after a return or a cleared trap (R354). -/
def Gang.resumeLane (g : Gang) : Gang :=
  if !g.trapCause.getLsbD 8 then g
  else if g.trapInfo.getLsbD 62 then
    { g with lane := { g.lane with running := false, s0 := Slot.empty, s1 := Slot.empty, depth := 0, cur := false } }
  else
    let idx := g.trapInfo.extractLsb' 32 24
    if g.trapInfo.getLsbD 59 then { g with lane := { g.lane with s1 := { g.lane.s1 with pc := idx } } }
    else { g with lane := { g.lane with s0 := { g.lane.s0 with pc := idx } } }

/-- THE RETURN FROM A TRAP (R165, R354): pc and level restored, k24 to k31 exchanged back, the lane stream resumed. -/
def Gang.returnFromK (g : Gang) : Gang :=
  { g.exchange.resumeLane with pc := g.trapPc &&& ~~~(3#64), level := .u }

/-- A ktlbi or barrw that was stopped in its wait takes its wait up again when it issues (R49, R325). -/
def Gang.takeUp (g : Gang) : Gang :=
  match g.kept with
  | some (p, w) => if g.wait.isNone && p == g.pc then { g with wait := some w } else g
  | none => g


/-- The trap a halted gang recorded is delivered, or not, when the debug port releases it (R355). -/
def State.deliverHalted (s : State) : State :=
  let g := { s.g with haltTrap := false }
  if g.trapCause.toNat % 256 == 0 then { s with g := { g.resumeLane with pc := g.trapPc } }
  else if s.trapFails then State.failCrew { s with g := g } g.ref.crew (g.trapCause.toNat % 256)
  else { s with g := g.enterK }

/-! ### Completing an instruction -/

abbrev Out := Host.Outcome State Fault Refusal

/-- A scalar instruction's answer as the next state. The leader of a Mordant pair that has still to be compared neither
traps nor leaves anything of an instruction that stalls (R382). -/
def Act.scalar (before : State) : Act → Out
  | .ok s u => .next (s.retire before false u)
  | .trap s c info => .next (if before.g.uncompared then before else s.takeTrap false c info)
  | .wait s w => .next { s with g := { s.g with wait := some w } }
  | .stall s => .next (if before.g.uncompared then before else s)

/-- An error record of the gang whose turn it is, about storage of its die that has no physical address (R384): unit 0
lane registers, 1 scalar and special registers, 4 bank rows, 5 column periphery. -/
def State.logUnit (s : State) (unit : Nat) : State :=
  s.logError 2 unit (coreDie s.g.core) (s.asidOf s.g.ref.crew) 0 s.myGlobal

/-- Registers read by a scalar instruction: UE where one holds an uncorrectable error (R375). -/
def State.reading (s : State) (rs : List Reg) (a : Act) : Act :=
  if rs.any fun r => s.g.badK r then .trap (s.logUnit 1) .ue 0 else a

/-- A special register read by an instruction: UE where it holds an uncorrectable error (R375). -/
def State.readingSr (s : State) (ns : List Nat) (a : Act) : Act :=
  if ns.any fun n => s.g.srPoison.contains n then .trap (s.logUnit 1) .ue 0 else a

/-- A Mordant gang's effects are compared before they perform: the leader stalls until its shadow has come to the same
instruction and they agree (R381, R382). -/
def State.compared (s : State) (a : Act) : Act := if s.g.uncompared then .stall s else a

/-- A scalar result: k[kd] written, pc advanced. -/
def State.result (s : State) (d : Reg) (x : Word) : Act := .ok (s.setK d x).advance (if d == 0 then .none else .write)

/-- A scalar instruction with no register result. -/
def State.done (s : State) : Act := .ok s.advance .none

/-- A fresh number for a unit of work (the model's own). -/
def State.fresh (s : State) : Nat × State := (s.nextId, { s with nextId := s.nextId + 1 })

/-- The effective priority and context of the gang's kernel (R81). -/
def State.myPrio (s : State) : Nat :=
  match s.kernelOf s.g.ref.crew with
  | some k => k.prio
  | none => 0

def State.myAsid (s : State) : Nat := s.asidOf s.g.ref.crew

/-- Whether the gang's context has feature n of FEAT_EN0 (R41). -/
def State.hasFeature (s : State) (n : Nat) : Bool := s.feature s.myAsid n

/-- An instruction of a feature that is not enabled raises ILL (R41). -/
def State.needs (s : State) (n : Nat) (a : Act) : Act := if s.hasFeature n then a else .trap s .ill 0

/-- An instruction that only K may run raises PRIV at U (R30). -/
def State.privileged (s : State) (a : Act) : Act := if s.g.level == .u then .trap s .priv 0 else a

end Sys2Proof.Machine
end

