-- ==== Sys2Proof/Machine/Special.lean ====
section
/-! DEFINITION. The special registers of a gang, by number (R122): what a csrr or getsr reads and what a csrw at K
writes. -/

namespace Sys2Proof.Machine

open Sys2Proof

/-- A value the spec leaves open, at this step, for an item (log 7). -/
def State.freeVal (s : State) (item : Nat) : Word := Config.freeValue (s.free * 2 ^ 64 + item % 2 ^ 64)

/-- Whether a crew's gangs hold units and slots of their core (R362: not once their state has left the registers). -/
def Crew.resident (c : Crew) : Bool :=
  !c.swapped && (c.state == .starting || c.state == .running || c.state == .stopping || c.state == .failing)

def State.isResident (s : State) (id : Nat) : Bool :=
  match s.crew id with
  | some c => c.resident
  | none => false

/-- The gangs that hold units of a core. -/
def State.residentGangs (s : State) (core : Nat) : List Gang :=
  s.allGangs.filter fun g => g.core == core && s.isResident g.ref.crew

/-- Units a gang holds, its shadow's included (R380). -/
def Gang.held (g : Gang) : Nat := if g.shadow.isSome then 2 * g.allot else g.allot

/-- POOL_FREE of a core (R99). -/
def State.poolFree (s : State) (core : Nat) : Nat := 256 - sumNat ((s.residentGangs core).map Gang.held)

/-- A 64-bit word of the parts of a register map: (value, lowest bit). -/
def word (parts : List (Nat × Nat)) : Word := BitVec.ofNat 64 (sumNat (parts.map fun p => p.1 * 2 ^ p.2))

def flag (b : Bool) : Nat := if b then 1 else 0

/-- DEVINFO_BASE (R68). -/
def State.devinfoBase (s : State) : Word :=
  match s.kernelOf s.g.ref.crew with
  | some k => BitVec.ofNat 64 k.desc.constLimit - 4096
  | none => 0

/-- The bits of TRAP_INFO that its map keeps (R356). -/
def trapInfoBits (cause x : Word) : Word :=
  if cause.getLsbD 8 then x &&& 0x4FFFFFFFFFFFFFFF else x

/-- LPT_BASE (R73). -/
def State.lptBase (s : State) : Word :=
  s.g.lptBase.getD (s.devinfoBase + 0x180 + BitVec.ofNat 64 (128 * coreCluster s.g.core))

/-- WB (R96). -/
def Gang.wb (g : Gang) : Word := word [(g.win, 0), (g.res, 32)]

/-- BATCH_DONE (R248). -/
def Gang.batchDoneWord (g : Gang) : Word :=
  word [(g.batchDone.toNat, 0), (flag g.lastBatch.drop, 32), (flag g.lastBatch.poison, 33),
        (flag g.lastBatch.replay, 34), (g.errCnt, 40), (g.dropCnt, 48)]

/-- SLOT_STATE (R91). PARKED reads 0 for a slot that is not valid (log 71). -/
def Gang.slotState (g : Gang) : Word :=
  let l := g.lane
  word [(flag l.s0.valid, 0), (flag l.s1.valid, 1), (flag (l.s0.valid && l.s0.parked), 2),
        (flag (l.s1.valid && l.s1.parked), 3), (l.depth, 8), ((l.s0.mask ||| l.s1.mask).toNat, 32)]

/-- VER_STATE (R370). -/
def State.verState (s : State) : Word :=
  match s.myCrew with
  | some c =>
    word [(flag c.version.versioned, 0), (flag c.version.opened, 1), (c.version.commits, 8),
          (min (2 ^ 24 - 1) (heldLines c.version.held).length, 16)]
  | none => 0

/-- DEBUG (R371). -/
def Gang.debugWord (g : Gang) : Word :=
  word [(flag g.dbgLaunch, 0), (flag g.dbgUndo, 1), (flag g.dbgHaltBrk, 2), (flag g.dbgHaltTrap, 3)]

/-- What depends on the gang's crew and kernel (R71). -/
def State.crewSr (s : State) (n : Nat) : Nat :=
  match s.myCrew, s.kernelOf s.g.ref.crew with
  | some c, some k =>
    match n with
    | 0x005 => c.crewId k
    | 0x006 => k.desc.gangs
    | 0x008 => c.stage
    | 0x009 => k.desc.stages
    | 0x00A => k.desc.dieMask
    | 0x00B =>
      match k.children[c.child k]? with
      | some ch => ch.param.toNat
      | none => 0
    | _ => 0
  | _, _ => 0

/-- The enabled masks of the gang's die (R72). -/
def State.harvestSr (s : State) (n : Nat) : Word :=
  (s.harvest.getD (2 * coreDie s.g.core + (n - 0x010) / 2) 0).extractLsb' (64 * ((n - 0x010) % 2)) 64

/-- FEAT_EN0 to FEAT_EN3 of the gang's context (R40). -/
def State.featEnSr (s : State) (i : Nat) : Word :=
  match s.ctx s.myAsid with
  | some c => c.featEn.getD i 0
  | none => 0

/-- The special register of a number, as the gang reads it (R122, R163). One counter of compute cycles stands for the
compute clock of every die (log 4). A number not listed reads 0: no instruction
gets here with one. -/
def State.readSr (s : State) (n : Nat) : Word :=
  let g := s.g
  match n with
  | 0x000 => BitVec.ofNat 64 (coreDie g.core)
  | 0x001 => BitVec.ofNat 64 (dieOrient (coreDie g.core))
  | 0x002 => BitVec.ofNat 64 (coreCluster g.core % 2)
  | 0x003 => BitVec.ofNat 64 (s.coreRank g.core)
  | 0x004 => BitVec.ofNat 64 (corePhys g.core)
  | 0x007 => BitVec.ofNat 64 g.ref.idx
  | 0x010 => s.harvestSr 0x010
  | 0x011 => s.harvestSr 0x011
  | 0x012 => s.harvestSr 0x012
  | 0x013 => s.harvestSr 0x013
  | 0x014 => s.lptBase
  | 0x015 => s.devinfoBase
  | 0x020 => BitVec.ofNat 64 s.cycle
  | 0x021 => s.heartbeat
  | 0x022 => BitVec.ofNat 64 s.hbPeriod
  | 0x030 => g.wb
  | 0x031 => BitVec.ofNat 64 g.allot
  | 0x032 => BitVec.ofNat 64 (s.poolFree g.core)
  | 0x040 => BitVec.ofNat 64 g.ust
  | 0x041 => BitVec.ofNat 64 (g.ifcOf .cp)
  | 0x042 => BitVec.ofNat 64 (g.ifcOf .mx)
  | 0x043 => BitVec.ofNat 64 (g.ifcOf .xf)
  | 0x044 => BitVec.ofNat 64 (g.ifcOf .bd)
  | 0x045 => BitVec.ofNat 64 (g.ifcOf .fx)
  | 0x046 => g.sealed.setWidth 64
  | 0x047 => g.batchDoneWord
  | 0x050 => g.dead.setWidth 64
  | 0x051 => g.slotState
  | 0x060 => g.trapCause
  | 0x061 => g.trapPc
  | 0x062 => trapInfoBits g.trapCause g.trapInfo
  | 0x063 => g.trapVec
  | 0x070 => s.verState
  | 0x080 => g.debugWord
  | 0x081 => BitVec.ofNat 64 g.undo.length
  | 0x0F0 => featCap 0
  | 0x0F1 => featCap 1
  | 0x0F2 => featCap 2
  | 0x0F3 => featCap 3
  | 0x0F8 => s.featEnSr 0
  | 0x0F9 => s.featEnSr 1
  | 0x0FA => s.featEnSr 2
  | 0x0FB => s.featEnSr 3
  | n => BitVec.ofNat 64 (s.crewSr n)

/-- WB written (R96): slots that stay resident keep their values; what slots made resident hold, the spec does not
state (log 7). -/
def State.writeWb (s : State) (x : Word) : State :=
  let g := s.g
  let win := field x 3 13 * 8
  let res := field x 35 13 * 8
  if res == g.res then { s with g := { g with win := win } }
  else
    { s with g :=
      { g with win := win, res := res,
               regs := (List.range (8 * g.allot)).map fun i =>
                 if g.res ≤ res + i ∧ res + i < g.res + 8 * g.allot then g.regs.getD (res + i - g.res) []
                 else (List.range 32).map fun l => (s.freeVal (i * 32 + l)).setWidth 32,
               vPoison := g.vPoison.filter fun p => decide (res ≤ p.1 ∧ p.1 < res + 8 * g.allot) } }

/-- HB_PERIOD as the harbour die receives it (R270). -/
def clampPeriod (x : Word) : Nat := max 256 (min 65536 (field x 0 17))

/-- A csrw at K to a register that K may write (R122); reserved bits are ignored. A write clears the register's error
mark (R375). -/
def State.writeSr (s : State) (n : Nat) (x : Word) : State :=
  let s := if s.g.srPoison.isEmpty then s
    else { s with g := { s.g with srPoison := s.g.srPoison.filter fun i => i != n } }
  let g := s.g
  match n with
  | 0x014 => { s with g := { g with lptBase := some x } }
  | 0x022 => { s with hbPeriod := clampPeriod x }
  | 0x030 => s.writeWb x
  | 0x060 => { s with g := { g with trapCause := x &&& 0x3FF } }
  | 0x061 => { s with g := { g with trapPc := x } }
  | 0x062 => { s with g := { g with trapInfo := trapInfoBits g.trapCause x } }
  | 0x063 => { s with g := { g with trapVec := x &&& ~~~(3#64) } }
  | 0x080 =>
    { s with g := { g with dbgHaltTrap := x.getLsbD 3, dbgHaltBrk := x.getLsbD 2,
                           dbgUndo := if g.dbgLaunch then x.getLsbD 1 else g.dbgUndo } }
  | 0x081 => { s with g := { g with undo := g.undo.take (field x 0 9) } }
  | _ => s

end Sys2Proof.Machine
end

