-- ==== Sys2Proof/Machine/Scalar.lean ====
section
/-! DEFINITION. Scalar register arithmetic, immediates, branches and jumps (R154 to R157, R160, R161), knop and kyield
(R162, R169). -/

namespace Sys2Proof.Machine

open Sys2Proof

/-- 1 or 0 (R154). -/
def truth (b : Bool) : Word := if b then 1 else 0

/-- k[kd] := f(k[ka], k[kb]) (R154). -/
def State.op2 (s : State) (d a b : Reg) (f : Word → Word → Word) : Out :=
  (s.reading [a, b] (s.result d (f (s.getK a) (s.getK b)))).scalar s

/-- k[kd] := f(k[ka]) (R154 to R156). -/
def State.op1 (s : State) (d a : Reg) (f : Word → Word) : Out :=
  (s.reading [a] (s.result d (f (s.getK a)))).scalar s

/-- KADD (R154: a + b). -/
def execKadd (d a b : Reg) (s : State) : Out := s.op2 d a b fun x y => x + y

/-- KSUB (R154: a − b). -/
def execKsub (d a b : Reg) (s : State) : Out := s.op2 d a b fun x y => x - y

/-- KAND (R154: a AND b). -/
def execKand (d a b : Reg) (s : State) : Out := s.op2 d a b fun x y => x &&& y

/-- KOR (R154: a OR b). -/
def execKor (d a b : Reg) (s : State) : Out := s.op2 d a b fun x y => x ||| y

/-- KXOR (R154: a XOR b). -/
def execKxor (d a b : Reg) (s : State) : Out := s.op2 d a b fun x y => x ^^^ y

/-- KSHL (R154: a << b<5:0>). -/
def execKshl (d a b : Reg) (s : State) : Out := s.op2 d a b fun x y => x <<< field y 0 6

/-- KSHR (R154: a >> b<5:0>, filling with zeros). -/
def execKshr (d a b : Reg) (s : State) : Out := s.op2 d a b fun x y => x >>> field y 0 6

/-- KSRA (R154: a >> b<5:0>, filling with a<63>). -/
def execKsra (d a b : Reg) (s : State) : Out := s.op2 d a b fun x y => x.sshiftRight (field y 0 6)

/-- KMUL (R154: bits 63:0 of a × b). -/
def execKmul (d a b : Reg) (s : State) : Out := s.op2 d a b fun x y => x * y

/-- KMULH (R154: bits 127:64 of the signed product). -/
def execKmulh (d a b : Reg) (s : State) : Out := s.op2 d a b fun x y => BitVec.ofInt 64 (x.toInt * y.toInt / 2 ^ 64)

/-- KMULHN (R154: bits 127:64 of the unsigned product). -/
def execKmulhn (d a b : Reg) (s : State) : Out := s.op2 d a b fun x y => BitVec.ofNat 64 (x.toNat * y.toNat / 2 ^ 64)

/-- KDIV (R154: signed quotient (R130)). -/
def execKdiv (d a b : Reg) (s : State) : Out := s.op2 d a b fun x y => quot true x y

/-- KDIVN (R154: unsigned quotient (R130)). -/
def execKdivn (d a b : Reg) (s : State) : Out := s.op2 d a b fun x y => quot false x y

/-- KREM (R154: signed remainder (R130)). -/
def execKrem (d a b : Reg) (s : State) : Out := s.op2 d a b fun x y => rema true x y

/-- KREMN (R154: unsigned remainder (R130)). -/
def execKremn (d a b : Reg) (s : State) : Out := s.op2 d a b fun x y => rema false x y

/-- KMIN (R154: the smaller, signed). -/
def execKmin (d a b : Reg) (s : State) : Out := s.op2 d a b fun x y => if x.slt y then x else y

/-- KMAX (R154: the larger, signed). -/
def execKmax (d a b : Reg) (s : State) : Out := s.op2 d a b fun x y => if x.slt y then y else x

/-- KMINN (R154: the smaller, unsigned). -/
def execKminn (d a b : Reg) (s : State) : Out := s.op2 d a b fun x y => if x.ult y then x else y

/-- KMAXN (R154: the larger, unsigned). -/
def execKmaxn (d a b : Reg) (s : State) : Out := s.op2 d a b fun x y => if x.ult y then y else x

/-- KSLT (R154: 1 if a < b, signed). -/
def execKslt (d a b : Reg) (s : State) : Out := s.op2 d a b fun x y => truth (x.slt y)

/-- KSLTN (R154: 1 if a < b, unsigned). -/
def execKsltn (d a b : Reg) (s : State) : Out := s.op2 d a b fun x y => truth (x.ult y)

/-- KSEQ (R154: 1 if a == b). -/
def execKseq (d a b : Reg) (s : State) : Out := s.op2 d a b fun x y => truth (x == y)

/-- KCLZ (R154: clz(a, 64)). -/
def execKclz (d a : Reg) (s : State) : Out := s.op1 d a fun x => BitVec.ofNat 64 (clzNat 64 x.toNat)

/-- KPOPC (R154: popcount(a)). -/
def execKpopc (d a : Reg) (s : State) : Out := s.op1 d a fun x => BitVec.ofNat 64 (popcount 64 x.toNat)

/-- KADDI (R155: a + sign_extend(imm16)). -/
def execKaddi (d a : Reg) (i : BitVec 16) (s : State) : Out := s.op1 d a fun x => x + i.signExtend 64

/-- KANDI (R155: a AND zero_extend(imm16)). -/
def execKandi (d a : Reg) (i : BitVec 16) (s : State) : Out := s.op1 d a fun x => x &&& i.setWidth 64

/-- KORI (R155: a OR zero_extend(imm16)). -/
def execKori (d a : Reg) (i : BitVec 16) (s : State) : Out := s.op1 d a fun x => x ||| i.setWidth 64

/-- KXORI (R155: a XOR zero_extend(imm16)). -/
def execKxori (d a : Reg) (i : BitVec 16) (s : State) : Out := s.op1 d a fun x => x ^^^ i.setWidth 64

/-- KSHLI (R155: a << i). -/
def execKshli (d a : Reg) (i : BitVec 6) (s : State) : Out := s.op1 d a fun x => x <<< i.toNat

/-- KSHRI (R155: a >> i, filling with zeros). -/
def execKshri (d a : Reg) (i : BitVec 6) (s : State) : Out := s.op1 d a fun x => x >>> i.toNat

/-- KSRAI (R155: a >> i, filling with a<63>). -/
def execKsrai (d a : Reg) (i : BitVec 6) (s : State) : Out := s.op1 d a fun x => x.sshiftRight i.toNat

/-- KSLTI (R155: 1 if a < sign_extend(imm16), signed). -/
def execKslti (d a : Reg) (i : BitVec 16) (s : State) : Out := s.op1 d a fun x => truth (x.slt (i.signExtend 64))

/-- KSLTNI (R155: 1 if a < sign_extend(imm16), unsigned). -/
def execKsltni (d a : Reg) (i : BitVec 16) (s : State) : Out := s.op1 d a fun x => truth (x.ult (i.signExtend 64))

/-- KLUI (R156: sign_extend(imm16 : 0x0000, 32)). -/
def execKlui (d : Reg) (i : BitVec 16) (s : State) : Out :=
  (s.result d ((i ++ (0 : BitVec 16)).signExtend 64)).scalar s

/-- The field inserted by a kins (R157). -/
def insertField (old new : Word) (p w : Nat) : Word :=
  let m : Word := BitVec.ofNat 64 ((2 ^ w - 1) * 2 ^ p)
  (old &&& ~~~m) ||| ((new <<< p) &&& m)

/-- KINS (R157). -/
def execKins (d a : Reg) (w p : BitVec 6) (s : State) : Out :=
  if w.toNat + 1 + p.toNat > 64 then (Act.trap s .ill 0).scalar s
  else (s.reading [d, a] (s.result d (insertField (s.getK d) (s.getK a) p.toNat (w.toNat + 1)))).scalar s

/-- The condition of a kbr code on a register (R160). -/
def branchTaken (c : Nat) (x : Word) : Bool :=
  match c with
  | 0 => x == 0
  | 1 => x != 0
  | 2 => x.slt 0
  | 3 => !x.slt 0
  | 4 => false
  | _ => true

/-- KBR (R160). -/
def execKbr (c : BitVec 5) (a : Reg) (i : BitVec 16) (s : State) : Out :=
  if c.toNat > 5 then (Act.trap s .ill 0).scalar s
  else
    (s.reading [a] (.ok (if branchTaken c.toNat (s.getK a) then s.setPc (s.g.pc + i.signExtend 64 * 4) else s.advance)
      .none)).scalar s

/-- KJAL (R161). -/
def execKjal (i : BitVec 26) (s : State) : Out :=
  (Act.ok ((s.setK 31 (s.g.pc + 4)).setPc (s.g.pc + i.signExtend 64 * 4)) .write).scalar s

/-- KJALR (R161). -/
def execKjalr (d a : Reg) (i : BitVec 16) (s : State) : Out :=
  let t := s.getK a + i.signExtend 64
  (s.reading [a]
    (if t &&& 3 != 0 then .trap s .align 0
     else .ok ((s.setK d (s.g.pc + 4)).setPc t) (if d == 0 then .none else .write))).scalar s

/-- KNOP (R162). -/
def execKnop (s : State) : Out := s.done.scalar s

/-- KYIELD (R169): the scalar stream is not ready for the 32 cycles after it issues. -/
def execKyield (s : State) : Out :=
  (Act.ok { s.advance with g := { s.advance.g with yieldUntil := s.cycle + 33 } } .none).scalar s

end Sys2Proof.Machine
end

