-- ==== Sys2Proof/Machine/ScalarMem.lean ====
section
/-! DEFINITION. Scalar loads and stores (R158, R159). -/

namespace Sys2Proof.Machine

open Sys2Proof

/-- MODE<4:3> of kld and kst (R158). -/
def scalarSeg (x : BitVec 2) : SegName :=
  match x.toNat with
  | 0 => .g
  | 1 => .s
  | 2 => .c
  | _ => .l

/-- TRAP_INFO of a data cause of the scalar stream (R356): the offset for SEG and ALIGN, the virtual address for PROT
and UE (log 12), address and level for XLAT, and 0 for any other. -/
def State.scalarInfo (s : State) (c : Cause) (seg : SegName) (o level : Nat) : Word :=
  let va := match seg with
    | .l => localVa s.g.segs.l o 0
    | x => segVa (s.g.segs.get x) o
  match c with
  | .seg => BitVec.ofNat 64 o
  | .align => BitVec.ofNat 64 o
  | .xlat => xlatInfo va level
  | .prot => BitVec.ofNat 64 va
  | .ue => BitVec.ofNat 64 va
  | _ => 0

/-! ### Lane blocks that precede a scalar access (R88, R264) -/

/-- The classes of places that pending lane code may read or write, and whether a pending access is ordered with what
follows it (an acquire, a release or an atomic, R264). -/
structure LaneReach where
  physLoad : Bool
  physStore : Bool
  bankLoad : Bool
  bankStore : Bool
  ordered : Bool
deriving DecidableEq, Repr

def LaneReach.none : LaneReach :=
  { physLoad := false, physStore := false, bankLoad := false, bankStore := false, ordered := false }

def LaneReach.all : LaneReach :=
  { physLoad := true, physStore := true, bankLoad := true, bankStore := true, ordered := true }

def LaneReach.join (a b : LaneReach) : LaneReach :=
  { physLoad := a.physLoad || b.physLoad, physStore := a.physStore || b.physStore,
    bankLoad := a.bankLoad || b.bankLoad, bankStore := a.bankStore || b.bankStore, ordered := a.ordered || b.ordered }

/-- What one lane word may touch on the direct paths: bra, join and lend through the divergence stack in L (R93). -/
def laneTouches (op : LaneOp) (f : LaneF) : LaneReach :=
  let bank := field f.md 0 3 == 1 || field f.md 0 3 == 2
  let ord := f.imm.getLsbD 24 || f.imm.getLsbD 25
  match op with
  | .ld => { LaneReach.none with physLoad := !bank, bankLoad := bank, ordered := ord }
  | .st => { LaneReach.none with physStore := !bank, bankStore := bank, ordered := ord }
  | .ldRec => { LaneReach.none with physLoad := true, bankLoad := true }
  | .atomAdd | .atomMin | .atomMax | .atomMinn | .atomMaxn | .atomAnd | .atomOr | .atomXor | .atomExch | .atomCas
  | .atomFadd => LaneReach.all
  | .bra => { LaneReach.none with physStore := true }
  | .join | .lend => { LaneReach.none with physLoad := true }
  | _ => LaneReach.none

/-- The lane word at an index as its home or the core's instruction cache holds it. -/
def State.peekLane (s : State) (idx : BitVec 24) : Option (LaneOp × LaneF) :=
  match s.kernelOf s.g.ref.crew with
  | none => none
  | some k =>
    let o := (k.desc.laneCode.toNat + 12 * idx.toNat) % 2 ^ 64
    let va := segVa s.g.segs.g o
    let asid := s.asidOf s.g.ref.crew
    let bits : Option Nat :=
      match findBy (fun (w : CodeWord) => w.asid == asid && w.va == va && w.len == 12) (s.core s.g.core).code with
      | some w => some w.bits
      | none =>
        match s.checkVa s.g va 12 .fetch with
        | (.ok ps _, _) => some (leNat (ps.map s.placeByte))
        | _ => none
    match bits.map fun w => decodeLane (BitVec.ofNat 96 w) with
    | some (.ok i) => i.lane?
    | _ => none

/-- What the code from a list of indices may touch, with the indices seen already; code beyond the fuel may touch
anything. A word with no meaning stops its path. -/
def State.laneReach (s : State) : Nat → List (BitVec 24) → List (BitVec 24) → LaneReach
  | 0, [], _ => LaneReach.none
  | 0, _ :: _, _ => LaneReach.all
  | _ + 1, [], _ => LaneReach.none
  | n + 1, i :: todo, seen =>
    if seen.contains i then s.laneReach n todo seen
    else
      match s.peekLane i with
      | none => s.laneReach n todo (i :: seen)
      | some (op, f) =>
        let next := match op with
          | .lend => []
          | .bra => [i + 1, f.imm.setWidth 24, f.sa ++ f.sb ++ f.sc]
          | _ => [i + 1]
        (laneTouches op f).join (s.laneReach n (next ++ todo) (i :: seen))

/-- What the lane blocks that precede the scalar stream in program order may still touch. -/
def State.pendingReach (s : State) : LaneReach :=
  let l := s.g.lane
  if l.depth != 0 then LaneReach.all
  else
    s.laneReach 512 ((if l.running then [l.s0.pc] ++ (if l.s1.valid then [l.s1.pc] else [])
      ++ l.s0.join.toList ++ l.s1.join.toList else []) ++ l.queue.map Block.idx) []

/-- Bytes of a scalar access that pending lane blocks may still have to find as they are now (R264). -/
def State.markEarly (s : State) (cells : List (Place × Byte)) : State :=
  let l := s.g.lane
  let seq := l.enqueued - l.queue.length
  let live := s.g.early.filter fun e => decide (seq ≤ e.upto)
  { s with g := { s.g with early := live ++ cells.map fun c => { upto := l.enqueued, place := c.1, old := c.2 } } }

/-- How an access of the scalar stream stands to lane blocks enqueued before it (R88, R159, R264): it waits for the lane
stream where a pending access could be ordered before it and touch its bytes in a way that performing it now would
change; otherwise it performs now, and `keep` says whether pending accesses must go on finding the bytes as they are
(log 18). -/
def State.afterLanes (s : State) (bank write : Bool) (k : Bool → Act) : Act :=
  if s.g.laneIdle then k false
  else if s.g.level == .k then .stall s
  else
    let r := s.pendingReach
    if r.ordered then .stall s
    else
      let load := if bank then r.bankLoad else r.physLoad
      let store := if bank then r.bankStore else r.physStore
      if write then k (load || store) else if store then .stall s else k load

/-- Poisoned data consumed by the gang, as the error log records it (R378, R384): kind 3 where only its check value
failed. -/
def State.logConsumed (s : State) (l1 : Bool) (p : Place) : State :=
  match p with
  | .phys pa => s.logSector (if s.badCheck s.g.core l1 p then 3 else 2) pa s.myAsid s.myGlobal
  | .bank _ _ _ => s.logUnit 4

/-- Bytes read on the ld path by the scalar stream: UE where any arrives poisoned (R378). -/
def State.scalarRead (s : State) (seg : SegName) (o n : Nat) (bypass keep : Bool) (k : State → Nat → Act) : Act :=
  match s.check s.g seg 0 o n false false with
  | (.notYet, _) => .stall s
  | (.fault c level, t) => .trap t c (s.scalarInfo c seg o level)
  | (.ok ps mt, t) =>
    let l1 := seg != .s && viaL1 mt bypass
    let t := t.touch t.g.core l1 ps
    match findBy (fun p => t.gangBad t.g.ref.crew t.g.core l1 p) ps with
    | some p => .trap (t.logConsumed l1 p) .ue (s.scalarInfo .ue seg o 0)
    | none =>
      let bytes := ps.map fun p => t.gangByte t.g.ref.crew t.g.core l1 p
      k (if keep then t.markEarly (ps.zip bytes) else t) (leNat bytes)

/-- Bytes of a kld of a mode, and its extension to 64 bits (R158). -/
def kldBytes (m : BitVec 3) : Nat := 2 ^ (m.toNat / 2)

def kldExtend (m : BitVec 3) (x : Nat) : Word :=
  if m.toNat == 6 then BitVec.ofNat 64 x
  else BitVec.ofInt 64 (toInt (m.toNat % 2 == 1) (8 * kldBytes m) x)

/-- The offset of a scalar access (R159). -/
def State.scalarOffset (s : State) (a : Reg) (o : BitVec 11) : Nat := (s.getK a + o.signExtend 64).toNat

/-- KLD (R158, R159). -/
def execKld (d a : Reg) (sg : BitVec 2) (m : BitVec 3) (o : BitVec 11) (s : State) : Out :=
  (if m == 7 then Act.trap s .ill 0
   else s.reading [a] (s.afterLanes (scalarSeg sg == .s) false fun keep =>
     s.scalarRead (scalarSeg sg) (s.scalarOffset a o) (kldBytes m) false keep fun t x =>
       t.result d (kldExtend m x))).scalar s

/-- Bytes written by a gang's instruction on the st or at path: held or performed, UST raised by one, the overwritten
bytes kept for the undo log (R159, R196, R366, R372). VERSION where the version would exceed its capacity (R369). -/
def State.storeCells (s : State) (held : Bool) (mt : Nat) (cells : List (Place × Byte)) (k : State → Act) : Act :=
  let crew := s.g.ref.crew
  if held && s.versionOpen crew && s.holdFull crew (physCells cells) then .trap s .version 1
  else
    let old := if s.g.dbgUndo then s.oldBytes crew s.g.core cells else []
    let t := s.gangWrite crew s.g.core held mt cells
    k { t with g := { t.g with undoMem := old, ust := t.g.ust + 1 } }

/-- Bytes stored by the scalar stream. -/
def State.scalarWrite (s : State) (seg : SegName) (o n : Nat) (x : Word) (keep : Bool) : Act :=
  match s.check s.g seg 0 o n true false with
  | (.notYet, _) => .stall s
  | (.fault c level, t) => .trap t c (s.scalarInfo c seg o level)
  | (.ok ps mt, t) =>
    if t.g.ust ≥ 255 then .stall s
    else
      let t := if keep then t.markEarly (ps.map fun p => (p, t.gangByte t.g.ref.crew t.g.core false p)) else t
      t.compared (t.storeCells (seg == .g || seg == .l) mt (ps.zip (leBytes n x.toNat)) fun t => .ok t.advance .write)

/-- KST (R158, R159): kd names the data. -/
def execKst (d a : Reg) (sg w : BitVec 2) (o : BitVec 11) (s : State) : Out :=
  (s.reading [d, a] (s.afterLanes (scalarSeg sg == .s) true fun keep =>
    s.scalarWrite (scalarSeg sg) (s.scalarOffset a o) (2 ^ w.toNat) (s.getK d) keep)).scalar s

end Sys2Proof.Machine
end

