-- ==== Sys2Proof/Machine/Streams.lean ====
section
/-! DEFINITION. The scalar stream's side of the lane stream and of the register stack: lbk and LCTL (R89, R90), kcall
and kret with spill and fill (R97, R98, R357, R358), and the RALLOT family (R100, R101, R104). -/

namespace Sys2Proof.Machine

open Sys2Proof

/-- wait until lane_idle(gang) (R127). -/
def State.whenIdle (s : State) (a : Act) : Act := if s.g.laneIdle then a else .wait s .laneIdle

/-- LBK (R89). -/
def execLbk (a : Reg) (i : BitVec 16) (s : State) : Out :=
  (let idx := (s.getK a).toNat + i.toNat
   if s.g.kPoison.any (fun r => r < 32) then Act.trap (s.logUnit 1) .ue 0
   else if 2 ^ 24 ≤ idx then .trap s .opnd 0
   else if 4 ≤ s.g.lane.queue.length then .wait s .laneSpace
   else
     let b : Block := { idx := BitVec.ofNat 24 idx, snap := s.g.k }
     .ok (State.advance { s with g := { s.g with lane :=
       { s.g.lane with queue := s.g.lane.queue ++ [b], enqueued := s.g.lane.enqueued + 1 } } }) .none).scalar s

/-- LSYNC (R90). -/
def execLsync (s : State) : Out := (s.whenIdle s.done).scalar s

/-- Whether the gang's crew is versioned. -/
def State.inVersioned (s : State) : Bool :=
  match s.myCrew with
  | some c => c.version.versioned
  | none => false

/-- A lane register read by the scalar stream: 0 for a dead lane; a register that holds an uncorrectable error makes
its lane dead (R90, R375). -/
def State.lgetLane (s : State) (d : Reg) (lane n : Nat) : Act :=
  if s.g.pend.any fun p => p.regs.contains (s.g.slotOf n) then .stall s
  else if s.g.vPoison.contains (s.g.slotOf n, lane) then
    -- a lane of a versioned crew is never dead: UE (R378), at this scalar instruction
    if s.inVersioned then .trap (s.logUnit 0) .ue 0
    else
      let t := { s with g := { s.g with dead := s.g.dead ||| BitVec.twoPow 32 lane } }
      (t.logUnit 0).result d 0
  else if s.g.dead.getLsbD lane then s.result d 0
  else s.result d ((s.g.getV lane n).setWidth 64)

/-- LGET (R90). -/
def execLget (d a : Reg) (s : State) : Out :=
  (s.reading [a] (s.whenIdle
    (let x := s.getK a
     if field x 11 53 != 0 || s.g.window ≤ field x 0 6 then .trap s .opnd 0
     else s.lgetLane d (field x 6 5) (field x 0 6)))).scalar s

/-- LSLOTS (R90). -/
def execLslots (d : Reg) (s : State) : Out :=
  (s.result d (word [(4 - s.g.lane.queue.length, 0),
    (flag (s.g.lane.queue.isEmpty && !s.g.lane.running), 8)])).scalar s

/-! ### Spill and fill -/

/-- The places of 4 bytes of a slot in the spill area, for every lane that is not dead: l(4 × slot, lane) (R357), or
the first fault. -/
def State.slotPlaces (s : State) (slot : Nat) (write : Bool) : List Nat → Except Cause (List (Nat × List Place)) × State
  | [] => (.ok [], s)
  | lane :: rest =>
    if s.g.dead.getLsbD lane then s.slotPlaces slot write rest
    else
      match s.check s.g .l lane (4 * slot) 4 write false with
      | (.ok ps _, s) =>
        match s.slotPlaces slot write rest with
        | (.ok l, s) => (.ok ((lane, ps) :: l), s)
        | x => x
      | (.fault c _, s) => (.error c, s)
      | (.notYet, s) => (.error .xlat, s)

def State.groupPlaces (s : State) (write : Bool) : List Nat → Except Cause (List (Nat × List (Nat × List Place))) × State
  | [] => (.ok [], s)
  | slot :: rest =>
    match s.slotPlaces slot write (List.range 32) with
    | (.ok l, s) =>
      match s.groupPlaces write rest with
      | (.ok m, s) => (.ok ((slot, l) :: m), s)
      | x => x
    | (.error c, s) => (.error c, s)

/-- One group of 8 slots stored to the spill area; RES rises by 8 (R357). -/
def State.spillGroup (s : State) : Except Cause Unit × State :=
  match s.groupPlaces true ((List.range 8).map fun i => s.g.res + i) with
  | (.error c, s) => (.error c, s)
  | (.ok l, s) =>
    let cells := l.flatMap fun x => x.2.flatMap fun y => y.2.zip (leBytes 4 (s.g.getSlot x.1 y.1).toNat)
    let bad := l.flatMap fun x => x.2.flatMap fun y => if s.g.vPoison.contains (x.1, y.1) then y.2 else []
    if s.versionOpen s.g.ref.crew && s.holdFull s.g.ref.crew (physCells cells) then (.error .version, s)
    else
    let s := (s.gangWrite s.g.ref.crew s.g.core true 0 cells).gangPoison true bad
    (.ok (), { s with g := { s.g with regs := s.g.regs.drop 8 ++ List.replicate 8 (List.replicate 32 0),
                                      res := s.g.res + 8,
                                      vPoison := s.g.vPoison.filter fun p => s.g.res + 8 ≤ p.1 } })

/-- One group of 8 slots loaded from the spill area into the units of the top resident group; RES falls by 8
(R357). -/
def State.fillGroup (s : State) : Except Cause Unit × State :=
  let slots := (List.range 8).map fun i => s.g.res - 8 + i
  match s.groupPlaces false slots with
  | (.error c, s) => (.error c, s)
  | (.ok l, s) =>
    let ps := l.flatMap fun x => x.2.flatMap fun y => y.2
    if ps.any fun p => s.gangBad s.g.ref.crew s.g.core false p then (.error .ue, s)
    else
      let value (slot lane : Nat) : Half :=
        match (findBy (fun x => x.1 == slot) l).bind fun x => findBy (fun y => y.1 == lane) x.2 with
        | some y => BitVec.ofNat 32 (leNat (y.2.map fun p => s.gangByte s.g.ref.crew s.g.core false p))
        | none => 0
      let group := slots.map fun slot => (List.range 32).map fun lane => value slot lane
      (.ok (), { s with g := { s.g with regs := group ++ s.g.regs.take (s.g.regs.length - 8), res := s.g.res - 8,
                                        vPoison := s.g.vPoison.filter fun p =>
                                          decide (s.g.res ≤ p.1 ∧ p.1 + 8 < s.g.res + 8 * s.g.allot) } })

/-- The sequence of R357, one group at a time; the first group that fails stops it (R358). -/
def State.moveGroups (s : State) (spill : Bool) : Nat → Except Cause Unit × State
  | 0 => (.ok (), s)
  | n + 1 =>
    match (if spill then s.spillGroup else s.fillGroup) with
    | (.ok (), s) => s.moveGroups spill n
    | x => x

/-- A Mordant pair is compared where the instruction stores (R381). -/
def State.comparedWhen (s : State) (c : Bool) (a : Act) : Act := if c then s.compared a else a

/-- Slots move, or are given up, once no load or engine reply is still to write a register (R94). -/
def State.whenWritten (s : State) (a : Act) : Act := if s.g.pend.isEmpty then a else .stall s

/-- TRAP_INFO of SPILL and FILL (R356, R358). -/
def moveInfo (step : Nat) (c : Cause) (slot : Nat) : Word := word [(step, 0), (c.code, 8), (slot, 16)]

/-- KCALL (R97, R357). -/
def execKcall (st : BitVec 4) (i : BitVec 22) (s : State) : Out :=
  (if st.toNat > 7 then Act.trap s .ill 0
   else s.whenIdle
    (let w := s.g.win + 8 * st.toNat
     let top := s.g.res + 8 * s.g.allot
     if 65536 < w + 64 then .trap s .opnd 0
     else s.whenWritten
       (s.comparedWhen (top < w + s.g.window)
       (match s.moveGroups true ((w + s.g.window - top) / 8) with
       | (.error .version, t) => .trap t .version 1
       | (.error c, t) => .trap t .spill (moveInfo st.toNat c t.g.res)
       | (.ok (), t) =>
         let t := t.setK 31 (t.g.pc + 4)
         .ok ({ t with g := { t.g with win := w } }.setPc (t.g.pc + i.signExtend 64 * 4)) .write)))).scalar s

/-- KRET (R98, R357). -/
def execKret (st : BitVec 4) (s : State) : Out :=
  (if st.toNat > 7 then Act.trap s .ill 0
   else s.whenIdle (s.reading [31]
    (if s.g.win < 8 * st.toNat then .trap s .opnd 0
     else if s.getK 31 &&& 3 != 0 then .trap s .align 0
     else s.whenWritten
       (let w := s.g.win - 8 * st.toNat
       match s.moveGroups false ((s.g.res - w + 7) / 8) with
       | (.error c, t) => .trap t .fill (moveInfo st.toNat c (t.g.res - 8))
       | (.ok (), t) => .ok ({ t with g := { t.g with win := w } }.setPc (t.getK 31)) .write)))).scalar s

/-! ### Allotments -/

/-- Units of a register bank of a core that no gang holds (R104). -/
def State.bankFree (s : State) (core bank : Nat) : Nat :=
  16 - sumNat ((s.residentGangs core).map fun g => (g.units.filter fun u => u == bank).length)

/-- Where the next unit comes from (R104): the lowest-numbered powered register bank with a free unit, else the
lowest-numbered gated one, which wakes. A request of several units takes one after another (log 72). -/
def pickBank (free : Nat → Nat) (gated : List Nat) : Nat :=
  match findBy (fun b => !gated.contains b && free b != 0) (List.range 16) with
  | some b => b
  | none => (findBy (fun b => gated.contains b && free b != 0) (List.range 16)).getD 0

/-- The register banks of n units taken one after another, and the banks still gated. -/
def takeUnits : Nat → (Nat → Nat) → List Nat → List Nat × List Nat
  | 0, _, gated => ([], gated)
  | n + 1, free, gated =>
    let b := pickBank free gated
    let r := takeUnits n (fun x => if x == b then free x - 1 else free x) (gated.filter fun x => x != b)
    (b :: r.1, r.2)

/-- Units a request of n takes from the pool: twice as many for a Mordant pair (R380). -/
def Gang.cost (g : Gang) (n : Nat) : Nat := if g.shadow.isSome then 2 * n else n

/-- n units granted to a gang: its allotment grows at the top, new slots zero (R100). -/
def State.giveUnits (s : State) (r : GangRef) (n : Nat) : State :=
  match s.gang r with
  | none => s
  | some g =>
    let u := takeUnits (g.cost n) (s.bankFree g.core) (s.core g.core).gated
    (s.updGang r fun g =>
      { g with allot := g.allot + n, units := g.units ++ u.1,
               regs := g.regs ++ List.replicate (8 * n) (List.replicate 32 0) }).updCore g.core
      fun c => { c with gated := u.2 }

/-- rgrow and racq (R100): granted at once at the head of an empty queue, else the gang joins the queue. -/
def State.request (s : State) (d : Reg) (n : Nat) (racq : Bool) : Act :=
  let core := s.core s.g.core
  if n == 0 then s.result d (BitVec.ofNat 64 s.g.allot)
  else if 64 < s.g.allot + n then .trap s .opnd 0
  else if core.grants.any fun x => x.gang == s.g.ref then .wait s .grant
  else if core.grants.isEmpty && decide (s.g.cost n ≤ s.poolFree s.g.core) then
    (s.giveUnits s.g.ref n).result d (BitVec.ofNat 64 (s.g.allot + n))
  else
    .wait (s.updCore s.g.core fun c => { c with grants := c.grants ++ [{ gang := s.g.ref, n := n, racq := racq, kd := d }] })
      .grant

/-- RGROW (R100). -/
def execRgrow (d a : Reg) (s : State) : Out := (s.reading [a] (s.request d (s.getK a).toNat false)).scalar s

/-- The units of a launch record's full allotment (R66). -/
def State.fullUnits (s : State) : Nat :=
  match s.kernelOf s.g.ref.crew with
  | some k => k.desc.full
  | none => 0

/-- RACQ (R100). -/
def execRacq (d : Reg) (s : State) : Out := (s.request d (s.fullUnits - s.g.allot) true).scalar s

/-- RSHRK (R100). -/
def execRshrk (d a : Reg) (s : State) : Out :=
  (s.reading [a] (s.whenIdle
    (let n := (s.getK a).toNat
     let left := s.g.allot - n
     if s.g.allot ≤ n then .trap s .opnd 0
     else if s.g.res + 8 * left < s.g.win + min 64 (8 * left) then .trap s .opnd 0
     else s.whenWritten
       (State.result { s with g := { s.g with allot := left, regs := s.g.regs.take (8 * left),
                                              units := s.g.units.take (s.g.cost left),
                                              vPoison := s.g.vPoison.filter fun p => p.1 < s.g.res + 8 * left } }
         d (BitVec.ofNat 64 left))))).scalar s

end Sys2Proof.Machine
end

