-- ==== Sys2Proof/Machine/Sys.lean ====
section
/-! DEFINITION. The SYS family (R162 to R168), the FENCE and WAIT families (R170 to R173), cseal and srec (R174, R175,
R252), vbeg and vcom (R178), and the batches of a gang (R248). -/

namespace Sys2Proof.Machine

open Sys2Proof

/-! ### Special registers, traps and the return -/

/-- CSRR (R163). -/
def execCsrr (d : Reg) (n : BitVec 10) (s : State) : Out :=
  (if !srnListed n.toNat then Act.trap s .ill 0
   else s.readingSr [n.toNat] (s.result d (s.readSr n.toNat))).scalar s

/-- A csrw leaves an entry with what it overwrote (R372); one that shortens the log itself leaves none. -/
def undoSr (n : Nat) : Undo := if n == 0x081 then .none else .write

/-- CSRW (R163, R122). -/
def execCsrw (a : Reg) (n : BitVec 10) (s : State) : Out :=
  (if !srnWritable n.toNat then Act.trap s .ill 0
   else s.privileged (s.reading [a] (s.compared
     (if n == 0x030 && !s.g.pend.isEmpty then .stall s else .ok (s.writeSr n.toNat (s.getK a)).advance (undoSr n.toNat))))).scalar s

/-- KTRAP (R164): complete before it raises BRK, so TRAP_PC is the next instruction. -/
def execKtrap (a : Reg) (s : State) : Out :=
  (s.reading [a] (.trap s.advance .brk (s.getK a &&& 0x7FFFFFFFFFFFFFFF))).scalar s

/-- KBRK (R164). -/
def execKbrk (s : State) : Out := (Act.trap s .brk 0x8000000000000000).scalar s

/-- KERET (R165, R354). -/
def execKeret (s : State) : Out :=
  (s.privileged
    (s.readingSr [0x060, 0x061, 0x062] (.ok { s with g := s.g.returnFromK } .fence))).scalar s

/-! ### Batches -/

/-- The number of the open batch (R174). -/
def Gang.openBatch (g : Gang) : BitVec 32 := g.sealed + 1

/-- (BATCH_SEALED − BATCH_DONE) mod 2^32 (R173). -/
def Gang.batchGap (g : Gang) : Nat := (g.sealed - g.batchDone).toNat

/-- A note changed or added for a batch of a gang. -/
def noteBatch (num : Nat) (f : BatchNote → BatchNote) (ns : List BatchNote) : List BatchNote :=
  if (findBy (fun n => n.num == num) ns).isSome then updBy (fun n => n.num == num) f ns
  else ns ++ [f { BatchNote.zero with num := num }]

/-- Batches that finish, oldest first (R248): the next after BATCH_DONE finishes once sealed and once no copy of it is
still to land. -/
def Gang.finishBatches (g : Gang) (left : BitVec 32 → Bool) : Nat → Gang
  | 0 => g
  | n + 1 =>
    let b := g.batchDone + 1
    if g.batchDone == g.sealed || left b then g
    else
      let note := (findBy (fun x => x.num == b.toNat) g.notes).getD { BatchNote.zero with num := b.toNat }
      Gang.finishBatches
        { g with batchDone := b, lastBatch := note, notes := dropBy (fun x => x.num == b.toNat) g.notes,
                 errCnt := if note.poison || note.drop then min 255 (g.errCnt + 1) else g.errCnt } left n

/-- Whether a copy of a batch of a gang is still to land. -/
def State.batchLeft (s : State) (r : GangRef) (b : BitVec 32) : Bool :=
  s.copies.any fun c => c.gang == r && c.batch == b

def State.settleBatches (s : State) (r : GangRef) : State :=
  s.updGang r fun g => g.finishBatches (s.batchLeft r) 16

/-- The open batch sealed (R174). -/
def State.sealBatch (s : State) : State :=
  State.settleBatches { s with g := { s.g with sealed := s.g.sealed + 1 } } s.g.ref

/-- CSEAL (R174, R239). -/
def execCseal (d : Reg) (s : State) : Out :=
  (s.whenIdle (if 15 ≤ s.g.batchGap then .wait s .batchSpace
    else s.sealBatch.result d ((s.g.sealed + 1).setWidth 64))).scalar s

/-! ### Ending a gang -/

/-- A gang ends by kend (R166): its units return, and its crew's barriers lose it (R322). -/
def State.endGang (s : State) : State :=
  let r := s.g.ref
  let s := { s with g := { s.g with status := .ended, allot := 0, units := [], regs := [], wait := none, kept := none } }
  (List.range 16).foldl (fun s n => s.updBarrier (.crew r.crew n) fun b => b.leave r.idx) s

/-- Step mode that a gang owns ends at its kend, before anything else (R278, R282): the operation at the head runs
freely. -/
def State.leaveStep (s : State) : State :=
  let r := s.g.ref
  match s.myCrew with
  | none => s
  | some c =>
    if c.pages.all fun p => p.owner != some r then s
    else s.updCrew r.crew fun c => { c with pages := c.pages.map fun p => if p.owner == some r then p.endStep else p }

/-- After a gang's kend: the last one commits the crew's version and ends the crew (R86, R367), once no mtx of a peer
holds its pages (R318). -/
def State.afterKend (s : State) (crew : Nat) : State :=
  if (s.crewGangs crew).all fun g => g.status == .ended then
    ((s.commitVersion crew true).updCrew crew fun c => { c with state := .failing }).settleCrew crew
  else s

/-- Whether the open batch holds a copy. -/
def Gang.batchOpen (g : Gang) : Bool := g.notes.any fun n => n.num == g.openBatch.toNat

/-- KEND (R166): a batch left open is sealed as cseal seals it (R174). -/
def execKend (s : State) : Out :=
  (s.compared (State.whenIdle s.leaveStep
    (let s := s.leaveStep
     let t := if s.g.batchOpen && s.g.batchGap < 15 then s.sealBatch else s
     if t.g.batchOpen then .wait t .batchSpace
     else if t.g.sealed != t.g.batchDone then .wait t .kendBatches
     else if t.g.ifcOf .cp != 0 || t.g.ifcOf .mx != 0 || t.g.ifcOf .xf != 0 || t.g.ifcOf .fx != 0 then
       .wait t .kendCounters
     else if t.g.ust != 0 || !t.g.loadsBack then .wait t (.loadsAndStores false)
     else .ok (t.endGang.afterKend t.g.ref.crew) .none))).scalar s

/-! ### Segments -/

/-- A segment descriptor (R43): the segment and its new base and limit, or none where it breaks R43. -/
def segDescriptor (x : Nat) : Option (SegName × Seg) :=
  let base := x % 2 ^ 64
  let w := x / 2 ^ 64
  if bits base 63 57 != 0 || bits w 63 61 != 0 || decide (2 ^ 57 < bits w 57 0) then none
  else (SegName.ofCode (bits w 60 58)).map fun n =>
    (n, { base := BitVec.ofNat 64 base, limit := BitVec.ofNat 64 (bits w 57 0) })

/-- SGLD (R167, R43). -/
def execSgld (a : Reg) (s : State) : Out :=
  (s.privileged (s.reading [a] (s.compared
    (if s.getK a &&& 15 != 0 then .trap s .align (s.getK a)
     else s.whenIdle
      (if s.g.ust != 0 || !s.g.ifc.isEmpty then .wait s .drain
       else s.scalarRead .g (s.getK a).toNat 16 true false fun t x =>
         match segDescriptor x with
         | none => .trap t .opnd 0
         | some (n, v) => .ok (State.advance { t with g := { t.g with segs := t.g.segs.put n v } }) .write))))).scalar s

/-! ### Translation invalidation -/

/-- The 17 agents (R48). -/
def tlbiAgents : List Nat := List.range 17

/-- The agents that have not acknowledged, as TRAP_INFO<16:0> (R49). -/
def Tlbi.missing (t : Tlbi) : BitVec 17 :=
  BitVec.ofNat 17 (sumNat ((tlbiAgents.filter fun a => !t.acked.contains a).map fun a => 2 ^ a))

/-- The second half of a ktlbi: its wait for 17 acknowledgements (R48, R49). -/
def State.tlbiWait (s : State) (id : Nat) : Act :=
  match findBy (fun t => t.id == id) s.tlbis with
  | none => s.done
  | some t =>
    if let some m := t.failed then
      .trap { s with tlbis := dropBy (fun t => t.id == id) s.tlbis } .ue (m.setWidth 64)
    else if t.acked.length == 17 then State.done { s with tlbis := dropBy (fun t => t.id == id) s.tlbis }
    else .wait s (.tlbi id)

/-- An invalidation broadcast (R48, R50). -/
def State.broadcast (s : State) (asid : Nat) (all : Bool) (va : Nat) (gang : Option GangRef) : Nat × State :=
  (s.nextId,
   { s with nextId := s.nextId + 1,
            tlbis := s.tlbis ++ [{ id := s.nextId, asid := asid, all := all, va := va, acked := [], start := s.cycle,
                                   port := gang.isNone, gang := gang, failed := none }] })

/-- KTLBI (R168, R48, R49). -/
def execKtlbi (a b : Reg) (s : State) : Out :=
  (match s.g.wait with
   | some (.tlbi id) => s.tlbiWait id
   | _ =>
     s.privileged (s.reading [a, b]
      (let x := s.getK a
       let y := s.getK b
       if field x 13 51 != 0 || field x 0 12 == 0 then .trap s .opnd 0
       else if field x 0 12 != s.myAsid then .trap s .prot 0
       else if !x.getLsbD 12 && field y 57 7 != 0 then .trap s .opnd 0
       else s.compared
        (if s.g.ust != 0 then .wait s .stores
         else
           let r := s.broadcast s.myAsid (x.getLsbD 12) (field y 0 57) (some s.g.ref)
           .wait r.2 (.tlbi r.1))))).scalar s

/-! ### Fences -/

/-- A release of the gang at a scope: in a versioned crew, one of clus scope or wider commits (R367). -/
def State.releaseVersion (s : State) (scope : Nat) : State :=
  if 1 ≤ scope then s.commitVersion s.g.ref.crew false else s

/-- What fence.rel waits for (R170). -/
def State.released (s : State) (bd : Bool) (a : Act) : Act :=
  s.whenIdle (if s.g.loadsBack && s.g.ust == 0 && !(bd && s.g.ifcOf .bd != 0) then a else .wait s (.loadsAndStores bd))

/-- What fence.acq does once every load has returned (R170, R261). -/
def State.acquired (s : State) (scope : Nat) : State := if 1 ≤ scope then s.l1Flush s.g.core else s

/-- FENCE_REL (R170). -/
def execFenceRel (sc : BitVec 5) (bd : BitVec 1) (s : State) : Out :=
  (if sc.toNat > 4 then Act.trap s .ill 0
   else s.released (bd == 1) (s.releaseVersion sc.toNat).done).scalar s

/-- FENCE_ACQ (R170). -/
def execFenceAcq (sc : BitVec 5) (_bd : BitVec 1) (s : State) : Out :=
  (if sc.toNat > 4 then Act.trap s .ill 0
   else s.whenIdle (if s.g.loadsBack then (s.acquired sc.toNat).done else .wait s .loads)).scalar s

/-- FENCE (R170): fence.rel, then fence.acq. -/
def execFence (sc : BitVec 5) (bd : BitVec 1) (s : State) : Out :=
  (if sc.toNat > 4 then Act.trap s .ill 0
   else s.released (bd == 1) ((s.releaseVersion sc.toNat).acquired sc.toNat).done).scalar s

/-- FENCE_SC (R171): the release, then the first tick after it, then the acquire. -/
def execFenceSc (sc : BitVec 5) (bd : BitVec 1) (s : State) : Out :=
  (if !(sc == 3 || sc == 4) then Act.trap s .ill 0
   else s.needs 10
    (match s.g.wait with
     | some (.tick t) =>
       if t < s.heartbeat.toNat then (s.acquired sc.toNat).done else .wait s (.tick t)
     | _ => s.released (bd == 1) (.wait (s.releaseVersion sc.toNat) (.tick s.heartbeat.toNat)))).scalar s

/-- FENCEX (R172). A wait is needed only when the first path is a direct one. -/
def execFencex (sc f t : BitVec 5) (s : State) : Out :=
  (if sc.toNat > 4 || f.toNat > 7 || t.toNat > 7 then Act.trap s .ill 0
   else s.whenIdle
    (match f.toNat with
     | 0 => if s.g.loadsBack then s.done else .wait s .loads
     | 1 => if s.g.ust == 0 then s.done else .wait s .stores
     | 2 => if s.g.loadsBack && s.g.ust == 0 then s.done else .wait s (.loadsAndStores false)
     | _ => s.done)).scalar s

/-! ### Waits on engines -/

/-- The engine path of a code (R112). -/
def enginePath (c : Nat) : Path :=
  match c with
  | 3 => .cp
  | 4 => .mx
  | 5 => .xf
  | 6 => .bd
  | _ => .fx

/-- PWAIT (R173, R239). -/
def execPwait (p : BitVec 5) (a : Reg) (s : State) : Out :=
  (if !(3 ≤ p.toNat && p.toNat ≤ 7) then Act.trap s .ill 0
   else s.reading [a] (s.whenIdle
    (if s.g.ifcOf (enginePath p.toNat) ≤ (s.getK a).toNat then s.done
     else .wait s (.counter (enginePath p.toNat) (s.getK a).toNat)))).scalar s

/-- CBWAIT (R173, R239). -/
def execCbwait (a : Reg) (s : State) : Out :=
  (s.reading [a] (s.whenIdle
    (if s.g.batchGap ≤ (s.getK a).toNat then s.done else .wait s (.batchGap (s.getK a).toNat)))).scalar s

/-! ### Streams -/

def bytesAt (x o n : Nat) : Nat := x / 256 ^ o % 256 ^ n

/-- A stream record as its 64 bytes, or none where it breaks R252. -/
def streamRecord (x : Nat) : Option StreamRec :=
  let seg := bytesAt x 0x08 1
  let elog := bytesAt x 0x09 1
  let dims := bytesAt x 0x0A 1
  let flags := bytesAt x 0x0B 1
  let count := (List.range 4).map fun d => bytesAt x (0x10 + 4 * d) 4
  let stride := (List.range 4).map fun d => bytesAt x (0x20 + 4 * d) 4
  let ibase := bytesAt x 0x30 8
  let ilog := bytesAt x 0x38 1
  let iscale := bytesAt x 0x39 1
  let indirect := flags % 2 == 1
  let dimsOk := (List.range 4).all fun d =>
    if d < dims then count.getD d 0 != 0 else count.getD d 0 == 0 && stride.getD d 0 == 0
  if 3 < seg || !(elog == 2 || elog == 3) || dims == 0 || 4 < dims || 3 < flags || bytesAt x 0x0C 4 != 0 || !dimsOk
      || bytesAt x 0x3A 6 != 0 then none
  else if indirect && (!(ilog == 2 || ilog == 3) || 7 < iscale) then none
  else if !indirect && (ibase != 0 || ilog != 0 || iscale != 0) then none
  else
    some { base := BitVec.ofNat 64 (bytesAt x 0 8), seg := seg, elog := elog, dims := dims, indirect := indirect,
           nc := flags / 2 % 2 == 1, count := count, stride := stride.map fun v => toInt true 32 v,
           ibase := BitVec.ofNat 64 ibase, ilog := ilog, iscale := iscale }

/-- SREC (R175, R252). -/
def execSrec (sl : BitVec 5) (a : Reg) (s : State) : Out :=
  (if sl.toNat > 3 then Act.trap s .ill 0
   else s.reading [a]
    (if s.getK a &&& 63 != 0 then .trap s .align (s.getK a)
     else s.whenIdle (s.scalarRead .g (s.getK a).toNat 64 true false fun t x =>
       match streamRecord x with
       | none => .trap t .opnd 0
       | some r =>
         .ok (State.advance { t with g := { t.g with streams := t.g.streams.set sl.toNat (some { desc := r, pos := 0 }) } })
           .none))).scalar s

/-! ### Versions -/

/-- vbeg and vcom wait until lane_idle(gang) and UST is 0, and raise VERSION in a crew that is not versioned (R178). -/
def State.versioned (s : State) (a : Act) : Act :=
  s.needs 3
    (match s.myCrew with
     | some c =>
       if !c.version.versioned then .trap s .version 0
       else s.whenIdle (if s.g.ust != 0 then .wait s .stores else a)
     | none => .trap s .version 0)

/-- VBEG (R178). -/
def execVbeg (d : Reg) (s : State) : Out :=
  (s.versioned
    (let t := s.updCrew s.g.ref.crew fun c => { c with version := { c.version with opened := true } }
     t.result d t.verState)).scalar s

/-- VCOM (R178). -/
def execVcom (d : Reg) (s : State) : Out :=
  (s.versioned
    (let t := s.commitVersion s.g.ref.crew true
     t.result d t.verState)).scalar s

end Sys2Proof.Machine
end

