-- ==== Sys2Proof/Machine/Operands.lean ====
section
/-! DEFINITION. The common frame of a lane instruction (R119): its slot and on lanes, its operand fields (R114, R115),
the word and state causes in the order of R121, dead lanes (R375, R378), and the write-back with its latch
(R106). -/

namespace Sys2Proof.Machine

open Sys2Proof

/-! ### Slot, guard and on lanes -/

/-- The slot that issues (R94). -/
def Gang.slotNow (g : Gang) : Slot := if g.lane.cur then g.lane.s1 else g.lane.s0

/-- The other slot. -/
def Gang.slotOther (g : Gang) : Slot := if g.lane.cur then g.lane.s0 else g.lane.s1

def Gang.putSlotNow (g : Gang) (x : Slot) : Gang :=
  { g with lane := if g.lane.cur then { g.lane with s1 := x } else { g.lane with s0 := x } }

def Gang.putSlotOther (g : Gang) (x : Slot) : Gang :=
  { g with lane := if g.lane.cur then { g.lane with s0 := x } else { g.lane with s1 := x } }

/-- act of R119: the lanes of the issuing slot that are not dead. -/
def Gang.active (g : Gang) : Mask := g.slotNow.mask &&& ~~~g.dead

/-- The lanes for which guard(i) is 1 (R113). -/
def Gang.guardMask (g : Gang) (f : LaneF) : Mask := if f.gn then ~~~(g.getQ f.gp.toNat) else g.getQ f.gp.toNat

/-- on of R119. -/
def Gang.onMask (g : Gang) (f : LaneF) : Mask := g.active &&& g.guardMask f

def laneList : List Nat := List.range 32

/-- A mask of the lanes that satisfy a test. -/
def maskOf (p : Nat → Bool) : Mask :=
  BitVec.ofNat 32 (sumNat (laneList.map fun i => if p i then 2 ^ i else 0))

def Mask.lanes (m : Mask) : List Nat := laneList.filter fun i => m.getLsbD i

/-- TRAP_INFO of a lane cause (R356). -/
def Gang.laneInfo (g : Gang) (level : Nat) (idx : BitVec 24) (mask : Mask) : Word :=
  word [(mask.toNat, 0), (idx.toNat, 32), (level, 56), (flag g.lane.cur, 59)]

/-- A lane cause at the current instruction. -/
def State.laneTrap (s : State) (c : Cause) (level : Nat) (mask : Mask) : Act :=
  .trap s c (s.g.laneInfo level s.g.slotNow.pc mask)

/-! ### Operand fields -/

/-- What a source field may name. -/
inductive SrcKind where
  | any          -- R114
  | plain        -- R114 without the latches
  | vec          -- a v register
  | vecOrZero    -- a v register or zero (R212)
  | desc         -- k, the literal or zero (R295)
deriving DecidableEq, Repr

/-- A source field that holds a value: its code, the 32-bit registers it covers when it names a v register, and the
alignment of the first. -/
structure Src where
  code : BitVec 8
  span : Nat
  align : Nat
  kind : SrcKind
deriving DecidableEq, Repr

def src32 (c : BitVec 8) : Src := { code := c, span := 1, align := 1, kind := .any }
def src64 (c : BitVec 8) : Src := { code := c, span := 2, align := 2, kind := .any }
def srcOf (wide : Bool) (c : BitVec 8) : Src := if wide then src64 c else src32 c

/-- Registers of an SMM operand (R212). -/
def smmSpan (f : LaneF) : Nat := if f.ty == .f64 then 4 else 2

def srcSmm (f : LaneF) (k : SrcKind) (c : BitVec 8) : Src :=
  { code := c, span := smmSpan f, align := smmSpan f, kind := k }

def srcQuad (c : BitVec 8) : Src := { code := c, span := 4, align := 1, kind := .vec }
def srcPlain (c : BitVec 8) : Src := { code := c, span := 1, align := 1, kind := .plain }

/-- Whether the G side of a cpa is its source (R240). -/
def cpaFromG (f : LaneF) : Bool := field f.md 0 2 == 0
def cpaToG (f : LaneF) : Bool := field f.md 0 2 == 1

/-- The source fields of a member that hold operands (R114, R180, R184, R189, R194, R204, R206, R212, R216, R240,
R243, R254, R295). -/
def laneSrcs (op : LaneOp) (f : LaneF) : List Src :=
  let w := f.ty.is64
  let addr := srcOf (!f.md.getLsbD 6) f.sa
  match op with
  | .iaddc | .isad | .idp4 => [src32 f.sa, src32 f.sb, src32 f.sc]
  | .imad | .lop3 | .ffma => [srcOf w f.sa, srcOf w f.sb, srcOf w f.sc]
  | .iadd | .isub | .imul | .imulh | .imin | .imax | .lAnd | .lOr | .lXor | .andn | .prmt | .icmp | .sel | .fadd | .fsub
  | .fmul | .fmin | .fmax | .fcmp | .fdiv => [srcOf w f.sa, srcOf w f.sb]
  | .shl | .shr | .sra | .rotl | .fscale | .shfl => [srcOf w f.sa, src32 f.sb]
  | .bfe => [srcOf w f.sa, src32 f.sb, src32 f.sc]
  | .bfi => [srcOf w f.sa, srcOf w f.sc]
  | .iabs | .ineg | .lNot | .popc | .clz | .brev | .mov | .fabs | .fneg | .fclass | .frcp | .frsq | .fsqrt | .fexp2
  | .flog2 | .fsin | .fcos | .redux | .xmatch | .scan => [srcOf w f.sa]
  | .movi => if f.ty == .b32 then [] else [src32 f.sa]
  | .cvt => [srcOf (Ty.ofCode (field f.sc 0 4)).is64 f.sa]
  | .cvtPk => [src32 f.sa, src32 f.sb] ++ if f.ty.elem == 8 then [src32 f.sc] else []
  | .cvtQ8 => [src32 f.sa, src32 f.sb, src32 f.sc]
  | .smm8 | .smm8Tb => [srcSmm f .vec f.sa, srcSmm f .vec f.sb, srcSmm f .vecOrZero f.sc]
  | .ld => [addr]
  | .st | .atomAdd | .atomMin | .atomMax | .atomMinn | .atomMaxn | .atomAnd | .atomOr | .atomXor | .atomExch
  | .atomFadd => [addr, srcOf w f.sb]
  | .atomCas => [addr, srcOf w f.sb, srcOf w f.sc]
  | .cpa => [srcOf (cpaFromG f) f.sa, srcOf (cpaToG f) f.sb]
  | .cpt => [srcOf (!f.md.getLsbD 5) f.sa, src32 f.sb] ++ if f.md.getLsbD 4 then [src32 f.sc] else []
  | .cpr => [{ code := f.sa, span := 1, align := 1, kind := .desc }]
  | .cpw => [{ code := f.sa, span := 1, align := 1, kind := .desc },
      { code := f.sb, span := if w then 2 else 1, align := if w then 2 else 1, kind := .plain }]
  | .xfmTr | .xfmQ | .xfmX4 => [srcPlain f.sa]
  | .xfmDq => [srcPlain f.sa, srcPlain f.sb]
  | .xfmZc => [srcQuad f.sa]
  | .xfmZd => [srcQuad f.sa, srcPlain f.sb]
  | .pand | .por | .pxor | .pnot | .getsr | .vote | .ballot | .ldRec | .bra | .join | .lend | .lnop | .lstat
  | .lclock => []

/-- The source fields of a member that hold a predicate number (R180, R204). -/
def laneQs (op : LaneOp) (f : LaneF) : List (BitVec 8) :=
  match op with
  | .pand | .por | .pxor => [f.sa, f.sb]
  | .pnot | .vote | .ballot => [f.sa]
  | .icmp | .fcmp | .fclass => if field f.md 3 2 != 0 then [f.sc] else []
  | .sel | .shfl => [f.sc]
  | _ => []

/-- Whether the member's result is 64 bits wide (R115, R184, R218, R255). -/
def wideResult (op : LaneOp) (f : LaneF) : Bool :=
  f.ty.is64 && !(op == .popc || op == .clz || op == .xmatch)

/-- The 32-bit registers the destination covers, and the alignment of the first (R115, R212, R254). -/
def dstSpan (op : LaneOp) (f : LaneF) : Nat × Nat :=
  match op with
  | .smm8 | .smm8Tb => (smmSpan f, smmSpan f)
  | .xfmZc => (5, 1)
  | .xfmZd => (4, 1)
  | op => if wideResult op f then (2, 2) else (1, 1)

/-- Whether MOD<6:4> of the member is a rounding value (R117, R190, R206, R209 to R211, R213, R219). -/
def usesRound (op : LaneOp) : Bool :=
  match op with
  | .fadd | .fsub | .fmul | .ffma | .fscale | .fsqrt | .fdiv | .smm8 | .smm8Tb | .cvt | .cvtPk | .cvtQ8 | .redux
  | .scan => true
  | _ => false

/-- Whether a source field raises OPND (R96, R114). -/
def Src.bad (x : Src) (window : Nat) (own : Bool) : Bool :=
  let c := x.code.toNat
  if c < 0x40 then x.kind == .desc || c % x.align != 0 || decide (window < c + x.span)
  else if c < 0x44 then x.kind != .any || x.span != 1
  else if c == 0x44 then own || x.kind == .vec || x.kind == .vecOrZero
  else if c == 0x45 then x.kind == .vec || x.kind == .vecOrZero || x.kind == .desc
  else if c == 0x46 then x.kind == .vec
  else decide (c < 0x80 ∨ 0x9F < c) || x.kind == .vec || x.kind == .vecOrZero

/-- Whether the destination field raises OPND (R96, R115). -/
def dstBad (op : LaneOp) (f : LaneF) (window : Nat) : Bool :=
  match op.dst with
  | .none => false
  | .q => decide (7 < f.dst.toNat)
  | .v =>
    let d := dstSpan op f
    !f.nwb && (decide (0x3F < f.dst.toNat) || f.dst.toNat % d.2 != 0 || decide (window < f.dst.toNat + d.1))

/-- OPND of a lane word under the gang's state (R121, cause 4). -/
def Gang.opndBad (g : Gang) (op : LaneOp) (f : LaneF) : Bool :=
  f.ty == .reserved || (usesRound op && decide (4 < field f.md 4 3))
    || (laneSrcs op f).any (fun x => x.bad g.window (op.ownImm f)) || (laneQs op f).any (fun q => decide (7 < q.toNat))
    || dstBad op f g.window || !g.windowFits

/-- The features a lane word needs (R40, R41, R118, R254): bits of FEAT_EN0. The decode-ahead class is WOAD's (log 14). -/
def laneFeature (op : LaneOp) (f : LaneF) : Option Nat :=
  match op with
  | .smm8 | .smm8Tb => some 7
  | .xfmQ => if field f.md 0 2 == 1 then some 0 else if field f.md 0 2 == 2 then some 1 else none
  | .xfmZc | .xfmZd => some 2
  | .cpa => if f.md.getLsbD 4 then some 2 else none
  | .cpt => if f.md.getLsbD 6 then some 2 else none
  | _ => none

/-- The v registers, as slots of the register stack, that a word reads and writes. -/
def Gang.readSlots (g : Gang) (op : LaneOp) (f : LaneF) : List Nat :=
  (laneSrcs op f).flatMap fun x =>
    if x.code.toNat < 0x40 then (List.range x.span).map fun i => g.slotOf (x.code.toNat + i) else []

def Gang.writeSlots (g : Gang) (op : LaneOp) (f : LaneF) : List Nat :=
  if op.dst == .v && !f.nwb then (List.range (dstSpan op f).1).map fun i => g.slotOf (f.dst.toNat + i) else []

/-- The latches a word reads. -/
def laneLatches (op : LaneOp) (f : LaneF) : List Nat :=
  (laneSrcs op f).filterMap fun x =>
    if 0x40 ≤ x.code.toNat ∧ x.code.toNat < 0x44 then some (x.code.toNat - 0x40) else none

/-- Whether a latch is still to be written by an instruction in flight. -/
def Gang.latchPending (g : Gang) (l : Nat) : Bool :=
  g.pend.any fun p =>
    match p.latch with
    | some x => x.1 == l
    | none => false

def Gang.latchReady (g : Gang) (l : Nat) : Bool := (g.latches.getD l Latch.empty).valid

/-- Whether a register that a word reads or writes is reserved by an instruction in flight (R94). -/
def Gang.reserved (g : Gang) (op : LaneOp) (f : LaneF) : Bool :=
  g.pend.any fun p => p.regs.any fun r => (g.readSlots op f ++ g.writeSlots op f).contains r

/-- The word and state causes of R121, or not ready, or neither. -/
inductive Gate where
  | pass
  | trap (c : Cause)
  | stall
deriving DecidableEq, Repr

def State.laneGate (s : State) (op : LaneOp) (f : LaneF) : Gate :=
  if (op.illegal f).isSome then .trap .ill
  else if (match laneFeature op f with
           | some n => !s.hasFeature n
           | none => false) then .trap .ill
  else if s.g.opndBad op f then .trap .opnd
  else if (laneLatches op f).any (fun l => !s.g.latchReady l && !s.g.latchPending l) then .trap .latch
  else if (laneLatches op f).any (fun l => s.g.latchPending l) || s.g.reserved op f then .stall
  else .pass

/-! ### Answers -/

/-- A lane instruction's answer as the next state. -/
def Act.lane (before : State) : Act → Out
  | .ok s u => .next (s.retire before true u)
  | .trap s c info => .next (if before.g.uncompared then before else s.takeTrap true c info)
  | .wait s _ => .next s
  | .stall s => .next (if before.g.uncompared then before else s)

/-- The frame of R119 up to `compute`: TRAP_INFO names no lane for a cause of the word, the on lanes for LATCH, and
the chain's head as INDEX there (R108). -/
def State.lane (s : State) (op : LaneOp) (f : LaneF) (k : Act) : Out :=
  (match s.laneGate op f with
   | .pass => k
   | .trap .latch => .trap s .latch (s.g.laneInfo 0 s.g.lane.chainHead (s.g.onMask f))
   | .trap c => s.laneTrap c 0 0
   | .stall => .stall s).lane s

/-- Lanes made dead (R378, R379). -/
def State.kill (s : State) (m : Mask) : State := { s with g := { s.g with dead := s.g.dead ||| m } }

/-- Lanes that meet poisoned data: dead from here, or UE in a versioned crew (R378). -/
def State.poisoned (s : State) (bad : Mask) (k : State → Act) : Act :=
  if bad == 0 then k s
  else if s.inVersioned then s.laneTrap .ue 0 bad
  else k (s.kill bad)

/-- The lanes that read a register holding an uncorrectable error: of the on lanes, or for shfl of the lanes that may
supply a value (R215, R375). -/
def Gang.badLanes (g : Gang) (op : LaneOp) (f : LaneF) : Mask :=
  if g.vPoison.isEmpty then 0
  else
    let slots := g.readSlots op f
    maskOf fun i => (if op == .shfl then g.active else g.onMask f).getLsbD i && slots.any fun r => g.vPoison.contains (r, i)

/-- The rest of the frame, with the on lanes: a lane that reads a bad register is dead first (R375). -/
def State.sound (s : State) (op : LaneOp) (f : LaneF) (k : State → Act) : Act :=
  let bad := s.g.badLanes op f
  if bad == 0 then k s else (s.logUnit 0).poisoned bad k

/-! ### Operand values -/

/-- A 32-bit source of a lane (R114). -/
def Gang.src32 (g : Gang) (f : LaneF) (code : BitVec 8) (i : Nat) : Half :=
  let c := code.toNat
  if c < 0x40 then g.getV i c
  else if c < 0x44 then (g.latches.getD (c - 0x40) Latch.empty).vals.getD i 0
  else if c == 0x44 then f.imm
  else if c == 0x45 then BitVec.ofNat 32 i
  else if c == 0x46 then 0
  else (g.lane.snap.getD (c - 0x80) 0).setWidth 32

/-- A 64-bit source of a lane; `t` gives the literal its form (R114). -/
def Gang.src64 (g : Gang) (f : LaneF) (t : Ty) (code : BitVec 8) (i : Nat) : Word :=
  let c := code.toNat
  if c < 0x40 then g.getV i (c + 1) ++ g.getV i c
  else if c == 0x44 then
    match t with
    | .s64 => f.imm.signExtend 64
    | .f64 => BitVec.ofNat 64 (widen f.imm.toNat)
    | _ => f.imm.setWidth 64
  else if c == 0x45 then BitVec.ofNat 64 i
  else if c == 0x46 then 0
  else g.lane.snap.getD (c - 0x80) 0

/-- src(f, i) at a type (R127). -/
def Gang.src (g : Gang) (f : LaneF) (t : Ty) (code : BitVec 8) (i : Nat) : Nat :=
  if t.is64 then (g.src64 f t code i).toNat else (g.src32 f code i).toNat

/-! ### Write-back -/

/-- A register's lanes with those of a mask replaced. -/
def mergeLanes (on : Mask) : Nat → List Half → List Half → List Half
  | i, x :: xs, y :: ys => (if on.getLsbD i then y else x) :: mergeLanes on (i + 1) xs ys
  | _, xs, _ => xs

/-- Window register n written for the lanes of a mask; a written register's error mark goes. -/
def Gang.putV (g : Gang) (n : Nat) (on : Mask) (vals : List Half) : Gang :=
  let slot := g.slotOf n
  { g with regs := setNth g.regs (slot - g.res) fun r => mergeLanes on 0 r vals,
           vPoison := g.vPoison.filter fun p => !(p.1 == slot && on.getLsbD p.2) }

/-- by[l] written for the gang: a write still to come from an older instruction is overtaken (R106). -/
def Gang.putLatch (g : Gang) (l : Nat) (vals : List Half) : Gang :=
  { g with latches := g.latches.set l { valid := true, vals := vals },
           pend := g.pend.map fun p =>
             match p.latch with
             | some x => if x.1 == l then { p with latch := none } else p
             | none => p }

/-- A latch of a scheduler written by one gang is not valid for its other gangs (R107). -/
def State.takeLatch (s : State) (l : Nat) : State :=
  { s with gangs := s.gangs.map fun g =>
      if g.core == s.g.core && g.slot / 8 == s.g.slot / 8 then
        { g with latches := setNth g.latches l fun x => { x with valid := false } }
      else g }

/-- The slot goes on to the next index; a word that reads no latch is the head of a chain (R107): the last such word that
the gang issued, whether it wrote the latch or not (log 73). -/
def State.laneNext (s : State) (op : LaneOp) (f : LaneF) : State :=
  let x := s.g.slotNow
  let g := s.g.putSlotNow { x with pc := x.pc + 1 }
  { s with g := if (laneLatches op f).isEmpty then { g with lane := { g.lane with chainHead := x.pc } } else g }

/-- Values of the 32 lanes, those off 0. -/
def laneVals (on : Mask) (res : Nat → Nat) : List Nat := laneList.map fun i => if on.getLsbD i then res i else 0

/-- The register or pair at DST written for the on lanes. -/
def Gang.putDst (g : Gang) (op : LaneOp) (f : LaneF) (on : Mask) (vals : List Nat) : Gang :=
  if f.nwb then g
  else
    let g := g.putV f.dst.toNat on (vals.map fun x => BitVec.ofNat 32 x)
    if wideResult op f then g.putV (f.dst.toNat + 1) on (vals.map fun x => BitVec.ofNat 32 (x / 2 ^ 32)) else g

/-- A register result (R119): DST for the on lanes unless NWB, the latch for every lane. -/
def State.laneResult (s : State) (op : LaneOp) (f : LaneF) (res : Nat → Nat) : Act :=
  let on := s.g.onMask f
  let vals := laneVals on res
  let g := (s.g.putDst op f on vals).putLatch f.lt.toNat (vals.map fun x => BitVec.ofNat 32 x)
  .ok (({ s with g := g }.takeLatch f.lt.toNat).laneNext op f) .write

/-- A predicate result (R115, R119). -/
def State.lanePred (s : State) (op : LaneOp) (f : LaneF) (bit : Nat → Bool) : Act :=
  .ok (State.laneNext { s with g := s.g.setQ f.dst.toNat (s.g.onMask f) (maskOf bit) } op f) .write

/-- An instruction with a register result computed lane by lane. -/
def State.laneAlu (s : State) (op : LaneOp) (f : LaneF) (res : State → Nat → Nat) : Out :=
  s.lane op f (s.sound op f fun t => t.laneResult op f (res t))

/-- An instruction with a predicate result computed lane by lane. -/
def State.laneTest (s : State) (op : LaneOp) (f : LaneF) (bit : State → Nat → Bool) : Out :=
  s.lane op f (s.sound op f fun t => t.lanePred op f (bit t))

end Sys2Proof.Machine
end

