-- ==== Sys2Proof/Machine/LaneInt.lean ====
section
/-! DEFINITION. Integer lane instructions: IALU (R182), LOGIC (R183), BITS (R184), PRED (R185, R186), MOVE (R187) and
the integer forms of CVT (R188 to R190). -/

namespace Sys2Proof.Machine

open Sys2Proof

/-! ### Integer arithmetic (R182) -/

def satOf (f : LaneF) : Bool := f.md.getLsbD 3
def negA (f : LaneF) : Bool := f.md.getLsbD 2
def negB (f : LaneF) : Bool := f.md.getLsbD 1

def negIf (n : Bool) (x : Int) : Int := if n then -x else x

/-- An element operation of a type on exact integers, delivered to the element width (R182). -/
def intOp1 (f : LaneF) (op : Int → Int) (a : Nat) : Nat :=
  let e := f.ty.elem
  mapElems1 f.ty (fun x => deliver (satOf f) f.ty.signed e (op (toInt f.ty.signed e x))) a

def intOp2 (f : LaneF) (op : Int → Int → Int) (a b : Nat) : Nat :=
  let e := f.ty.elem
  mapElems2 f.ty (fun x y => deliver (satOf f) f.ty.signed e
    (op (negIf (negA f) (toInt f.ty.signed e x)) (negIf (negB f) (toInt f.ty.signed e y)))) a b

def intOp3 (f : LaneF) (op : Int → Int → Int → Int) (a b c : Nat) : Nat :=
  let e := f.ty.elem
  mapElems3 f.ty (fun x y z => deliver (satOf f) f.ty.signed e
    (op (negIf (negA f) (toInt f.ty.signed e x)) (negIf (negB f) (toInt f.ty.signed e y)) (toInt f.ty.signed e z))) a b c

/-- A member with two operands of TY. -/
def State.ialu2 (s : State) (op : LaneOp) (f : LaneF) (x : Int → Int → Int) : Out :=
  s.laneAlu op f fun t i => intOp2 f x (t.g.src f f.ty f.sa i) (t.g.src f f.ty f.sb i)

/-- A member with one operand of TY. -/
def State.ialu1 (s : State) (op : LaneOp) (f : LaneF) (x : Int → Int) : Out :=
  s.laneAlu op f fun t i => intOp1 f x (t.g.src f f.ty f.sa i)

/-- IADD (R182). -/
def execIadd (f : LaneF) (s : State) : Out := s.ialu2 .iadd f fun a b => a + b

/-- ISUB (R182). -/
def execIsub (f : LaneF) (s : State) : Out := s.ialu2 .isub f fun a b => a - b

/-- IMUL (R182). -/
def execImul (f : LaneF) (s : State) : Out := s.ialu2 .imul f fun a b => a * b

/-- IMULH (R182): the floor of a × b ÷ 2^W. -/
def execImulh (f : LaneF) (s : State) : Out := s.ialu2 .imulh f fun a b => a * b / (2 ^ f.ty.elem : Nat)

/-- IMAD (R182). -/
def execImad (f : LaneF) (s : State) : Out :=
  s.laneAlu .imad f fun t i =>
    intOp3 f (fun a b c => a * b + c) (t.g.src f f.ty f.sa i) (t.g.src f f.ty f.sb i) (t.g.src f f.ty f.sc i)

/-- IABS (R182). -/
def execIabs (f : LaneF) (s : State) : Out := s.ialu1 .iabs f fun a => if a < 0 then -a else a

/-- INEG (R182). -/
def execIneg (f : LaneF) (s : State) : Out := s.ialu1 .ineg f fun a => -a

/-- IMIN (R182). -/
def execImin (f : LaneF) (s : State) : Out := s.ialu2 .imin f fun a b => if b < a then b else a

/-- IMAX (R182). -/
def execImax (f : LaneF) (s : State) : Out := s.ialu2 .imax f fun a b => if a < b then b else a

/-- Sum in the low 32 bits, carry in the high register (R182). -/
def addCarry (a b c : Half) : Nat :=
  let x := a.toNat + b.toNat + c.toNat % 2
  x % 2 ^ 32 + x / 2 ^ 32 * 2 ^ 32

/-- IADDC (R182). -/
def execIaddc (f : LaneF) (s : State) : Out :=
  s.laneAlu .iaddc f fun t i => addCarry (t.g.src32 f f.sa i) (t.g.src32 f f.sb i) (t.g.src32 f f.sc i)

/-- Σ of an element function over the elements of two operands, added to c and delivered as one 32-bit value of the
type's signedness (R182). -/
def dotInt (f : LaneF) (op : Int → Int → Int) (a b c : Nat) : Nat :=
  let e := f.ty.elem
  let terms := (List.range f.ty.count).map fun k =>
    op (toInt f.ty.signed e (element e k a)) (toInt f.ty.signed e (element e k b))
  deliver (satOf f) f.ty.signed 32 (terms.foldl (· + ·) (toInt f.ty.signed 32 c))

/-- ISAD (R182). -/
def execIsad (f : LaneF) (s : State) : Out :=
  s.laneAlu .isad f fun t i =>
    dotInt f (fun a b => if a < b then b - a else a - b) (t.g.src32 f f.sa i).toNat (t.g.src32 f f.sb i).toNat
      (t.g.src32 f f.sc i).toNat

/-- IDP4 (R182). -/
def execIdp4 (f : LaneF) (s : State) : Out :=
  s.laneAlu .idp4 f fun t i =>
    dotInt f (fun a b => a * b) (t.g.src32 f f.sa i).toNat (t.g.src32 f f.sb i).toNat (t.g.src32 f f.sc i).toNat

/-! ### Logic (R183) -/

/-- A member on the bits of two operands of TY. -/
def State.logic2 (s : State) (op : LaneOp) (f : LaneF) (x : Nat → Nat → Nat) : Out :=
  s.laneAlu op f fun t i => x (t.g.src f f.ty f.sa i) (t.g.src f f.ty f.sb i)

/-- NOT of a value of n bits. -/
def notBits (n x : Nat) : Nat := x ^^^ (2 ^ n - 1)

/-- AND (R183). -/
def execLAnd (f : LaneF) (s : State) : Out := s.logic2 .lAnd f fun a b => a &&& b

/-- OR (R183). -/
def execLOr (f : LaneF) (s : State) : Out := s.logic2 .lOr f fun a b => a ||| b

/-- XOR (R183). -/
def execLXor (f : LaneF) (s : State) : Out := s.logic2 .lXor f fun a b => a ^^^ b

/-- NOT (R183). -/
def execLNot (f : LaneF) (s : State) : Out :=
  s.laneAlu .lNot f fun t i => notBits f.ty.elem (t.g.src f f.ty f.sa i)

/-- ANDN (R183). -/
def execAndn (f : LaneF) (s : State) : Out := s.logic2 .andn f fun a b => a &&& notBits f.ty.elem b

/-- One bit of lop3 (R183): bit a + 2 b + 4 c of the truth table. -/
def lop3Bit (table a b c t : Nat) : Nat := table / 2 ^ (a / 2 ^ t % 2 + 2 * (b / 2 ^ t % 2) + 4 * (c / 2 ^ t % 2)) % 2

/-- lop3 on n bits (R183). -/
def lop3Val (table n a b c : Nat) : Nat := sumNat ((List.range n).map fun t => lop3Bit table a b c t * 2 ^ t)

/-- LOP3 (R183). -/
def execLop3 (f : LaneF) (s : State) : Out :=
  s.laneAlu .lop3 f fun t i =>
    lop3Val (field f.imm 0 8) f.ty.elem (t.g.src f f.ty f.sa i) (t.g.src f f.ty f.sb i) (t.g.src f f.ty f.sc i)

/-! ### Bits (R184) -/

/-- The shift amounts of the elements of a type, one 32-bit value for every TY (R184). -/
def amount (t : Ty) (b : Half) (k : Nat) : Nat :=
  if t.count == 1 then b.toNat % t.elem else element t.elem k b.toNat % t.elem

/-- A shift or rotate: element k by its amount. -/
def State.shift (s : State) (op : LaneOp) (f : LaneF) (x : Nat → Nat → Nat) : Out :=
  s.laneAlu op f fun t i =>
    let a := t.g.src f f.ty f.sa i
    let b := t.g.src32 f f.sb i
    pack f.ty.elem ((List.range f.ty.count).map fun k => x (element f.ty.elem k a) (amount f.ty b k))

/-- SHL (R184). -/
def execShl (f : LaneF) (s : State) : Out := s.shift .shl f fun a n => a * 2 ^ n % 2 ^ f.ty.elem

/-- SHR (R184). -/
def execShr (f : LaneF) (s : State) : Out := s.shift .shr f fun a n => a / 2 ^ n

/-- SRA (R184). -/
def execSra (f : LaneF) (s : State) : Out :=
  s.shift .sra f fun a n => wrap f.ty.elem (toInt true f.ty.elem a / (2 ^ n : Nat))

/-- A value of w bits rotated left. -/
def rotlBits (w a n : Nat) : Nat := (a * 2 ^ n + a / 2 ^ (w - n)) % 2 ^ w

/-- ROTL (R184). -/
def execRotl (f : LaneF) (s : State) : Out := s.shift .rotl f fun a n => rotlBits f.ty.elem a n

/-- POPC (R184). -/
def execPopc (f : LaneF) (s : State) : Out := s.laneAlu .popc f fun t i => popcount f.ty.elem (t.g.src f f.ty f.sa i)

/-- CLZ (R184). -/
def execClz (f : LaneF) (s : State) : Out := s.laneAlu .clz f fun t i => clzNat f.ty.elem (t.g.src f f.ty f.sa i)

/-- BREV (R184). -/
def execBrev (f : LaneF) (s : State) : Out :=
  s.laneAlu .brev f fun t i => reverseBits f.ty.elem (t.g.src f f.ty f.sa i)

/-- The field of bfe (R184). -/
def bfeVal (signed : Bool) (w a b c : Nat) : Nat :=
  let p := min (b % 256) w
  let n := min (c % 256) w
  let x := (toInt signed w a / (2 ^ p : Nat)) % (2 ^ n : Nat)     -- bits above W repeat the sign of an s type
  if n == 0 then 0 else wrap w (toInt signed n x.toNat)

/-- BFE (R184). -/
def execBfe (f : LaneF) (s : State) : Out :=
  s.laneAlu .bfe f fun t i =>
    bfeVal f.ty.signed f.ty.elem (t.g.src f f.ty f.sa i) (t.g.src32 f f.sb i).toNat (t.g.src32 f f.sc i).toNat

/-- bfi (R184): c with n bits at p taken from a. -/
def bfiVal (w p n a c : Nat) : Nat :=
  if p < w then
    let m := (2 ^ min n w - 1) * 2 ^ p % 2 ^ w
    (c &&& notBits w m) ||| (a * 2 ^ p % 2 ^ w &&& m)
  else c

/-- BFI (R184). -/
def execBfi (f : LaneF) (s : State) : Out :=
  s.laneAlu .bfi f fun t i =>
    bfiVal f.ty.elem (field f.imm 0 8) (field f.imm 8 8) (t.g.src f f.ty f.sa i) (t.g.src f f.ty f.sc i)

/-- Byte j of prmt (R184). -/
def prmtByte (sel a b j : Nat) : Nat :=
  let x := sel / 16 ^ j % 16
  let v := (a + b * 2 ^ 32) / 256 ^ (x % 8) % 256
  if 8 ≤ x then 255 - v else v

/-- PRMT (R184). -/
def execPrmt (f : LaneF) (s : State) : Out :=
  s.laneAlu .prmt f fun t i =>
    pack 8 ((List.range 4).map (prmtByte f.imm.toNat (t.g.src32 f f.sa i).toNat (t.g.src32 f f.sb i).toNat))

/-! ### Predicates (R185, R186) -/

/-- q[n] of a lane. -/
def Gang.qBit (g : Gang) (n : BitVec 8) (i : Nat) : Bool := (g.getQ n.toNat).getLsbD i

/-- ICMP (R185). -/
def execIcmp (f : LaneF) (s : State) : Out :=
  s.laneTest .icmp f fun t i =>
    combine (field f.md 3 2)
      (icmpCond (field f.md 0 3) (toInt f.ty.signed f.ty.elem (t.g.src f f.ty f.sa i))
        (toInt f.ty.signed f.ty.elem (t.g.src f f.ty f.sb i)))
      (t.g.qBit f.sc i)

/-- PAND (R186). -/
def execPand (f : LaneF) (s : State) : Out := s.laneTest .pand f fun t i => t.g.qBit f.sa i && t.g.qBit f.sb i

/-- POR (R186). -/
def execPor (f : LaneF) (s : State) : Out := s.laneTest .por f fun t i => t.g.qBit f.sa i || t.g.qBit f.sb i

/-- PXOR (R186). -/
def execPxor (f : LaneF) (s : State) : Out := s.laneTest .pxor f fun t i => t.g.qBit f.sa i != t.g.qBit f.sb i

/-- PNOT (R186). -/
def execPnot (f : LaneF) (s : State) : Out := s.laneTest .pnot f fun t i => !t.g.qBit f.sa i

/-! ### Moves (R187) -/

/-- MOV (R187). -/
def execMov (f : LaneF) (s : State) : Out := s.laneAlu .mov f fun t i => t.g.src f f.ty f.sa i

/-- MOVI (R187). -/
def execMovi (f : LaneF) (s : State) : Out :=
  s.laneAlu .movi f fun t i =>
    if f.ty == .b32 then f.imm.toNat else (t.g.src32 f f.sa i).toNat * 2 ^ 32 + f.imm.toNat

/-- SEL (R187). -/
def execSel (f : LaneF) (s : State) : Out :=
  s.laneAlu .sel f fun t i => if t.g.qBit f.sc i then t.g.src f f.ty f.sa i else t.g.src f f.ty f.sb i

/-- GETSR (R187): the register as csrr reads it. -/
def execGetsr (f : LaneF) (s : State) : Out :=
  s.lane .getsr f
    (if s.g.srPoison.contains (field f.imm 0 10) then (s.logUnit 1).laneTrap .ue 0 (s.g.onMask f)
     else s.laneResult .getsr f fun _ => (s.readSr (field f.imm 0 10)).toNat)

/-! ### Integer conversions (R188 to R190) -/

/-- cvt between integer types (R188). -/
def cvtInt (f : LaneF) (src : Ty) (a : Nat) : Nat :=
  deliver (satOf f) f.ty.signed f.ty.elem (toInt src.signed src.elem a)

/-- cvt.pk to an integer packed type (R189). -/
def packInt (f : LaneF) (a b c : Half) : Nat :=
  let e := f.ty.elem
  let x := deliver (satOf f) f.ty.signed e (toInt f.ty.signed 32 a.toNat)
  let y := deliver (satOf f) f.ty.signed e (toInt f.ty.signed 32 b.toNat)
  if e == 16 then pack 16 [x, y] else pack 8 [x, y, c.toNat % 256, c.toNat / 256 % 256]

/-- cvt.q8 (R190). -/
def quant8 (f : LaneF) (a b c : Half) : Nat :=
  let e := clampInt f.ty.signed 8 (shiftRound (field f.md 4 3) a.toInt (b.toNat % 32))
  c.toNat % 2 ^ 24 * 256 + wrap 8 e

/-- CVT_Q8 (R190). -/
def execCvtQ8 (f : LaneF) (s : State) : Out :=
  s.laneAlu .cvtQ8 f fun t i => quant8 f (t.g.src32 f f.sa i) (t.g.src32 f f.sb i) (t.g.src32 f f.sc i)

end Sys2Proof.Machine
end

