-- ==== Sys2Proof/Machine/LaneFloat.lean ====
section
/-! DEFINITION. Floating lane instructions: FARITH (R206), FCMP (R207, R208), FSPEC (R209), and cvt and cvt.pk, whose
floating forms (R210, R211) share their words with the integer ones (R188, R189). -/

namespace Sys2Proof.Machine

open Sys2Proof

def ftzOf (f : LaneF) : Bool := f.md.getLsbD 0
def roundOf (f : LaneF) : Nat := field f.md 4 3

/-- A sign bit inverted where an instruction negates an operand (R206). -/
def flipIf (t : Ty) (n : Bool) (x : Nat) : Nat := if n then (Ty.fmt t).flipSign x else x

/-! ### Arithmetic (R206) -/

/-- A member with two floating operands. -/
def State.farith2 (s : State) (op : LaneOp) (f : LaneF) (x : Nat → Nat → Nat) : Out :=
  s.laneAlu op f fun t i =>
    mapElems2 f.ty (fun a b => x (flipIf f.ty (negA f) a) (flipIf f.ty (negB f) b)) (t.g.src f f.ty f.sa i)
      (t.g.src f f.ty f.sb i)

/-- FADD (R206). -/
def execFadd (f : LaneF) (s : State) : Out :=
  s.farith2 .fadd f ((Ty.fmt f.ty).add (roundOf f) (satOf f) (ftzOf f))

/-- FSUB (R206). -/
def execFsub (f : LaneF) (s : State) : Out :=
  s.farith2 .fsub f ((Ty.fmt f.ty).sub (roundOf f) (satOf f) (ftzOf f))

/-- FMUL (R206). -/
def execFmul (f : LaneF) (s : State) : Out :=
  s.farith2 .fmul f ((Ty.fmt f.ty).mul (roundOf f) (satOf f) (ftzOf f))

/-- FFMA (R206). -/
def execFfma (f : LaneF) (s : State) : Out :=
  s.laneAlu .ffma f fun t i =>
    mapElems3 f.ty (fun a b c =>
      (Ty.fmt f.ty).fma (roundOf f) (satOf f) (ftzOf f) (flipIf f.ty (negA f) a) (flipIf f.ty (negB f) b) c)
      (t.g.src f f.ty f.sa i) (t.g.src f f.ty f.sb i) (t.g.src f f.ty f.sc i)

/-- FMIN (R206, R147). -/
def execFmin (f : LaneF) (s : State) : Out := s.farith2 .fmin f ((Ty.fmt f.ty).minMax false (ftzOf f))

/-- FMAX (R206, R147). -/
def execFmax (f : LaneF) (s : State) : Out := s.farith2 .fmax f ((Ty.fmt f.ty).minMax true (ftzOf f))

/-- A format's bits with the sign cleared. -/
def clearSign (t : Ty) (x : Nat) : Nat := x % 2 ^ (t.elem - 1)

/-- FABS (R206): bits only. -/
def execFabs (f : LaneF) (s : State) : Out :=
  s.laneAlu .fabs f fun t i => mapElems1 f.ty (clearSign f.ty) (t.g.src f f.ty f.sa i)

/-- FNEG (R206): bits only. -/
def execFneg (f : LaneF) (s : State) : Out :=
  s.laneAlu .fneg f fun t i => mapElems1 f.ty (Ty.fmt f.ty).flipSign (t.g.src f f.ty f.sa i)

/-- FSCALE (R206): b as one s32 value for every element. -/
def execFscale (f : LaneF) (s : State) : Out :=
  s.laneAlu .fscale f fun t i =>
    mapElems1 f.ty (fun a =>
      (Ty.fmt f.ty).scale (roundOf f) (satOf f) (ftzOf f) (flipIf f.ty (negA f) a) (t.g.src32 f f.sb i).toInt)
      (t.g.src f f.ty f.sa i)

/-! ### Comparison and class (R207, R208) -/

/-- DAZ of the FCMP layout (R208). -/
def dazOf (f : LaneF) : Bool := f.md.getLsbD 6

/-- FCMP (R207). -/
def execFcmp (f : LaneF) (s : State) : Out :=
  s.laneTest .fcmp f fun t i =>
    let m := (Ty.fmt f.ty)
    combine (field f.md 3 2)
      (fcmpCond (field f.md 0 3) (m.value (m.flush (dazOf f) (t.g.src f f.ty f.sa i)))
        (m.value (m.flush (dazOf f) (t.g.src f f.ty f.sb i))))
      (t.g.qBit f.sc i)

/-- FCLASS (R207). -/
def execFclass (f : LaneF) (s : State) : Out :=
  s.laneTest .fclass f fun t i =>
    let m := (Ty.fmt f.ty)
    combine (field f.md 3 2) (f.imm.getLsbD (m.classBit (m.flush (dazOf f) (t.g.src f f.ty f.sa i))))
      (t.g.qBit f.sc i)

/-! ### Special functions (R209) -/

/-- A member with one floating operand. -/
def State.fspec (s : State) (op : LaneOp) (f : LaneF) (x : Nat → Nat) : Out :=
  s.laneAlu op f fun t i => x (t.g.src f f.ty f.sa i)

/-- FRCP (R149, R209). -/
def execFrcp (f : LaneF) (s : State) : Out := s.fspec .frcp f (frcpBits (Ty.fmt f.ty) (negA f) (ftzOf f))

/-- FRSQ (R149, R209). -/
def execFrsq (f : LaneF) (s : State) : Out := s.fspec .frsq f (frsqBits (Ty.fmt f.ty) (negA f) (ftzOf f))

/-- FSQRT (R209). -/
def execFsqrt (f : LaneF) (s : State) : Out :=
  s.fspec .fsqrt f fun a =>
    let m := (Ty.fmt f.ty)
    m.flush (ftzOf f) (m.sqrt (roundOf f) (satOf f) (m.value (m.flush (ftzOf f) (flipIf f.ty (negA f) a))))

/-- FDIV (R209). -/
def execFdiv (f : LaneF) (s : State) : Out :=
  s.farith2 .fdiv f fun a b =>
    let m := (Ty.fmt f.ty)
    m.flush (ftzOf f) (m.div (roundOf f) (satOf f) (m.value (m.flush (ftzOf f) a)) (m.value (m.flush (ftzOf f) b)))

/-- FEXP2 (R149, R209). -/
def execFexp2 (f : LaneF) (s : State) : Out := s.fspec .fexp2 f (fexp2Bits (negA f) (ftzOf f))

/-- FLOG2 (R149, R209). -/
def execFlog2 (f : LaneF) (s : State) : Out := s.fspec .flog2 f (flog2Bits (negA f) (ftzOf f))

/-- FSIN (R149, R209). -/
def execFsin (f : LaneF) (s : State) : Out := s.fspec .fsin f (trigBits false (negA f) (ftzOf f))

/-- FCOS (R149, R209). -/
def execFcos (f : LaneF) (s : State) : Out := s.fspec .fcos f (trigBits true (negA f) (ftzOf f))

/-! ### Conversions (R188, R189, R210, R211) -/

def Ty.isInt (t : Ty) : Bool := LaneOp.ints.contains t

/-- cvt of one value by its pair of types (R188, R210). -/
def cvtVal (f : LaneF) (src : Ty) (a : Nat) : Nat :=
  if Ty.isInt src then
    if Ty.isInt f.ty then cvtInt f src a
    else (Ty.fmt f.ty).ofNum (roundOf f) false (Num.ofInt (toInt src.signed src.elem a))
  else if Ty.isInt f.ty then
    wrap f.ty.elem (((Ty.fmt src).value ((Ty.fmt src).flush (ftzOf f) a)).toIntClamped (roundOf f) f.ty.signed f.ty.elem)
  else if src.count == 1 then (Ty.fmt src).convert (Ty.fmt f.ty) (roundOf f) (satOf f) (ftzOf f) a
  else (Ty.fmt src).convert (Ty.fmt f.ty) 0 false (ftzOf f) (element src.elem (field f.imm 0 2) a)

/-- The source type of cvt (R180). -/
def cvtSrc (f : LaneF) : Ty := Ty.ofCode (field f.sc 0 4)

/-- CVT (R188, R210). -/
def execCvt (f : LaneF) (s : State) : Out :=
  s.laneAlu .cvt f fun t i => cvtVal f (cvtSrc f) (t.g.src f (cvtSrc f) f.sa i)

/-- cvt.pk to a floating packed type (R211). -/
def packFloat (f : LaneF) (a b c : Half) : Nat :=
  let cv (x : Half) : Nat := Fmt.f32.convert (Ty.fmt f.ty) (roundOf f) (satOf f) (ftzOf f) x.toNat
  if f.ty.elem == 16 then pack 16 [cv a, cv b] else pack 8 [cv a, cv b, c.toNat % 256, c.toNat / 256 % 256]

/-- CVT_PK (R189, R211). -/
def execCvtPk (f : LaneF) (s : State) : Out :=
  s.laneAlu .cvtPk f fun t i =>
    (if LaneOp.pk.contains f.ty then packInt f else packFloat f) (t.g.src32 f f.sa i) (t.g.src32 f f.sb i)
      (t.g.src32 f f.sc i)

end Sys2Proof.Machine
end

