-- ==== Sys2Proof/Machine/LaneX.lean ====
section
/-! DEFINITION. The small-matrix unit (R212 to R214) and the cross-lane operations (R215 to R219). -/

namespace Sys2Proof.Machine

open Sys2Proof

/-! ### Instructions that write when a unit replies -/

/-- A lane instruction issued whose registers are written later (R94): the registers reserved, the slot passed on. -/
def State.lanePend (s : State) (op : LaneOp) (f : LaneF) (kind : PendKind) (writes : List (Nat × Nat × Half))
    (dead : Mask) (latch : Option (Nat × List Half)) : State :=
  let r := s.fresh
  let p : Pend := { id := r.1, kind := kind, writes := writes, regs := s.g.writeSlots op f, dead := dead, latch := latch }
  State.laneNext { r.2 with g := { r.2.g with pend := r.2.g.pend ++ [p] } } op f

/-- The register writes of values by window register, for the lanes of a mask. -/
def Gang.writesAt (g : Gang) (n : Nat) (on : Mask) (vals : List Half) : List (Nat × Nat × Half) :=
  (Mask.lanes on).map fun i => (g.slotOf n, i, vals.getD i 0)

/-! ### Small matrices -/

/-- Sub-element e of a matrix operand in a lane (R212). -/
def Gang.smmElem (g : Gang) (t : Ty) (base : BitVec 8) (lane e : Nat) : Nat :=
  let n := base.toNat
  if t == .f64 then (g.getV lane (n + 2 * e + 1) ++ g.getV lane (n + 2 * e)).toNat else (g.getV lane (n + e)).toNat

/-- Element (r, c) of a matrix operand: +0 for a lane that is not on, and for C given as zero (R213). -/
def Gang.smmAt (g : Gang) (f : LaneF) (on : Mask) (base : BitVec 8) (r c : Nat) : Nat :=
  let lane := 4 * r + c / 2
  if base == 0x46 || !on.getLsbD lane then 0 else g.smmElem f.ty base lane (c % 2)

/-- Element (r, c) of D (R213): eight fused steps in ascending k. -/
def Gang.smmDot (g : Gang) (f : LaneF) (tb : Bool) (on : Mask) (r c : Nat) : Nat :=
  (List.range 8).foldl (fun acc k =>
    let a := g.smmAt f on f.sa r k
    let b := if tb then g.smmAt f on f.sb c k else g.smmAt f on f.sb k c
    (Ty.fmt f.ty).fma (roundOf f) false (ftzOf f) (if f.md.getLsbD 2 then (Ty.fmt f.ty).flipSign a else a) b acc)
    (g.smmAt f on f.sc r c)

/-- The register writes of D (R212, R213). -/
def Gang.smmWrites (g : Gang) (f : LaneF) (tb : Bool) : List (Nat × Nat × Half) :=
  let on := g.onMask f
  (Mask.lanes on).flatMap fun lane =>
    [0, 1].flatMap fun e =>
      let x := g.smmDot f tb on (lane / 4) (lane % 4 * 2 + e)
      if f.ty == .f64 then
        [(g.slotOf (f.dst.toNat + 2 * e), lane, BitVec.ofNat 32 x),
         (g.slotOf (f.dst.toNat + 2 * e + 1), lane, BitVec.ofNat 32 (x / 2 ^ 32))]
      else [(g.slotOf (f.dst.toNat + e), lane, BitVec.ofNat 32 x)]

/-- Whether a gang of the same scheduler occupies its small-matrix unit (R214). -/
def State.smmBusy (s : State) : Bool :=
  s.allGangs.any fun g => g.core == s.g.core && g.slot / 8 == s.g.slot / 8 && g.pend.any fun p => p.kind == .smm

/-- An SMM instruction (R213, R214). -/
def State.smm (s : State) (op : LaneOp) (f : LaneF) (tb : Bool) : Out :=
  s.lane op f (if s.smmBusy then .stall s
    else s.sound op f fun t => .ok (t.lanePend op f .smm (t.g.smmWrites f tb) 0 none) .write)

/-- SMM8 (R213). -/
def execSmm8 (f : LaneF) (s : State) : Out := s.smm .smm8 f false

/-- SMM8_TB (R213). -/
def execSmm8Tb (f : LaneF) (s : State) : Out := s.smm .smm8Tb f true

/-! ### Cross-lane operations -/

/-- The lane that lane i reads (R216). -/
def shflFrom (mode i : Nat) (b : Half) : Nat :=
  let n := b.toNat % 32
  match mode with
  | 0 => n
  | 1 => (i + n) % 32
  | 2 => i ^^^ n
  | _ => (i + 32 - n) % 32

/-- SHFL (R216). -/
def execShfl (f : LaneF) (s : State) : Out :=
  s.lane .shfl f (s.sound .shfl f fun t =>
    let g := t.g
    let src (i : Nat) : Nat := shflFrom (field f.md 0 2) i (g.src32 f f.sb i)
    let u := { t with g := g.setQ f.sc.toNat (g.onMask f) (maskOf fun i => g.active.getLsbD (src i)) }
    -- a shfl whose guard predicate is q[SC] keeps the on lanes it was issued with
    match t.laneResult .shfl f fun i => if g.active.getLsbD (src i) then g.src f f.ty f.sa (src i) else 0 with
    | .ok v x => .ok { v with g := { v.g with q := u.g.q } } x
    | a => a)

/-- The participants with q[n] = 1 (R217). -/
def Gang.voters (g : Gang) (f : LaneF) : Mask := g.onMask f &&& g.getQ f.sa.toNat

/-- VOTE (R217). -/
def execVote (f : LaneF) (s : State) : Out :=
  s.laneTest .vote f fun t _ =>
    let yes := popcount 32 (t.g.voters f).toNat
    let all := popcount 32 (t.g.onMask f).toNat
    match field f.md 0 2 with
    | 0 => yes == all
    | 1 => yes != 0
    | 2 => yes % 2 == 1
    | _ => decide (all < 2 * yes)

/-- BALLOT (R217). -/
def execBallot (f : LaneF) (s : State) : Out := s.laneAlu .ballot f fun t _ => (t.g.voters f).toNat

/-- The participants whose a equals that of lane i (R218). -/
def Gang.equals (g : Gang) (f : LaneF) (i : Nat) : List Nat :=
  (Mask.lanes (g.onMask f)).filter fun j => g.src f f.ty f.sa j == g.src f f.ty f.sa i

/-- MATCH (R218). -/
def execXmatch (f : LaneF) (s : State) : Out :=
  s.laneAlu .xmatch f fun t i =>
    let l := t.g.equals f i
    match field f.md 0 2 with
    | 0 => sumNat (l.map fun j => 2 ^ j)
    | 1 => l.headD 0
    | _ => l.length

/-- Combine of redux and scan (R219). -/
def reduceOp (f : LaneF) (a b : Nat) : Nat :=
  let e := f.ty.elem
  let fl := f.ty == .f32 || f.ty == .f64
  let x := toInt f.ty.signed e a
  let y := toInt f.ty.signed e b
  match field f.md 0 3 with
  | 0 => if fl then (Ty.fmt f.ty).add (roundOf f) false false a b else wrap e (x + y)
  | 1 => if fl then (Ty.fmt f.ty).minMax false false a b else wrap e (if y < x then y else x)
  | 2 => if fl then (Ty.fmt f.ty).minMax true false a b else wrap e (if x < y then y else x)
  | 3 => a &&& b
  | 4 => a ||| b
  | _ => a ^^^ b

/-- Identity of scan (R219). -/
def reduceId (f : LaneF) : Nat :=
  let e := f.ty.elem
  let m := Ty.fmt f.ty
  let fl := f.ty == .f32 || f.ty == .f64
  match field f.md 0 3 with
  | 0 => if fl then m.signBit true else 0
  | 1 => if fl then m.inf else wrap e (maxInt f.ty.signed e)
  | 2 => if fl then m.signBit true + m.inf else wrap e (minInt f.ty.signed e)
  | 3 => 2 ^ e - 1
  | _ => 0

/-- N of the group field: 0 is the whole gang (R219). -/
def groupField (f : LaneF) : Nat := if field f.imm 0 3 == 0 then 5 else field f.imm 0 3

/-- node(l, 2^n) of R219. -/
def reduceNode (f : LaneF) (a : Nat → Option Nat) : Nat → Nat → Option Nat
  | 0, l => a l
  | n + 1, l =>
    match reduceNode f a n l, reduceNode f a n (l + 2 ^ n) with
    | none, q => q
    | p, none => p
    | some p, some q => some (reduceOp f p q)

/-- A participant's value of a. -/
def Gang.part (g : Gang) (f : LaneF) (i : Nat) : Option Nat :=
  if (g.onMask f).getLsbD i then some (g.src f f.ty f.sa i) else none

/-- REDUX (R219). -/
def execRedux (f : LaneF) (s : State) : Out :=
  s.laneAlu .redux f fun t i =>
    let n := groupField f
    (reduceNode f (t.g.part f) n (i / 2 ^ n * 2 ^ n)).getD 0

/-- The running value of scan over the participants of a list of lanes (R219). -/
def scanOver (f : LaneF) (a : Nat → Option Nat) (lanes : List Nat) : Option Nat :=
  lanes.foldl (fun acc l =>
    match acc, a l with
    | acc, none => acc
    | none, some x => some x
    | some p, some x => some (reduceOp f p x)) none

/-- SCAN (R219). -/
def execScan (f : LaneF) (s : State) : Out :=
  s.laneAlu .scan f fun t i =>
    let n := groupField f
    let start := i / 2 ^ n * 2 ^ n
    let below := (List.range (if f.md.getLsbD 3 then i - start else i - start + 1)).map fun k => start + k
    (scanOver f (t.g.part f) below).getD (reduceId f)

end Sys2Proof.Machine
end

