-- ==== Sys2Proof/Machine/LaneCtl.lean ====
section
/-! DEFINITION. Control of the two divergence slots (R91 to R93, R191 to R193) and the MISC family (R203). -/

namespace Sys2Proof.Machine

open Sys2Proof

/-! ### The divergence stack in L memory (R93) -/

/-- Kinds of divergence entries (R91). -/
inductive DivKind where
  | side | merge
deriving DecidableEq, Repr

/-- An entry of the divergence stack; `join = none` is the value end. -/
structure DivEntry where
  kind : DivKind
  index : BitVec 24
  mask : Mask
  join : Option (BitVec 24)
deriving DecidableEq, Repr

/-- The L offset of entry e (R93), modulo 2^64. -/
def Gang.divOffset (g : Gang) (e : Nat) : Nat := (g.segs.l.limit.toNat + 2 ^ 64 - 256 + 4 * e) % 2 ^ 64

/-- The words of an entry, for lanes 0 to 3 (R93). -/
def divWords (x : DivEntry) : List Half :=
  [x.index.setWidth 32, x.mask,
   (match x.join with
    | some j => j.setWidth 32
    | none => 0xFFFFFFFF),
   if x.kind == .merge then 1 else 0]

def divEntry (w : List Half) : DivEntry :=
  { kind := if (w.getD 3 0).getLsbD 0 then .merge else .side, index := (w.getD 0 0).setWidth 24, mask := w.getD 1 0,
    join := if w.getD 2 0 == 0xFFFFFFFF then none else some ((w.getD 2 0).setWidth 24) }

/-- The places of the four words of entry e, or the first fault. -/
def State.divPlaces (s : State) (e : Nat) (write : Bool) : Chk × State :=
  let o := s.g.divOffset e
  match s.check s.g .l 0 o 4 write false with
  | (a, s) =>
    match s.check s.g .l 1 o 4 write false with
    | (b, s) =>
      match s.check s.g .l 2 o 4 write false with
      | (c, s) =>
        match s.check s.g .l 3 o 4 write false with
        | (d, s) => (((a.append b).append c).append d, s)

/-- A data cause of a push or pop: at the lane instruction, for the lanes 0 to 3 whose words it touches. -/
def State.divTrap (s : State) (c : Cause) (level : Nat) : Act := s.laneTrap c level 0xF

/-- Entry e written through the st path (R93). -/
def State.divPush (s : State) (e : Nat) (x : DivEntry) (k : State → Act) : Act :=
  match s.divPlaces e true with
  | (.ok ps mt, s) =>
    let cells := ps.zip ((divWords x).flatMap fun w => leBytes 4 w.toNat)
    if s.versionOpen s.g.ref.crew && s.holdFull s.g.ref.crew (physCells cells) then .trap s .version 1
    else s.compared (k (s.gangWrite s.g.ref.crew s.g.core true mt cells))
  | (.fault c level, s) => s.divTrap c level
  | (.notYet, s) => .stall s

/-- Two entries pushed from e upwards; nothing is written where either place faults. -/
def State.divPush2 (s : State) (e : Nat) (x y : DivEntry) (k : State → Act) : Act :=
  match s.divPlaces (e + 1) true with
  | (.ok _ _, s) => s.divPush e x fun s => s.divPush (e + 1) y k
  | (.fault c level, s) => s.divTrap c level
  | (.notYet, s) => .stall s

/-- The top entry read through the ld path, if there is one (R92, R93). -/
def State.divTop (s : State) (k : State → Option DivEntry → Act) : Act :=
  if s.g.lane.depth == 0 then k s none
  else
    match s.divPlaces (s.g.lane.depth - 1) false with
    | (.ok ps mt, s) =>
      let l1 := viaL1 mt false
      let s := s.touch s.g.core l1 ps
      match findBy (fun p => s.gangBad s.g.ref.crew s.g.core l1 p) ps with
      | some p => (s.logConsumed l1 p).divTrap .ue 0
      | none =>
        let b := ps.map fun p => s.gangByte s.g.ref.crew s.g.core l1 p
        k s (some (divEntry ((List.range 4).map fun i => BitVec.ofNat 32 (leNat ((b.drop (4 * i)).take 4)))))
    | (.fault c level, s) => s.divTrap c level
    | (.notYet, s) => .stall s

def Gang.setDepth (g : Gang) (n : Nat) : Gang := { g with lane := { g.lane with depth := n } }

/-- A CTRL instruction done with the issuing slot: the chain breaks (R107), a fence in the undo log (R372). -/
def State.ctlDone (s : State) : Act := .ok { s with g := s.g.breakChain } .fence

/-- DIVSTACK with its code (R92, R356). -/
def State.divFault (s : State) (code : Nat) : Act := s.laneTrap .divstack 0 (BitVec.ofNat 32 code)

def slotAt (pc : BitVec 24) (mask : Mask) (join : Option (BitVec 24)) : Slot :=
  { valid := true, pc := pc, mask := mask, join := join, parked := false }

def Slot.runs (x : Slot) : Bool := x.valid && !x.parked

/-! ### The procedures of R92 -/

/-- diverge of R92. -/
def State.diverge (s : State) (t n : Mask) (tgt jn : BitVec 24) : Act :=
  let x := s.g.slotNow
  let y := s.g.slotOther
  if t == 0 then State.ctlDone { s with g := s.g.putSlotNow { x with pc := x.pc + 1 } }
  else if n == 0 then State.ctlDone { s with g := s.g.putSlotNow { x with pc := tgt } }
  else
    let d := s.g.lane.depth
    if 64 < d + (if y.valid then 2 else 1) then s.divFault 0
    else
      let merge : DivEntry := { kind := .merge, index := jn, mask := t ||| n, join := x.join }
      if !y.valid then
        s.divPush d merge fun s =>
          let g := (s.g.setDepth (d + 1)).putSlotOther (slotAt tgt t (some jn))
          State.ctlDone { s with g := g.putSlotNow (slotAt (x.pc + 1) n (some jn)) }
      else
        s.divPush2 d merge { kind := .side, index := x.pc + 1, mask := n, join := some jn } fun s =>
          State.ctlDone { s with g := (s.g.setDepth (d + 2)).putSlotNow (slotAt tgt t (some jn)) }

/-- reach_join of R92, for a slot whose join index is a. -/
def State.reachJoin (s : State) : Act :=
  let x := s.g.slotNow
  let y := s.g.slotOther
  let a := x.pc
  if x.join != some a then State.ctlDone { s with g := s.g.putSlotNow { x with pc := a + 1 } }
  else
    s.divTop fun s (top : Option DivEntry) =>
      let d := s.g.lane.depth
      let side : Option DivEntry := match top with
        | some e => if e.kind == .side && e.join == some a then some e else none
        | none => none
      let merge : Option DivEntry := match top with
        | some e => if e.kind == .merge && e.index == a && !(y.runs && y.join == some a) then some e else none
        | none => none
      match side, merge with
      | some e, _ =>
        State.ctlDone { s with g := (s.g.setDepth (d - 1)).putSlotNow (slotAt e.index (e.mask &&& ~~~s.g.dead) (some a)) }
      | none, some e =>
        let g := s.g.setDepth (d - 1)
        let g := if y.valid && y.parked && y.pc == a then g.putSlotOther { y with valid := false } else g
        State.ctlDone { s with g := g.putSlotNow (slotAt a (e.mask &&& ~~~s.g.dead) e.join) }
      | none, none =>
        if y.runs then State.ctlDone { s with g := s.g.putSlotNow { x with parked := true } }
        else s.divFault 1

/-- The running block ends (R88, R107). -/
def Gang.endBlock (g : Gang) : Gang :=
  let g := { g with lane := { g.lane with running := false, snap := [], s0 := Slot.empty, s1 := Slot.empty, depth := 0,
                                          cur := false } }
  if g.lane.queue.isEmpty then { g with early := [] } else g

/-- reach_lend of R92. -/
def State.reachLend (s : State) : Act :=
  let x := s.g.slotNow
  let y := s.g.slotOther
  if x.join == none && s.g.lane.depth == 0 && !y.valid then State.ctlDone { s with g := s.g.endBlock }
  else if x.join == none then State.ctlDone { s with g := s.g.putSlotNow { x with parked := true } }
  else if x.join != some x.pc then s.divFault 1
  else s.reachJoin

/-! ### The instructions -/

/-- JOIN of bra: bits 62:39 of the word (R191). -/
def joinOf (f : LaneF) : BitVec 24 := f.sa ++ f.sb ++ f.sc

/-- BRA (R191, R192). -/
def execBra (f : LaneF) (s : State) : Out :=
  s.lane .bra f
    (let act := s.g.active
     let t := act &&& s.g.guardMask f
     let n := act &&& ~~~t
     let form := field f.md 0 2
     let any := form == 1 && t != 0
     let all := form == 2 && n != 0
     let t' := if any then act else if all then 0 else t
     let n' := if any then 0 else if all then act else n
     s.diverge t' n' (f.imm.setWidth 24) (joinOf f))

/-- JOIN (R193). -/
def execJoin (s : State) : Out := s.lane .join LaneF.zero s.reachJoin

/-- LEND (R193). -/
def execLend (s : State) : Out := s.lane .lend LaneF.zero s.reachLend

/-- LNOP (R203). -/
def execLnop (f : LaneF) (s : State) : Out := s.lane .lnop f (.ok (s.laneNext .lnop f) .none)

/-- The value of lstat for a lane (R203). -/
def Gang.lstat (g : Gang) (f : LaneF) (i : Nat) : Nat :=
  let on := (g.onMask f).toNat
  popcount 32 (on % 2 ^ i) + popcount 32 on * 2 ^ 5 + flag g.lane.cur * 2 ^ 11 + flag g.slotOther.valid * 2 ^ 12
    + g.lane.depth * 2 ^ 16

/-- LSTAT (R203). -/
def execLstat (f : LaneF) (s : State) : Out := s.laneAlu .lstat f fun t i => t.g.lstat f i

/-- LCLOCK (R203). -/
def execLclock (f : LaneF) (s : State) : Out := s.laneAlu .lclock f fun t _ => t.cycle

end Sys2Proof.Machine
end

