-- ==== Sys2Proof/Machine/LaneMem.lean ====
section
/-! DEFINITION. Lane memory instructions: ld, ld.rec, st and the atomics (R194 to R202), with the stream slots of R199
and R253. -/

namespace Sys2Proof.Machine

open Sys2Proof

/-! ### Checking every on lane (R121, R195) -/

/-- The checks of a list of lanes, one after another. -/
def State.checkLanes (s : State) (f : State → Nat → Chk × State) : List Nat → List (Nat × Chk) × State
  | [] => ([], s)
  | i :: rest =>
    match f s i with
    | (c, s) =>
      match s.checkLanes f rest with
      | (l, s) => ((i, c) :: l, s)

def Chk.cause? : Chk → Option (Cause × Nat)
  | .fault c l => some (c, l)
  | _ => none

/-- The earlier of two causes in the order of R121; a list of none gives none. -/
def firstCause (l : List (Nat × Chk)) : Option Cause :=
  l.foldl (fun acc x =>
    match acc, x.2.cause? with
    | none, some (c, _) => some c
    | some a, some (c, _) => if c.rank < a.rank then some c else some a
    | acc, none => acc) none

/-- The lanes that raise a cause on any side, and the level of the lowest of them (R121, R356). -/
def causeMask (c : Cause) (l : List (Nat × Chk)) : Mask :=
  maskOf fun i => l.any fun x => x.1 == i && (match x.2 with
    | .fault d _ => d == c
    | _ => false)

def causeLevel (c : Cause) (l : List (Nat × Chk)) : Nat :=
  let lanes := l.filterMap fun x => match x.2 with
    | .fault d lv => if d == c then some (x.1, lv) else none
    | _ => none
  match (sortBy Prod.fst lanes).head? with
  | some x => if c == .xlat then x.2 else 0
  | none => 0

/-- One lane's access: its lane, its places and the memory type. -/
abbrev LaneAcc := Nat × List Place × Nat

/-- The accesses of lanes that all pass, or the trap, or not ready (R237). -/
def State.laneAccess (s : State) (l : List (Nat × Chk)) (k : State → List LaneAcc → Act) : Act :=
  match firstCause l with
  | some c => s.laneTrap c (causeLevel c l) (causeMask c l)
  | none =>
    if l.any fun x => x.2 == .notYet then .stall s
    else k s (l.filterMap fun x => match x.2 with
      | .ok ps mt => some (x.1, ps, mt)
      | _ => none)

/-! ### Fields (R194) -/

def segOf (f : LaneF) : SegName := (SegName.ofCode (field f.md 0 3)).getD .g
def scopeOf (f : LaneF) : Nat := field f.md 3 3
def ordAcq (f : LaneF) : Bool := f.imm.getLsbD 24
def ordRel (f : LaneF) : Bool := f.imm.getLsbD 25
def ncOf (f : LaneF) : Bool := f.imm.getLsbD 26

/-- The access size (R194). -/
def sizeOf_ (f : LaneF) : Nat :=
  match field f.imm 27 3 with
  | 1 => 1
  | 2 => 2
  | _ => if f.ty.is64 then 8 else 4

/-- o[i] of R195. -/
def Gang.laneOffset (g : Gang) (f : LaneF) (i : Nat) : Nat :=
  let a : Word := if f.md.getLsbD 6 then (g.src32 f f.sa i).setWidth 64 else g.src64 f .n64 f.sa i
  (a + ((f.imm.setWidth 24 : BitVec 24).signExtend 64)).toNat

/-- Every on lane of a ld, st or atom checked. -/
def State.laneChecks (s : State) (f : LaneF) (write two : Bool) : List (Nat × Chk) × State :=
  s.checkLanes (fun t i => t.check t.g (segOf f) i (t.g.laneOffset f i) (sizeOf_ f) write two)
    (Mask.lanes (s.g.onMask f))

/-- What a release waits for: every load and atomic returned, UST 0 (R170, R196). -/
def State.laneReleased (s : State) (f : LaneF) (k : State → Act) : Act :=
  if !ordRel f then k s
  else if s.g.loadsBack && s.g.ust == 0 then k (s.releaseVersion (scopeOf f))
  else .stall s

/-- An acquire, once its load has performed (R196, R261). -/
def State.laneAcquired (s : State) (f : LaneF) : State := if ordAcq f then s.acquired (scopeOf f) else s

/-- Whether a load of a lane goes through the L1: an acquire of clus scope or wider performs at its place (R196). -/
def ldViaL1 (f : LaneF) (mt : Nat) : Bool :=
  !(segOf f == .s || segOf f == .p) && viaL1 mt (ncOf f || (ordAcq f && decide (1 ≤ scopeOf f)))

/-! ### Loads -/

/-- Whether an early byte of the scalar stream concerns the running block, which precedes it in program order (R88). -/
def Gang.precedes (g : Gang) (e : EarlyByte) : Bool := decide (g.lane.enqueued - g.lane.queue.length ≤ e.upto)

/-- A byte as a lane of the running block reads it: as the scalar stream found it, where that has accessed it early (R88,
R264); else as a gang reads it. -/
def State.laneByte (s : State) (l1 : Bool) (p : Place) : Byte :=
  match findBy (fun (e : EarlyByte) => e.place == p && s.g.precedes e) s.g.early with
  | some e => e.old
  | none => s.gangByte s.g.ref.crew s.g.core l1 p

/-- A lane's loaded bytes, and whether they arrived poisoned (R197). -/
def State.laneLoad (s : State) (l1 : Bool) (ps : List Place) : Nat × Bool :=
  (leNat (ps.map fun p => s.laneByte l1 p), ps.any fun p => s.gangBad s.g.ref.crew s.g.core l1 p)

/-- Stores of the running block where a later scalar store is early (R88): its value is found by the block's own loads,
and the scalar store stays the last. -/
def Gang.storeEarly (g : Gang) (c : Place × Byte) : Gang :=
  { g with early := updBy (fun (e : EarlyByte) => e.place == c.1 && g.precedes e) (fun e => { e with old := c.2 }) g.early }

/-- The cells of a lane store that reach memory, and the gang with the others kept. -/
def State.takeEarly (s : State) (cells : List (Place × Byte)) : List (Place × Byte) × State :=
  if s.g.early.isEmpty then (cells, s)
  else
    (cells.filter fun c => !(s.g.early.any fun e => e.place == c.1 && s.g.precedes e),
     { s with g := cells.foldl (fun g c => g.storeEarly c) s.g })

/-- A narrow load's extension (R198). -/
def ldExtend (f : LaneF) (x : Nat) : Nat :=
  if field f.imm 27 3 == 0 then x else wrap 32 (toInt f.ty.signed (8 * sizeOf_ f) x)

/-- A load whose lanes have performed: its values are written when they return (R198), its poisoned lanes are dead
from then (R197). -/
def State.loadIssued (s : State) (op : LaneOp) (f : LaneF) (vals : List (Nat × Nat)) (dead : Mask) (u : Undo) : Act :=
  let on := s.g.onMask f &&& ~~~dead
  let get (i : Nat) : Nat := ((findBy (fun (x : Nat × Nat) => x.1 == i) vals).map (·.2)).getD 0
  let low := (laneVals on get).map fun x => BitVec.ofNat 32 x
  let high := (laneVals on get).map fun x => BitVec.ofNat 32 (x / 2 ^ 32)
  let writes := if f.nwb then [] else s.g.writesAt f.dst.toNat on low ++
    if wideResult op f then s.g.writesAt (f.dst.toNat + 1) on high else []
  .ok (s.lanePend op f .load writes dead (some (f.lt.toNat, low))) u

/-- The poisoned data of a lane in the error log, one record for its first bad byte (R378, R384). -/
def State.logLoad (s : State) (l1 : Bool) (ps : List Place) : State :=
  match findBy (fun p => s.gangBad s.g.ref.crew s.g.core l1 p) ps with
  | some p => s.logConsumed l1 p
  | none => s

/-- The lanes of a list of loads read, with the mask of those that arrived poisoned, each in the error log. -/
def State.readLanes (s : State) (l1 : Nat → Bool) : List LaneAcc → List (Nat × Nat) × Mask × State
  | [] => ([], 0, s)
  | (i, ps, mt) :: rest =>
    let s := s.touch s.g.core (l1 mt) ps
    let r := s.laneLoad (l1 mt) ps
    match (if r.2 then s.logLoad (l1 mt) ps else s).readLanes l1 rest with
    | (vs, bad, s) => ((i, r.1) :: vs, if r.2 then bad ||| BitVec.twoPow 32 i else bad, s)

/-- Poisoned lanes of a load: UE in a versioned crew, else dead at the write-back (R378). -/
def State.loadPoison (s : State) (bad : Mask) (k : State → Act) : Act :=
  if bad == 0 then k s else if s.inVersioned then s.laneTrap .ue 0 bad else k s

/-- LD (R195 to R198). -/
def execLd (f : LaneF) (s : State) : Out :=
  s.lane .ld f (s.sound .ld f fun t =>
    match t.laneChecks f false true with
    | (l, t) =>
      t.laneAccess l fun t accs =>
        match t.readLanes (ldViaL1 f) accs with
        | (vals, bad, t) =>
          t.loadPoison bad fun t =>
            (t.laneAcquired f).loadIssued .ld f (vals.map fun x => (x.1, ldExtend f x.2)) bad .write)

/-! ### Streams (R199, R253) -/

/-- Number of elements of a record. -/
def StreamRec.size (r : StreamRec) : Nat := (r.count.take r.dims).foldl (· * ·) 1

/-- The walk offset w of element m (R253). -/
def walkOffset : List Nat → List Int → Nat → Int
  | c :: cs, st :: sts, m => ((m % c : Nat) : Int) * st + walkOffset cs sts (m / c)
  | _, _, _ => 0

def StreamRec.offset (r : StreamRec) (base : Word) (m : Nat) : Nat :=
  (base + BitVec.ofInt 64 (walkOffset (r.count.take r.dims) r.stride m)).toNat

/-- The element numbers of the on lanes, in ascending lane order; a lane past the end has none (R199). -/
def streamLanes (on : List Nat) (pos size : Nat) : List (Nat × Nat) :=
  ((on.zip (List.range on.length)).map fun (x : Nat × Nat) => (x.1, pos + x.2)).filter fun (x : Nat × Nat) =>
    decide (x.2 < size)

/-- The checks of the elements of a stream at given offsets. -/
def State.elementChecks (s : State) (r : StreamRec) (offs : List (Nat × Nat)) : List (Nat × Chk) × State :=
  s.checkLanes (fun t i =>
    t.check t.g ((SegName.ofCode r.seg).getD .g) i
      (((findBy (fun (x : Nat × Nat) => x.1 == i) offs).map (·.2)).getD 0) (2 ^ r.elog) false false)
    (offs.map (·.1))

/-- Whether a stream access goes through the L1 (R253). -/
def streamL1 (r : StreamRec) (seg : Nat) (mt : Nat) : Bool := (seg == 0 || seg == 3) && viaL1 mt r.nc

/-- The elements at given offsets delivered; `idxBad` are the lanes whose index arrived poisoned, and `idxFaults` the
checks of the index reads (R199). -/
def State.deliverElements (s : State) (f : LaneF) (slot : Nat) (x : StreamSlot) (offs : List (Nat × Nat))
    (idxBad : Mask) (idxFaults : List (Nat × Chk)) (taken : Nat) : Act :=
  match s.elementChecks x.desc offs with
  | (l, s) =>
    s.laneAccess (idxFaults ++ l) fun s accs =>
      match s.readLanes (streamL1 x.desc x.desc.seg) (accs.filter fun a => offs.any fun o => o.1 == a.1) with
      | (vals, bad, s) =>
        s.loadPoison (bad ||| idxBad) fun s =>
          let y : StreamSlot := { x with pos := min (x.pos + taken) x.desc.size }
          let s := { s with g := { s.g with streams := s.g.streams.set slot (some y) } }
          s.loadIssued .ldRec f vals (bad ||| idxBad) .write

/-- LD_REC (R199, R253). -/
def execLdRec (f : LaneF) (s : State) : Out :=
  s.lane .ldRec f
    (let slot := field f.imm 0 2
     match (s.g.streams.getD slot none) with
     | none => s.laneTrap .opnd 0 0
     | some x =>
       if 2 ^ x.desc.elog != (if f.ty.is64 then 8 else 4) then s.laneTrap .opnd 0 0
       else
         let on := Mask.lanes (s.g.onMask f)
         let els := streamLanes on x.pos x.desc.size
         if !x.desc.indirect then
           s.deliverElements f slot x (els.map fun e => (e.1, x.desc.offset x.desc.base e.2)) 0 [] on.length
         else
           let offs := els.map fun e => (e.1, x.desc.offset x.desc.ibase e.2)
           match s.checkLanes (fun t i =>
             t.check t.g .g i (((findBy (fun (y : Nat × Nat) => y.1 == i) offs).map (·.2)).getD 0) (2 ^ x.desc.ilog)
               false false) (offs.map (·.1)) with
           | (l, t) =>
             let good := l.filterMap fun y => match y.2 with
               | .ok ps mt => some (y.1, ps, mt)
               | _ => none
             match t.readLanes (streamL1 x.desc 0) good with
             | (idx, bad, t) =>
               let dest := (idx.filter fun y => !bad.getLsbD y.1).map fun y =>
                 (y.1, (x.desc.base + BitVec.ofNat 64 (y.2 * 2 ^ x.desc.iscale)).toNat)
               t.deliverElements f slot x dest bad (l.filter fun y => match y.2 with
                 | .ok _ _ => false
                 | _ => true) on.length)

/-! ### Stores -/

/-- The bytes that a st writes, lanes in ascending order: the highest on lane's byte comes last (R200). -/
def Gang.laneCells (g : Gang) (f : LaneF) (accs : List LaneAcc) : List (Place × Byte) :=
  accs.flatMap fun a => a.2.1.zip (leBytes (sizeOf_ f) (g.src f f.ty f.sb a.1))

/-- Whether a lane store is held in an open version: G and L (R366). -/
def heldSeg (f : LaneF) : Bool := segOf f == .g || segOf f == .l

/-- ST (R195, R196, R200). A store through P commits an open version first (R367). -/
def execSt (f : LaneF) (s : State) : Out :=
  s.lane .st f (if s.g.ust ≥ 255 then .stall s else s.sound .st f fun t =>
    match t.laneChecks f true true with
    | (l, t) =>
      t.laneAccess l fun t accs =>
        t.laneReleased f fun t =>
          t.compared
            (let t := if segOf f == .p then t.commitVersion t.g.ref.crew false else t
             let r := t.takeEarly (t.g.laneCells f accs)
             t.storeCells (heldSeg f) (accs.foldl (fun m a => max m a.2.2) 0) r.1 fun t =>
               .ok (State.laneNext { t with g := { t.g with early := r.2.g.early } } .st f) .write))

/-! ### Atomics (R201) -/

/-- The new memory value of an atomic, from the old value m, b and c (R201). -/
def atomOp (op : LaneOp) (f : LaneF) (m b c : Nat) : Nat :=
  let e := f.ty.elem
  let w := if f.ty.is64 then 64 else 32
  match op with
  | .atomAdd => (m + b) % 2 ^ w
  | .atomMin => if toInt true e b < toInt true e m then b else m
  | .atomMax => if toInt true e m < toInt true e b then b else m
  | .atomMinn => if b < m then b else m
  | .atomMaxn => if m < b then b else m
  | .atomAnd => m &&& b
  | .atomOr => m ||| b
  | .atomXor => m ^^^ b
  | .atomCas => if m == b then c else m
  | .atomFadd => mapElems2 f.ty ((Ty.fmt f.ty).add 0 false false) m b
  | _ => b

/-- A byte as an atomic finds it: at its place; the harbour window gives zero (R221). -/
def State.atomByte (s : State) : Place → Byte
  | .phys pa => if inWindow pa then 0 else s.homeByte pa
  | p => s.placeByte p

/-- The lanes of an atomic performed in ascending order, each indivisible at its place: the old values, the lanes that
met poisoned data, which modify nothing (R197, R201). -/
def State.atomLanes (s : State) (op : LaneOp) (f : LaneF) : List LaneAcc → List (Nat × Nat) × Mask × State
  | [] => ([], 0, s)
  | (i, ps, _) :: rest =>
    if ps.any fun p => s.placeBad true p then
      match s.atomLanes op f rest with
      | (vs, bad, s) => (vs, bad ||| BitVec.twoPow 32 i, s)
    else
      let m := leNat (ps.map s.atomByte)
      let x := atomOp op f m (s.g.src f f.ty f.sb i) (s.g.src f f.ty f.sc i)
      let s := s.writePlaces (ps.zip (leBytes ps.length x))
      match s.atomLanes op f rest with
      | (vs, bad, s) => ((i, m) :: vs, bad, s)

/-- The L1 lines of an atomic's physical places invalidated in the issuing core, and its lines settled (R196). -/
def State.atomLines (s : State) (accs : List LaneAcc) : State :=
  (distinct ((accs.flatMap fun a => a.2.1).filterMap fun p => match p with
    | .phys pa => some (pa / 128)
    | .bank _ _ _ => none)).foldl (fun s n => (s.settleLine (n * 128)).l1Drop s.g.core n) s

/-- The lanes whose data an atomic would meet poisoned. -/
def State.atomBad (s : State) (accs : List LaneAcc) : Mask :=
  maskOf fun i => accs.any fun a => a.1 == i && a.2.1.any fun p => s.placeBad true p

/-- An atomic instruction (R195, R196, R201, R202). -/
def State.atom (s : State) (op : LaneOp) (f : LaneF) : Out :=
  s.lane op f (if s.g.ust ≥ 255 then .stall s else s.sound op f fun t =>
    match t.laneChecks f true false with
    | (l, t) =>
      t.laneAccess l fun t accs =>
        t.laneReleased f fun t =>
          t.compared
            (let t := if segOf f == .s then t else t.commitVersion t.g.ref.crew false
             let t := t.atomLines accs
             let t := (accs.filter fun a => (t.atomBad accs).getLsbD a.1).foldl (fun t a => t.logLoad false a.2.1) t
             t.loadPoison (t.atomBad accs) fun t =>
               match t.atomLanes op f accs with
               | (vals, bad, t) =>
                 let direct := (accs.filter fun a => a.2.2 == 2).flatMap fun a =>
                   physCells (a.2.1.map fun p => (p, (0 : Byte)))
                 let t := t.uncache (heldLines direct)
                 let t := { t with g := { t.g with ust := t.g.ust + 1 } }
                 (t.laneAcquired f).loadIssued op f vals bad .fence))

/-- ATOM_ADD (R201). -/
def execAtomAdd (f : LaneF) (s : State) : Out := s.atom .atomAdd f

/-- ATOM_MIN (R201). -/
def execAtomMin (f : LaneF) (s : State) : Out := s.atom .atomMin f

/-- ATOM_MAX (R201). -/
def execAtomMax (f : LaneF) (s : State) : Out := s.atom .atomMax f

/-- ATOM_MINN (R201). -/
def execAtomMinn (f : LaneF) (s : State) : Out := s.atom .atomMinn f

/-- ATOM_MAXN (R201). -/
def execAtomMaxn (f : LaneF) (s : State) : Out := s.atom .atomMaxn f

/-- ATOM_AND (R201). -/
def execAtomAnd (f : LaneF) (s : State) : Out := s.atom .atomAnd f

/-- ATOM_OR (R201). -/
def execAtomOr (f : LaneF) (s : State) : Out := s.atom .atomOr f

/-- ATOM_XOR (R201). -/
def execAtomXor (f : LaneF) (s : State) : Out := s.atom .atomXor f

/-- ATOM_EXCH (R201). -/
def execAtomExch (f : LaneF) (s : State) : Out := s.atom .atomExch f

/-- ATOM_CAS (R201). -/
def execAtomCas (f : LaneF) (s : State) : Out := s.atom .atomCas f

/-- ATOM_FADD (R201). -/
def execAtomFadd (f : LaneF) (s : State) : Out := s.atom .atomFadd f

end Sys2Proof.Machine
end

