-- ==== Sys2Proof/Machine/LaneCopy.lean ====
section
/-! DEFINITION. The per-lane copies cpa and cpt (R240 to R244) and cpm (R176, R249) as they are accepted. They land later
(R245). -/

namespace Sys2Proof.Machine

open Sys2Proof

/-! ### Accepting a copy -/

/-- The pages of the G side of a copy whose items have their bytes at some virtual addresses (R48). -/
def State.usedPages (s : State) (agent asid : Nat) (vas : List Nat) (n : Nat) : List (Nat × Nat) :=
  vas.foldl (fun l va => (s.pagesOf agent asid va n).foldl (fun (l : List (Nat × Nat)) p => if l.contains p then l else p :: l) l) []

/-- A copy accepted: IFC_CP raised, the open batch joined (R238, R248). `direct` are the lines it writes with MT 2, `used`
the pages of its G side. -/
def State.acceptCopy (s : State) (act : CopyAct) (direct : List Nat) (used : List (Nat × Nat)) : State :=
  let r := s.fresh
  let b := s.g.openBatch
  let c : CopyOp := { id := r.1, gang := s.g.ref, batch := b, act := act, work := none, lines := [], lost := [], direct := direct, used := used,
                      delivered := 0, dropped := 0, squashed := false, replayed := false, void := false }
  let g := { s.g.raise .cp r.1 with notes := noteBatch b.toNat id s.g.notes }
  { r.2 with g := g, copies := r.2.copies ++ [c] }

/-- Whether another copy can be accepted (R238). -/
def State.cpSpace (s : State) : Bool := decide (s.g.ifcOf .cp < 63)

/-- The place of a scratch or peer byte as a byte of a crew's bank, whatever state its page is in: where it is when the
copy lands, R237 says then. -/
def State.bankPlace (s : State) (g : Gang) (seg : SegName) (o : Nat) : Option Place :=
  let e := segVa (g.segs.get seg) o
  match seg with
  | .s =>
    (s.kernelOf g.ref.crew).map fun k => Place.bank g.ref.crew (scratchHandle k.desc.banks e) (scratchByte e)
  | _ =>
    match s.crew g.ref.crew, s.physOf (coreCluster g.core) (e / 2 ^ 20) with
    | some c, some p =>
      (s.siteHolder c.kernel (coreCluster g.core * 128 + p) (e / 2 ^ 15 % 16)).map fun h =>
        Place.bank h.1 h.2 (e % 2 ^ 15)
    | _, _ => none

/-- A side of a copy as its instruction checks it: a page that cannot be reached now is reached when the copy lands
(R237, R246). -/
def Chk.later : Nat × Chk → Nat × Chk
  | (i, .notYet) => (i, .ok [] 0)
  | x => x

/-- The places of the n bytes of a checked side: for S and P the bank bytes that the addresses name. -/
def State.sidePlaces (s : State) (g : Gang) (seg : SegName) (o n : Nat) (ps : List Place) : List Place :=
  match seg with
  | .s | .p => (List.range n).filterMap fun j => s.bankPlace g seg (o + j)
  | _ => ps

/-! ### cpa (R240, R241) -/

/-- The segments of a direction: source, destination (R240). -/
def cpaSegs (f : LaneF) : SegName × SegName :=
  match field f.md 0 2 with
  | 0 => (.g, .s)
  | 1 => (.s, .g)
  | 2 => (.s, .p)
  | _ => (.p, .s)

/-- An operand of a copy side: 64 bits for G, 32 for S and P (R240). -/
def Gang.sideOperand (g : Gang) (f : LaneF) (isG : Bool) (code : BitVec 8) (i : Nat) : Word :=
  if isG then g.src64 f .n64 code i else (g.src32 f code i).setWidth 64

/-- so[i] and do[i] of R241. -/
def Gang.cpaSrc (g : Gang) (f : LaneF) (i : Nat) : Nat :=
  (g.sideOperand f (cpaFromG f) f.sa i + (f.imm.extractLsb' 0 16).signExtend 64).toNat

def Gang.cpaDst (g : Gang) (f : LaneF) (i : Nat) : Nat :=
  (g.sideOperand f (cpaToG f) f.sb i + (f.imm.extractLsb' 16 16).signExtend 64).toNat

/-- n of R241. -/
def cpaSize (f : LaneF) : Nat := 4 * 2 ^ field f.md 2 2

/-- CPA (R240, R241). -/
def execCpa (f : LaneF) (s : State) : Out :=
  s.lane .cpa f (s.sound .cpa f fun t =>
    let on := Mask.lanes (t.g.onMask f)
    let sd := cpaSegs f
    match t.checkLanes (fun t i => t.check t.g sd.1 i (t.g.cpaSrc f i) (cpaSize f) false false) on with
    | (a, t) =>
      match t.checkLanes (fun t i => t.check t.g sd.2 i (t.g.cpaDst f i) (cpaSize f) true false) on with
      | (b, t) =>
        t.laneAccess ((a ++ b).map Chk.later) fun t accs =>
          if !t.cpSpace then .stall t
          else
            t.compared
              (let t := if sd.2 == .p then t.commitVersion t.g.ref.crew false else t
               let src := accs.take on.length
               let dst := accs.drop on.length
               let items := (src.zip dst).map fun (x : LaneAcc × LaneAcc) =>
                 (x.1.1, t.sidePlaces t.g sd.1 (t.g.cpaSrc f x.1.1) (cpaSize f) x.1.2.1,
                  t.sidePlaces t.g sd.2 (t.g.cpaDst f x.1.1) (cpaSize f) x.2.2.1)
               let bar := if f.md.getLsbD 5 then some (field f.sc 0 4) else none
               let vas := on.map fun i =>
                 if sd.1 == .g then segVa t.g.segs.g (t.g.cpaSrc f i)
                 else if sd.2 == .g then segVa t.g.segs.g (t.g.cpaDst f i) else 0
               let direct := heldLines ((dst.filter fun x => sd.2 == .g && x.2.2 == 2).flatMap fun x =>
                 physCells (x.2.1.map fun p => (p, (0 : Byte))))
               let used := if sd.1 == .g || sd.2 == .g then
                   t.usedPages (coreDie t.g.core) t.myAsid vas (cpaSize f)
                 else []
               .ok ((t.acceptCopy (.lanes items vas (cpaSize f) (field f.md 0 2 == 1) bar) direct used).laneNext .cpa f)
                 .fence))

/-! ### cpt (R243, R244) -/

/-- Elements of a run. -/
def cptRun (f : LaneF) : Nat := 8 * 2 ^ field f.md 2 2

/-- Bytes of a run: one per MXINT8 element, half one per E2M1 element (R244). -/
def cptBytes (f : LaneF) : Nat := if field f.md 0 2 == 1 then cptRun f / 2 else cptRun f

def cptSeg (f : LaneF) : SegName := if f.md.getLsbD 5 then .s else .g

def Gang.cptSrc (g : Gang) (f : LaneF) (i : Nat) : Nat :=
  (g.sideOperand f (!f.md.getLsbD 5) f.sa i + (f.imm.extractLsb' 0 16).signExtend 64).toNat

/-- The destination of a lane: bank handle, column, first slot, and the bits that must be zero (R243). -/
def Gang.cptDst (g : Gang) (f : LaneF) (i : Nat) : Nat × Nat × Nat × Nat :=
  let d := g.src32 f f.sb i
  (field d 0 4, field d 4 8, field d 12 7, field d 19 13)

/-- The destination checks of R244. -/
def State.cptCheck (s : State) (f : LaneF) (i : Nat) : Chk :=
  match s.g.cptDst f i with
  | (h, _, t, z) =>
    match s.page s.g.ref.crew h with
    | none => .fault .seg 0
    | some p =>
      if z != 0 || t % cptRun f != 0 || 128 < t + cptRun f then .fault .seg 0
      else if !p.comp then .fault .bankmode 0
      else .ok [] 0

/-- CPT (R243, R244). -/
def execCpt (f : LaneF) (s : State) : Out :=
  s.lane .cpt f (s.sound .cpt f fun t =>
    let on := Mask.lanes (t.g.onMask f)
    match t.checkLanes (fun t i => t.check t.g (cptSeg f) i (t.g.cptSrc f i) (cptBytes f) false false) on with
    | (a, t) =>
      let b := on.map fun i => (i, t.cptCheck f i)
      t.laneAccess ((a ++ b).map Chk.later) fun t accs =>
        if !t.cpSpace then .stall t
        else
          t.compared
            (let items := (accs.take on.length).map fun (x : LaneAcc) =>
               let d := t.g.cptDst f x.1
               (d.1, t.sidePlaces t.g (cptSeg f) (t.g.cptSrc f x.1) (cptBytes f) x.2.1, d.2.1, d.2.2.1,
                (t.g.src32 f f.sc x.1).setWidth 9)
             let bar := if f.imm.getLsbD 20 then some (field f.imm 16 4) else none
             let vas := on.map fun i => segVa t.g.segs.g (t.g.cptSrc f i)
             let used := if cptSeg f == .g then t.usedPages (coreDie t.g.core) t.myAsid vas (cptBytes f) else []
             .ok ((t.acceptCopy (.transpose items vas (cptRun f) (field f.md 0 2 == 1) (f.md.getLsbD 4) bar) []
               used).laneNext .cpt f) .fence))

/-! ### A copy that has landed -/

/-- Notes of a copy in its batch (R247, R248, R250, R258). -/
def State.noteCopy (s : State) (c : CopyOp) (f : BatchNote → BatchNote) : State :=
  s.updGang c.gang fun g => { g with notes := noteBatch c.batch.toNat f g.notes }

/-- A copy has landed: IFC_CP falls, batches finish, and crews that waited for it go on (R238, R248). -/
def State.landed (s : State) (c : CopyOp) : State :=
  let s := if c.replayed then s.noteCopy c fun n => { n with replay := true } else s
  let s := { s with copies := dropBy (fun (x : CopyOp) => x.id == c.id) s.copies }
  ((s.updGang c.gang fun g => g.lower .cp c.id).settleBatches c.gang).settleAll

/-! ### cpm (R176, R249) -/

/-- The fields of a multicast descriptor (R249). -/
structure Mcast where
  src : Nat
  bytes : Nat
  dst : Nat
  bar : Nat
  stage : Nat
  base : Nat
  mask : Nat
  zero : Bool          -- every field that must be zero is
deriving DecidableEq, Repr

def mcastOf (x : Nat) : Mcast :=
  { src := bytesAt x 0 4, bytes := bytesAt x 4 4, dst := bytesAt x 8 4, bar := bytesAt x 0x0C 1,
    stage := bytesAt x 0x0D 1, base := bytesAt x 0x10 4, mask := bytesAt x 0x18 8,
    zero := bytesAt x 0x0E 2 == 0 && bytesAt x 0x14 4 == 0 && bytesAt x 0x0C 1 / 32 % 4 == 0 }

/-- The crews of a mask, as CREW_IDs. -/
def Mcast.ranks (m : Mcast) : List Nat :=
  ((List.range 64).filter fun j => m.mask / 2 ^ j % 2 == 1).map fun j => m.base + j

/-- TRAP_INFO of MCAST (R249, R356): the first failing mask bit, or 64 for a stage failure; none where nothing fails. -/
def Mcast.fails (m : Mcast) (d : LaunchRec) (each die : Nat) : Option Nat :=
  match findBy (fun j => m.mask / 2 ^ j % 2 == 1 && decide (each ≤ m.base + j)) (List.range 64) with
  | some j => some j
  | none =>
    if d.stages ≤ m.stage || (d.stageMasks.getD m.stage 0) / 2 ^ die % 2 == 0 then some 64 else none

/-- Whether a range of scratch bytes of the gang's crew lies in banks of storage mode. -/
def State.scratchStored (s : State) (e n : Nat) : Bool :=
  match s.kernelOf s.g.ref.crew with
  | none => false
  | some k =>
    (List.range ((e + n - 1) / 32768 + 1 - e / 32768)).all fun i =>
      match s.page s.g.ref.crew (k.desc.banks + e / 32768 + i) with
      | some p => !p.comp
      | none => false

/-- The receivers of a mask: for a merged grid, the crews of the sender's own child (R83). -/
def Mcast.receivers (m : Mcast) (c : Crew) (k : Kernel) : List Nat :=
  m.ranks.map fun r => c.child k * k.each + r

/-- CPM (R176, R249). -/
def execCpm (a : Reg) (s : State) : Out :=
  (s.needs 8 (s.reading [a]
    (match s.check s.g .s 0 (s.getK a).toNat 32 false false with
     | (.notYet, _) => Act.stall s
     | (.fault c _, t) => .trap t c 0
     | (.ok ps _, t) =>
       match findBy (fun p => t.gangBad t.g.ref.crew t.g.core false p) ps, t.myCrew, t.kernelOf t.g.ref.crew with
       | some p, _, _ => .trap (t.logConsumed false p) .ue 0
       | none, some c, some k =>
         let m := mcastOf (leNat (ps.map fun p => t.gangByte t.g.ref.crew t.g.core false p))
         let seg := t.g.segs.s
         let e := segVa seg m.src
         match m.fails k.desc k.each c.die with
         | some j => .trap t .mcast (BitVec.ofNat 64 j)
         | none =>
           if !m.zero || m.bytes < 128 || 65536 < m.bytes || m.bytes % 128 != 0 || m.src % 128 != 0 || m.dst % 128 != 0
           then .trap t .opnd 0
           else if seg.limit.toNat < m.src + m.bytes || k.desc.scratch * 8192 < e + m.bytes
               || k.desc.scratch * 8192 < m.dst + m.bytes then .trap t .seg 0
           else if !t.scratchStored e m.bytes then .trap t .bankmode 0
           else if !t.cpSpace then .stall t
           else
             t.compared
               (let t := t.commitVersion t.g.ref.crew false
                let t := t.acceptCopy (.multicast e m.bytes m.dst
                  (if 128 ≤ m.bar then some (m.bar % 32) else none) m.stage (m.receivers c k) (m.receivers c k) [] []) [] []
                let t := if m.mask == 0 then (t.copies.getLast?).elim t fun x => t.landed x else t
                .ok t.advance .fence)
       | none, _, _ => .trap t .seg 0))).scalar s

end Sys2Proof.Machine
end

