-- ==== Sys2Proof/Machine/Bar.lean ====
section
/-! DEFINITION. Barriers and the BAR family (R319 to R326). A barrier of a kernel that is not listed is in its default
state. -/

namespace Sys2Proof.Machine

open Sys2Proof

/-! ### Barrier objects (R319) -/

/-- Barriers of a level. -/
def barCount (level : Nat) : Nat :=
  match level with
  | 0 => 16
  | 1 => 32
  | 2 => 16
  | _ => 8

def barNum (name : Word) : Nat := field name 0 5
def barLevel (name : Word) : Nat := field name 5 2

/-- Whether a barrier name is valid. -/
def barValid (name : Word) : Bool := field name 7 57 == 0 && decide (barNum name < barCount (barLevel name))

/-- The barrier that a name means for the gang. -/
def State.barOf (s : State) (name : Word) : BarAt :=
  let serial := match s.myCrew with
    | some c => c.kernel
    | none => 0
  match barLevel name with
  | 0 => .crew s.g.ref.crew (barNum name)
  | 1 => .kernel serial 1 (coreCluster s.g.core) (barNum name)
  | 2 => .kernel serial 2 (coreDie s.g.core) (barNum name)
  | _ => .kernel serial 3 0 (barNum name)

/-- A member count that fits MEMB, or 0: unset (R319). -/
def membOf (n : Nat) : Half := if n < 2 ^ 32 then BitVec.ofNat 32 n else 0

/-- Gangs of a kernel in one cluster of a die. -/
def LaunchRec.clusterGangs (d : LaunchRec) (die : Nat) : Nat :=
  d.gangs * d.crews * ((List.range d.stages).filter fun st => (d.stageMasks.getD st 0) / 2 ^ die % 2 == 1).length

/-- The default member count of a cluster, die or grid barrier (R319). -/
def LaunchRec.members (d : LaunchRec) (level dom : Nat) : Nat :=
  let clusters := popcount 2 d.clusterMask
  match level with
  | 1 => d.clusterGangs (dom / 2)
  | 2 => d.clusterGangs dom * clusters
  | _ => sumNat ((List.range 8).map fun die => d.clusterGangs die * clusters)

def Barrier.fresh (level dom num : Nat) (memb : Half) : Barrier :=
  { level := level, dom := dom, num := num, phase := false, memb := memb, arr := 0, tx := 0, next := none,
    excess := false }

/-- The barriers of a crew at its start (R320). -/
def crewBarriers (gangs : Nat) : List Barrier :=
  (List.range 16).map fun n => Barrier.fresh 0 0 n (BitVec.ofNat 32 (2 ^ gangs - 1))

/-- A barrier as it stands, a kernel's unlisted one by default. -/
def State.barrierAt (s : State) (a : BarAt) : Barrier :=
  match s.barrier a with
  | some b => b
  | none =>
    match a with
    | .crew _ n => Barrier.fresh 0 0 n 0
    | .kernel serial level dom n =>
      match s.kernel serial with
      | some k => Barrier.fresh level dom n (membOf (k.desc.members level dom))
      | none => Barrier.fresh level dom n 0

/-- A barrier listed among those of its crew or kernel. -/
def State.listBarrier (s : State) (a : BarAt) (b : Barrier) : State :=
  match a with
  | .crew id _ => s.updCrew id fun c => { c with barriers := c.barriers ++ [b] }
  | .kernel serial _ _ _ => s.updKernel serial fun k => { k with barriers := k.barriers ++ [b] }

/-- A barrier as it becomes; the gangs that wait for a phase which this completes are released (R322). -/
def State.putBarrier (s : State) (a : BarAt) (b : Barrier) : State :=
  if (s.barrier a).isSome then s.updBarrier a fun _ => b
  else if b.phase == (s.barrierAt a).phase then s.listBarrier a b
  else (s.listBarrier a b).releaseWaiters a b.phase

/-! ### The members (R325) -/

/-- barinit's value (R325). -/
def State.memberOk (s : State) (name x : Word) : Bool :=
  if barLevel name == 0 then
    match s.kernelOf s.g.ref.crew with
    | some k => x != 0 && decide (x.toNat < 2 ^ k.desc.gangs)
    | none => false
  else x != 0 && field x 32 32 == 0

/-- BARINIT (R322, R325). -/
def execBarinit (a b : Reg) (s : State) : Out :=
  (s.reading [a, b]
    (let name := s.getK a
     if !barValid name || !s.memberOk name (s.getK b) then .trap s .opnd 0
     else
       let x := s.barrierAt (s.barOf name)
       let v : Half := (s.getK b).setWidth 32
       let y : Barrier := if x.arr == 0 && x.tx == 0 then { x with memb := v, next := none } else { x with next := some v }
       s.compared (s.putBarrier (s.barOf name) y).done)).scalar s

/-- k[kb]<39:0> sign-extended (R325). -/
def txOf (x : Word) : Int := (x.setWidth 40).toInt

/-- BARX (R322, R325). -/
def execBarx (a b : Reg) (s : State) : Out :=
  (s.reading [a, b]
    (let name := s.getK a
     let n := txOf (s.getK b)
     let x := s.barrierAt (s.barOf name)
     let lim : Int := 2 ^ 39 - 1
     if !barValid name || (s.getK b).toInt != n || decide (x.tx + n < -lim) || decide (lim < x.tx + n) then
       .trap s .opnd 0
     else s.compared (s.putBarrier (s.barOf name) ({ x with tx := x.tx + n } : Barrier).advance).done)).scalar s

/-- Whether the gang may arrive (R325): at crew level its bit is in MEMB and not in ARR; elsewhere the barrier is
set. -/
def State.mayArrive (s : State) (name : Word) : Bool :=
  let x := s.barrierAt (s.barOf name)
  if barLevel name == 0 then x.memb.getLsbD s.g.ref.idx && !x.arr.getLsbD s.g.ref.idx else x.memb != 0

/-- A barrier with one more arrival (R322): a gang's bit at crew level, else the count, which beyond MEMB leaves the phase
open for good (R321). -/
def Barrier.arriveOne (b : Barrier) (idx : Nat) : Barrier :=
  Barrier.advance
    (if b.level == 0 then { b with arr := b.arr ||| BitVec.twoPow 32 idx }
     else { b with arr := if b.arr == BitVec.allOnes 32 then b.arr else b.arr + 1,
                   excess := b.excess || decide (b.memb.toNat ≤ b.arr.toNat) })

/-- One arrival of the gang whose turn it is (R322). -/
def State.arrive (s : State) (name : Word) : State :=
  s.putBarrier (s.barOf name) ((s.barrierAt (s.barOf name)).arriveOne s.g.ref.idx)

/-- PHASE of a barrier (R320). -/
def State.phaseOf (s : State) (name : Word) : Bool := (s.barrierAt (s.barOf name)).phase

/-- The part of barr that barrw shares: checks, release, arrival; the token goes on. -/
def State.arriveWith (s : State) (name : Word) (k : State → Bool → Act) : Act :=
  if !barValid name || !s.mayArrive name then .trap s .opnd 0
  else s.compared (s.released false
    (let t := s.releaseVersion (barLevel name)
     k (t.arrive name) (t.phaseOf name)))

/-- BARR (R325). -/
def execBarr (d a : Reg) (s : State) : Out :=
  (s.reading [a] (s.arriveWith (s.getK a) fun t token => t.result d (if token then 1 else 0))).scalar s

/-- A barw whose phase has completed: acq(L), once every load has returned (R170, R325). -/
def State.pastBarrier (s : State) (name : Word) : Act :=
  if s.g.loadsBack then (s.acquired (barLevel name)).done else .wait s (.passed none)

/-- BARW (R325). -/
def execBarw (a b : Reg) (s : State) : Out :=
  (match s.g.wait with
   | some (.passed none) => s.pastBarrier (s.getK a)
   | _ =>
     s.reading [a, b]
       (let name := s.getK a
        let token := (s.getK b).getLsbD 0
        if !barValid name || field (s.getK b) 1 63 != 0 then .trap s .opnd 0
        else s.compared (s.whenIdle
          (if s.phaseOf name == token then .wait s (.barrier (s.barOf name) token) else s.pastBarrier name)))).scalar s

/-- BARRW (R325): after its arrival it is a barw with the token it obtained. -/
def execBarrw (d a : Reg) (s : State) : Out :=
  (match s.g.wait with
   | some (.arrived x token) => Act.wait s (.arrived x token)
   | some (.passed (some token)) => (s.acquired (barLevel (s.getK a))).result d (if token then 1 else 0)
   | _ =>
     s.reading [a] (s.arriveWith (s.getK a) fun t token =>
       if t.phaseOf (s.getK a) != token then (t.acquired (barLevel (s.getK a))).result d (if token then 1 else 0)
       else .wait t (.arrived (s.barOf (s.getK a)) token))).scalar s

end Sys2Proof.Machine
end

