-- ==== Sys2Proof/Machine/Copies.lean ====
section
/-! DEFINITION. How an accepted copy lands (R241 to R247, R250, R251, R279 to R282): its sources are read once, its writes
are made line by line or column by column as the ports of the banks take them, and its barrier is counted down once. -/

namespace Sys2Proof.Machine

open Sys2Proof

/-! ### Spans of bytes -/

/-- n bytes from a place, as a span; crew 0 stands for physical memory. -/
def Place.span (p : Place) (n : Nat) : Span :=
  match p with
  | .phys pa => { crew := 0, page := 0, first := pa, n := n }
  | .bank c h y => { crew := c, page := h, first := y, n := n }

/-- Whether a byte of one span is a byte of the other. -/
def Span.meets (a b : Span) : Bool :=
  a.crew == b.crew && a.page == b.page && decide (a.first < b.first + b.n ∧ b.first < a.first + a.n)

def meetAny (a b : List Span) : Bool := a.any fun x => b.any fun y => x.meets y

/-- Places as spans, consecutive bytes in one. -/
def spansOf : List Place → List Span
  | [] => []
  | p :: rest =>
    match spansOf rest with
    | [] => [p.span 1]
    | x :: l =>
      let y := p.span 1
      if y.crew == x.crew && y.page == x.page && y.first + 1 == x.first then { y with n := x.n + 1 } :: l
      else y :: x :: l

/-- The first byte of the 128-byte line of a place. -/
def Place.line : Place → Place
  | .phys pa => .phys (pa / 128 * 128)
  | .bank c h y => .bank c h (y / 128 * 128)

/-- The j-th byte from a place. -/
def Place.plus (p : Place) (j : Nat) : Place :=
  match p with
  | .phys pa => .phys (pa + j)
  | .bank c h y => .bank c h (y + j)

/-- The lines of a list of places, each once. -/
def linesOf : List Place → List Place
  | [] => []
  | p :: rest => if (linesOf rest).contains p.line then linesOf rest else p.line :: linesOf rest

/-- A list with every element present, or none. -/
def allSome {α : Type} : List (Option α) → Option (List α)
  | [] => some []
  | none :: _ => none
  | some x :: rest => (allSome rest).map fun l => x :: l

/-! ### What a copy reads and writes -/

/-- Lines of 128 bytes of the scratch space of a crew. -/
def State.scratchSpans (s : State) (crew e n : Nat) : List Span :=
  match s.kernelOf crew with
  | none => []
  | some k =>
    (List.range (n / 128)).map fun i =>
      { crew := crew, page := scratchHandle k.desc.banks (e + 128 * i), first := scratchByte (e + 128 * i), n := 128 }

/-- The crew that a multicast names by its rank, unless it has ended (R249, R250). -/
def State.receiverOf (s : State) (c : CopyOp) (stage rank : Nat) : Option Crew :=
  match s.crew c.gang.crew with
  | none => none
  | some x =>
    findBy (fun (y : Crew) => y.kernel == x.kernel && y.die == x.die && y.cluster == x.cluster && y.stage == stage
      && y.rank == rank) s.crews

/-- The bytes of a column that cpt writes, with a run of elements from a slot (R243). -/
def cptSpans (crew h col t run : Nat) : List Span :=
  (List.range (8 * run)).map fun i => { crew := crew, page := h, first := 32 * (8 * t + i) + col / 8, n := 1 }

def CopyPiece.id : CopyPiece → Nat
  | .line id _ _ => id
  | .column id _ _ _ _ _ _ => id

/-- The bytes that a piece writes. -/
def CopyPiece.spans (own : Nat) : CopyPiece → List Span
  | .line _ cells _ => spansOf (cells.map (·.1))
  | .column _ h col t codes _ _ => cptSpans own h col t codes.length

/-- The bytes that a copy has still to read: none once its sources are read. -/
def State.copyReads (s : State) (c : CopyOp) : List Span :=
  if c.work.isSome then []
  else
    match c.act with
    | .lanes items _ _ _ _ => items.flatMap fun x => spansOf x.2.1
    | .transpose items _ _ _ _ _ => items.flatMap fun x => spansOf x.2.1
    | .multicast src bytes _ _ _ _ _ data _ => if data.isEmpty then s.scratchSpans c.gang.crew src bytes else []

/-- The bytes that a copy has still to write. -/
def State.copyWrites (s : State) (c : CopyOp) : List Span :=
  match c.work, c.act with
  | some l, .lanes _ _ _ _ _ => l.flatMap (CopyPiece.spans c.gang.crew)
  | some l, .transpose _ _ _ _ _ _ => l.flatMap (CopyPiece.spans c.gang.crew)
  | none, .lanes items _ _ _ _ => items.flatMap fun x => spansOf x.2.2
  | none, .transpose items _ run _ _ _ => items.flatMap fun x => cptSpans c.gang.crew x.1 x.2.2.1 x.2.2.2.1 run
  | _, .multicast _ bytes dst _ stage _ left _ _ =>
    left.flatMap fun r =>
      match s.receiverOf c stage r with
      | some y => s.scratchSpans y.id dst bytes
      | none => []

/-- Whether an earlier copy of the same gang has still to write one of some bytes, or for a write to read it (R245). -/
def State.copyBefore (s : State) (c : CopyOp) (write : Bool) (sp : List Span) : Bool :=
  s.copies.any fun x =>
    x.gang == c.gang && decide (x.id < c.id) && !x.squashed
      && (meetAny (s.copyWrites x) sp || (write && meetAny (s.copyReads x) sp))

/-- Whether a write of a copy waits: for an earlier copy of its gang (R245), or for an mtx in flight whose active source
range it would change (R246). -/
def State.writeHeld (s : State) (c : CopyOp) (sp : List Span) : Bool :=
  s.copyBefore c true sp || s.mxs.any fun m => meetAny m.active sp

/-! ### Where bytes are now (R237, R279) -/

/-- Whether an operation of a copy is at the head of a port. -/
def Page.atHead (p : Page) (id piece : Nat) : Bool :=
  match p.port.head? with
  | some op => op.act == .copy id piece
  | none => false

/-- Whether a copy of the page's own crew waits because the page, that of a compute bank, is not all refilled (R237). -/
def State.bankRefilling (s : State) (crew h : Nat) (own : Bool) (p : Page) : Bool :=
  own && p.state == .refilling &&
    (match s.kernelOf crew with
     | some k => decide (h < k.desc.banks)
     | none => false)

/-- Where a copy reads a byte: `some none` for a byte of a page whose crew has ended, none where the read must wait. -/
def State.sourceNow (s : State) (c : CopyOp) : Place → Option (Option Place)
  | .phys pa => some (some (.phys pa))
  | .bank x h y =>
    match s.page x h with
    | none => some none
    | some p =>
      if s.bankRefilling x h (x == c.gang.crew) p then none
      else
        match pageWhere x h y (x == c.gang.crew) p with
        | .at_ (.bank x h y) => if p.portFree || p.atHead c.id 0 then some (some (.bank x h y)) else none
        | .at_ q => some (some q)
        | .notYet => none

/-- Where a write of a copy goes. -/
inductive Way where
  | gone                     -- the page's crew has ended
  | later                    -- the page is on its way (R237)
  | memory                   -- at a home
  | bank (crew h : Nat)      -- through the port of a bank
deriving DecidableEq, Repr

def State.wayOf (s : State) (c : CopyOp) : Place → Way
  | .phys _ => .memory
  | .bank x h y =>
    match s.page x h with
    | none => .gone
    | some p =>
      if s.bankRefilling x h (x == c.gang.crew) p then .later
      else
        match pageWhere x h y (x == c.gang.crew) p with
        | .at_ (.bank x h _) => .bank x h
        | .at_ (.phys _) => .memory
        | .notYet => .later

/-- A byte of a page as it can be written now: at the bank, or in its backing line. -/
def State.nowPlace (s : State) (c : CopyOp) (p : Place) : Place :=
  match p with
  | .phys _ => p
  | .bank x h y =>
    match s.page x h with
    | none => p
    | some pg =>
      match pageWhere x h y (x == c.gang.crew) pg with
      | .at_ q => q
      | .notYet => p

/-- A piece's last byte, by which its way is found. -/
def CopyPiece.place (own : Nat) : CopyPiece → Place
  | .line _ cells _ => ((cells.map (·.1)).getLast?).getD (.phys 0)
  | .column _ h _ t codes _ _ => .bank own h (32 * (8 * (t + codes.length)) - 1)

/-! ### The list of copies -/

def State.copyOf (s : State) (id : Nat) : Option CopyOp := findBy (fun (c : CopyOp) => c.id == id) s.copies

def State.updCopy (s : State) (id : Nat) (f : CopyOp → CopyOp) : State :=
  { s with copies := updBy (fun (c : CopyOp) => c.id == id) f s.copies }

/-- The operations of a copy taken from the ports of its own crew's banks. -/
def State.popCopy (s : State) (c : CopyOp) (piece : Nat) : State :=
  s.updCrew c.gang.crew fun x =>
    { x with pages := x.pages.map fun p => { p with port := p.port.filter fun o => o.act != .copy c.id piece } }

/-- A copy of the gang that holds a bank in step mode waits at its port for a step (R282). -/
def State.queueCopy (s : State) (c : CopyOp) (crew h piece : Nat) : State :=
  s.updPage crew h fun p =>
    if p.owner == some c.gang && !(p.port.any fun o => o.act == .copy c.id piece) then
      { p with port := p.port ++ [{ id := c.id, gang := c.gang, act := .copy c.id piece, steps := 0 }] }
    else p

/-- Poisoned data that a copy carries: an error record, and the note of its batch (R247, R378, R384). -/
def State.copyHurt (s : State) (c : CopyOp) (bad : List Place) : State :=
  match bad.head? with
  | none => s
  | some p =>
    (s.onGang c.gang fun t => t.logConsumed false p).noteCopy c fun n => { n with poison := true }

/-! ### Reading the sources -/

/-- The bytes of one side of an item as they are now; those of a page whose crew has ended are free values (log 7). -/
def State.copyBytesAt (s : State) (c : CopyOp) (item : Nat) (ps : List (Option Place)) : List Byte :=
  ((List.range ps.length).zip ps).map fun x =>
    match x.2 with
    | some p => s.gangByte c.gang.crew 0 false p
    | none => (s.freeVal ((c.id * 64 + item) * 64 + x.1)).setWidth 8

/-- The places of an item whose data arrives poisoned. -/
def State.copyBadAt (s : State) (c : CopyOp) (ps : List (Option Place)) : List Place :=
  (ps.filterMap id).filter fun p => s.gangBad c.gang.crew 0 false p

/-- Elements of a run from its bytes. -/
def runCodes (e2m1 : Bool) (bytes : List Byte) : List Nat :=
  if e2m1 then bytes.flatMap fun b => [b.toNat % 16, b.toNat / 16] else bytes.map BitVec.toNat

/-- The writes of a cpa: merged line by line (R242), a higher lane's byte last (R241). -/
def linePieces (cells : List (Place × Byte)) (bad : List Place) : List CopyPiece :=
  let lines := linesOf (cells.map (·.1))
  ((List.range lines.length).zip lines).map fun x =>
    .line (x.1 + 1) (cells.filter fun c => c.1.line == x.2) (bad.filter fun p => p.line == x.2)

/-- The data of a multicast, read once: its bytes and its poisoned 32-byte sectors with their places; none while a line of
it cannot be read. -/
def State.mcastData (s : State) (c : CopyOp) (src bytes : Nat) : Option (List Byte × List Nat × List Place) :=
  match s.kernelOf c.gang.crew with
  | none => none
  | some k =>
    (allSome ((List.range bytes).map fun i =>
      s.sourceNow c (.bank c.gang.crew (scratchHandle k.desc.banks (src + i)) (scratchByte (src + i))))).map fun ps =>
      let bad := (List.range (bytes / 32)).filter fun i => !(s.copyBadAt c ((ps.drop (32 * i)).take 32)).isEmpty
      (s.copyBytesAt c 0 ps, bad, ps.filterMap id |>.filter fun p => s.gangBad c.gang.crew 0 false p)

/-- The data of a multicast kept with it once read. -/
def CopyOp.keepData (c : CopyOp) (data : List Byte) (bad : List Nat) : CopyOp :=
  match c.act with
  | .multicast x b d r st all l _ _ => { c with act := .multicast x b d r st all l data bad }
  | _ => c

/-- The sources of a copy read, all at once, and its writes made out (R241, R244); none where a source must wait. -/
def State.gather (s : State) (c : CopyOp) : Option State :=
  match c.act with
  | .lanes items _ _ _ _ =>
    (allSome (items.map fun x => allSome (x.2.1.map (s.sourceNow c)))).map fun src =>
      let all := (src.zip items).zip (List.range items.length)
      let cells := all.flatMap fun x => x.1.2.2.2.zip (s.copyBytesAt c x.2 x.1.1)
      let bad := all.flatMap fun x => if (s.copyBadAt c x.1.1).isEmpty then [] else x.1.2.2.2
      let t := s.updCopy c.id fun c => { c with work := some (linePieces cells bad) }
      (t.copyHurt c (src.flatMap (s.copyBadAt c))).popCopy c 0
  | .transpose items _ _ e2m1 scale _ =>
    (allSome (items.map fun x => allSome (x.2.1.map (s.sourceNow c)))).map fun src =>
      let all := (src.zip items).zip (List.range items.length)
      let work := all.map fun x =>
        let y := x.1.2
        CopyPiece.column (x.2 + 1) y.1 y.2.2.1 y.2.2.2.1 (runCodes e2m1 (s.copyBytesAt c x.2 x.1.1))
          (if scale then some y.2.2.2.2 else none) !(s.copyBadAt c x.1.1).isEmpty
      let t := s.updCopy c.id fun c => { c with work := some work }
      (t.copyHurt c (src.flatMap (s.copyBadAt c))).popCopy c 0
  | .multicast src bytes _ _ _ _ _ _ _ =>
    (s.mcastData c src bytes).map fun x =>
      ((s.updCopy c.id fun c => c.keepData x.1 x.2.1).copyHurt c x.2.2).popCopy c 0

/-- The banks of the copy's own crew, in step mode of its own gang, that a source names. -/
def State.ownStepBanks (s : State) (c : CopyOp) : List Nat :=
  distinct ((s.copyReads c).filterMap fun x =>
    match s.page x.crew x.page with
    | some p => if x.crew == c.gang.crew && p.owner == some c.gang then some x.page else none
    | none => none)

/-- Whether the sources of a copy are read. -/
def CopyOp.gathered (c : CopyOp) : Bool :=
  match c.act with
  | .multicast _ _ _ _ _ _ _ data _ => !data.isEmpty
  | _ => c.work.isSome

/-- A copy's sources read, if nothing holds the read back; else its reads wait at the banks whose steps its gang gives. -/
def State.startCopy (s : State) (c : CopyOp) : State :=
  if c.gathered || s.copyBefore c false (s.copyReads c) then s
  else
    match s.gather c with
    | some t => t
    | none => (s.ownStepBanks c).foldl (fun t h => t.queueCopy c c.gang.crew h 0) s

/-! ### Making the writes -/

/-- The 8 rows of an element's slot: bits of an MXINT8 element, or of an E2M1 element expanded (R136). -/
def slotForm (e2m1 : Bool) (code : Nat) : Nat :=
  if e2m1 then (e2m1Half code).natAbs + (if e2m1Half code < 0 then 16 else 0) else code % 256

/-- A run of elements written into a column, with its scale slot (R244). -/
def Page.putRun (p : Page) (col t : Nat) (codes : List Nat) (e2m1 : Bool) (scale : Option (BitVec 9)) : Page :=
  let p := ((List.range codes.length).zip codes).foldl (fun (p : Page) x =>
    (List.range 8).foldl (fun (p : Page) b => p.setCell (8 * (t + x.1) + b) col ((slotForm e2m1 x.2).testBit b)) p) p
  match scale with
  | some v => p.setCol col { p.col col with scale := (p.col col).scale.set (t / 32) v }
  | none => p

/-- Rows marked poisoned. -/
def Page.poisonRows (p : Page) (r n : Nat) : Page :=
  (List.range n).foldl (fun p b => { p with poison := addNat p.poison (r + b) }) p

/-- Cells of a copy with a G destination: held in the open version of its crew (R245, R366), and dropped where that is
discarded (R368). A version that would exceed its capacity fails the crew (R369). Matching L1 lines of the issuing core go
(R245), and lines of MT 2 leave the L2 (R229). -/
def State.copyWriteG (s : State) (c : CopyOp) (cells : List (Nat × Byte)) (bad : List Nat) : State :=
  let crew := c.gang.crew
  let direct := c.direct.filter fun n => cells.any fun x => x.1 / 128 == n
  if c.void then s
  else
    let s := match s.crew crew with
      | some x => (heldLines cells).foldl (fun (t : State) n => t.l1Drop x.core n) s
      | none => s
    if s.versionOpen crew then
      if s.holdFull crew cells then s.failCrew crew Cause.version.code
      else (s.hold crew (!direct.isEmpty) cells).holdPoison crew bad
    else ((s.writeHome cells).poisonPlaces (bad.map Place.phys)).uncache direct

/-- Whether the destination of a copy is in G. -/
def CopyOp.toG (c : CopyOp) : Bool :=
  match c.act with
  | .lanes _ _ _ s2g _ => s2g
  | _ => false

/-- Whether the elements of a cpt are E2M1. -/
def CopyOp.e2m1 (c : CopyOp) : Bool :=
  match c.act with
  | .transpose _ _ _ e _ _ => e
  | _ => false

/-- One write of a copy performed (R241, R244, R247). -/
def State.writePiece (s : State) (c : CopyOp) (x : CopyPiece) : State :=
  match x with
  | .line _ cells bad =>
    if c.toG then s.copyWriteG c (physCells cells) (bad.filterMap fun p => match p with
      | .phys pa => some pa
      | .bank _ _ _ => none)
    else (s.writePlaces (cells.map fun y => (s.nowPlace c y.1, y.2))).poisonPlaces (bad.map (s.nowPlace c))
  | .column _ h col t codes scale bad =>
    s.updPage c.gang.crew h fun p =>
      let p := p.putRun col t codes c.e2m1 scale
      if bad then p.poisonRows (8 * t) (8 * codes.length) else p

/-- A write that is made, or dropped, leaves the work of its copy. -/
def State.donePiece (s : State) (c : CopyOp) (x : CopyPiece) : State :=
  s.updCopy c.id fun y => { y with work := y.work.map fun l => dropBy (fun (z : CopyPiece) => z.id == x.id) l }

/-- A write of a copy made if it can be: by its way, through a free port, or by a step (R279 to R282). -/
def State.tryPiece (s : State) (id : Nat) (x : CopyPiece) : State :=
  match s.copyOf id with
  | none => s
  | some c =>
    if s.writeHeld c (x.spans c.gang.crew) then s
    else
      match s.wayOf c (x.place c.gang.crew) with
      | .gone => s.donePiece c x
      | .later => s
      | .memory => (s.writePiece c x).donePiece c x
      | .bank crew h =>
        match s.page crew h with
        | none => s
        | some p => if p.portFree then (s.writePiece c x).donePiece c x else s.queueCopy c crew h x.id

/-! ### Landing (R245, R251) -/

/-- The crew whose page holds a destination. -/
def destCrew (own : Nat) (ps : List Place) : Nat :=
  match ps.head? with
  | some (.bank c _ _) => c
  | _ => own

/-- A crew barrier counted down by a copy (R251). -/
def State.countBar (s : State) (crew bar bytes : Nat) : State := s.updBarrier (.crew crew bar) fun x => x.countDown bytes

/-- The barriers of a copy counted down, each once by all the bytes it counts (R251). -/
def State.countLanding (s : State) (c : CopyOp) : State :=
  let own := c.gang.crew
  match c.act with
  | .lanes items _ size _ (some b) =>
    let dest := items.map fun x => destCrew own x.2.2
    (distinct dest).foldl (fun t y => t.countBar y b (size * (dest.filter fun z => z == y).length)) s
  | .transpose items _ run e2m1 _ (some b) => s.countBar own b ((if e2m1 then run / 2 else run) * items.length)
  | .multicast _ bytes _ (some b) _ _ _ _ _ =>
    match s.crew own with
    | some x =>
      let a : BarAt := .kernel x.kernel 1 (coreCluster x.core) b
      s.putBarrier a ((s.barrierAt a).countDown (bytes * c.delivered))
    | none => s
  | _ => s

/-- A copy whose every write is made lands (R245, R251). -/
def State.settleCopy (s : State) (id : Nat) : State :=
  match s.copyOf id with
  | none => s
  | some c =>
    let finished := match c.act with
      | .multicast _ _ _ _ _ _ left _ _ => left.isEmpty
      | _ => c.work == some []
    if finished then (s.countLanding c).landed c else s

/-- A copy as far as it gets now: its sources read, each of its writes made that can be. -/
def State.advanceCopy (s : State) (c : CopyOp) : State :=
  let s := s.startCopy c
  match (s.copyOf c.id).bind (·.work) with
  | none => s
  | some l => l.foldl (fun (t : State) x => t.tryPiece c.id x) s

/-- COPY_LAND (R245 to R248, R251). -/
def execCopyLand (id : Nat) (s : State) : Out :=
  .next
    (match s.copyOf id with
     | none => s
     | some c => if c.squashed then s else (s.advanceCopy c).settleCopy id)

/-- An operation of a copy at the head of a port performed, by a step (R282): the reading of its sources, or one write; one
that must wait stays at the head. -/
def State.runCopyOp (s : State) (id piece : Nat) : State :=
  match s.copyOf id with
  | none => s
  | some c =>
    if piece == 0 then (s.startCopy c).settleCopy id
    else
      match c.work.bind (fun l => findBy (fun (x : CopyPiece) => x.id == piece) l) with
      | none => s.popCopy c piece
      | some x =>
        if s.writeHeld c (x.spans c.gang.crew) then s
        else (((s.writePiece c x).donePiece c x).popCopy c piece).settleCopy id

/-! ### Multicast deliveries (R250) -/

/-- Bytes that the multicast buffer of a cluster holds. -/
def State.bufferUsed (s : State) (cluster : Nat) : Nat :=
  sumNat ((s.multicast.filter fun b => b.cluster == cluster).map fun b => b.data.length)

/-- A delivery done: the receiver is reached. -/
def State.reached (s : State) (c : CopyOp) (rank : Nat) (dropped : Bool) : State :=
  let left (a : CopyAct) : CopyAct :=
    match a with
    | .multicast x b d r st all l data bad => .multicast x b d r st all (l.filter fun z => z != rank) data bad
    | a => a
  let s := s.updCopy c.id fun x =>
    { x with act := left x.act, delivered := x.delivered + (if dropped then 0 else 1),
             dropped := x.dropped + (if dropped then 1 else 0) }
  if dropped then
    (s.updGang c.gang fun g => { g with dropCnt := min 65535 (g.dropCnt + 1) }).noteCopy c fun n => { n with drop := true }
  else s

/-- Line i of a delivery to a receiver, if it can be made now (R237, R246, R250, R279); a line in a compute-mode bank page
is dropped. -/
def State.deliverLine (s : State) (c : CopyOp) (rank : Nat) (y : Crew) (banks dst : Nat) (data : List Byte)
    (bad : List Nat) (i : Nat) : State :=
  let e := dst + 128 * i
  let h := scratchHandle banks e
  let done (t : State) : State := t.updCopy c.id fun x => { x with lines := (rank, i) :: x.lines }
  let lost (t : State) : State := (done t).updCopy c.id fun x => { x with lost := addNat x.lost rank }
  match s.page y.id h with
  | none => lost s
  | some p =>
    if p.comp then lost s
    else if s.writeHeld c [{ crew := y.id, page := h, first := scratchByte e, n := 128 }] then s
    else
      let way := s.wayOf c (.bank y.id h (scratchByte e))
      if way == .memory || (way == .bank y.id h && p.portFree) then
        let q := s.nowPlace c (.bank y.id h (scratchByte e))
        let s := s.writePlaces (((List.range 128).map q.plus).zip ((data.drop (128 * i)).take 128))
        done (s.poisonPlaces (((List.range 4).filter fun j => bad.contains (4 * i + j)).map fun j => q.plus (32 * j)))
      else s

/-- A delivery to a receiver as far as it gets now, by the receiver's state (R250). -/
def State.deliver (s : State) (c : CopyOp) (rank stage dst : Nat) (data : List Byte) (bad : List Nat) : State :=
  match s.receiverOf c stage rank with
  | none => s.reached c rank true
  | some y =>
    let banks := match s.kernel y.kernel with
      | some k => k.desc.banks
      | none => 0
    if y.state == .failing || y.state == .done then s.reached c rank true
    else if !y.begun then
      let cl := coreCluster y.core
      if 65536 < s.bufferUsed cl + data.length then s
      else
        let b : Buffered :=
          { kernel := y.kernel, cluster := cl, stage := stage, rank := rank, dst := dst, data := data, poison := bad }
        State.reached { s with multicast := s.multicast ++ [b] } c rank false
    else
      let n := data.length / 128
      let s := ((List.range n).filter fun i => !c.lines.contains (rank, i)).foldl
        (fun (t : State) i => t.deliverLine c rank y banks dst data bad i) s
      match s.copyOf c.id with
      | none => s
      | some x =>
        if (List.range n).all fun i => x.lines.contains (rank, i) then s.reached c rank (x.lost.contains rank) else s

/-- MULTICAST_DELIVERY (R250): the source bytes are read once, at the first delivery. -/
def execMulticastDelivery (id receiver : Nat) (s : State) : Out :=
  .next
    (match s.copyOf id with
     | none => s
     | some c =>
       if c.squashed then s
       else
         let t := s.startCopy c
         match t.copyOf id with
         | none => t
         | some c =>
           match c.act with
           | .multicast _ _ dst _ stage _ left data bad =>
             if data.isEmpty || !left.contains receiver then t else t.deliver c receiver stage dst data bad
           | _ => s)

end Sys2Proof.Machine
end

