-- ==== Sys2Proof/Machine/Bank.lean ====
section
/-! DEFINITION. The bank port (R279 to R282), bank control (R283 to R287), row operations (R288 to R293) and the column
port (R295 to R297). -/

namespace Sys2Proof.Machine

open Sys2Proof

/-! ### Rows and vectors -/

/-- Row r of a bank; bit c is the cell of column c (R273). -/
def Page.row (p : Page) (r : Nat) : BitVec 256 := BitVec.ofNat 256 (leNat (p.cells.readBytes (32 * r) 32))

/-- Row r written in the columns of a mask. A row wholly written loses its poison mark (R376). -/
def Page.putRow (p : Page) (r : Nat) (on x : BitVec 256) : Page :=
  let y := (p.row r &&& ~~~on) ||| (x &&& on)
  { p with cells := p.cells.writeBytes (32 * r) (leBytes 32 y.toNat), dirty := addNat p.dirty (r / 4),
           poison := if on == BitVec.allOnes 256 then p.poison.filter fun q => q != r else p.poison }

/-- The n rows from row r. -/
def Page.rows (p : Page) (r n : Nat) : List (BitVec 256) := (List.range n).map fun b => p.row (r + b)

/-- The element of column c in the rows of a vector (R288). -/
def elemAt (c : Nat) : List (BitVec 256) → Nat
  | [] => 0
  | x :: rest => flag (x.getLsbD c) + 2 * elemAt c rest

/-- A row from its 256 cells. -/
def rowOf (f : Nat → Bool) : BitVec 256 :=
  BitVec.ofNat 256 (sumNat ((List.range 256).map fun c => if f c then 2 ^ c else 0))

/-- The n rows from row r written with the bits of 256 elements, in the columns of a mask. -/
def Page.putVec (p : Page) (r n : Nat) (on : BitVec 256) (vals : List Nat) : Page :=
  (List.range n).foldl (fun p b => p.putRow (r + b) on (rowOf fun c => (vals.getD c 0).testBit b)) p

/-! ### Row descriptors (R290, R291) -/

def predRow (p : Nat) : Nat := 1016 + p

/-- The fields of a row descriptor (R290). -/
structure RowDesc where
  h : Nat
  a : Nat
  b : Nat
  d : Nat
  w : Nat
  p : Nat
  pd : Bool
  sg : Bool
deriving DecidableEq, Repr

def rowDesc (x : Word) : RowDesc :=
  { h := field x 0 4, a := field x 4 10, b := field x 14 10, d := field x 24 10, w := field x 34 6 + 1,
    p := field x 40 3, pd := x.getLsbD 43, sg := x.getLsbD 44 }

def BvOp.usesA : BvOp → Bool
  | .set | .pst => false
  | _ => true

def BvOp.usesB : BvOp → Bool
  | .add | .sub | .mul | .and | .or | .xor | .cmpeq | .cmplt | .cmpltn | .sel => true
  | _ => false

def BvOp.usesD : BvOp → Bool
  | .cmpeq | .cmplt | .cmpltn | .pld => false
  | _ => true

/-- Whether the member reads or writes P apart from its predicate (R293). -/
def BvOp.usesP : BvOp → Bool
  | .cmpeq | .cmplt | .cmpltn | .sel | .pld | .pst => true
  | _ => false

def BvOp.takesSg : BvOp → Bool
  | .mul | .shr => true
  | _ => false

def BvOp.takesPd : BvOp → Bool
  | .sel | .pld | .pst => false
  | _ => true

/-- Source ranges as (first row, rows) (R291). -/
def BvOp.sources (op : BvOp) (x : RowDesc) : List (Nat × Nat) :=
  (if op.usesA then [(x.a, x.w)] else []) ++ (if op.usesB then [(x.b, x.w)] else [])
    ++ (if op == .sel || op == .pst then [(predRow x.p, 1)] else [])

/-- The destination range (R291). -/
def BvOp.dest (op : BvOp) (x : RowDesc) : Nat × Nat :=
  match op with
  | .cmpeq | .cmplt | .cmpltn | .pld => (predRow x.p, 1)
  | .mul => (x.d, 2 * x.w)
  | _ => (x.d, x.w)

def apart (x y : Nat × Nat) : Bool := decide (x.1 + x.2 ≤ y.1 ∨ y.1 + y.2 ≤ x.1)

/-- An overlap that R291 allows. -/
def BvOp.overlapOk (op : BvOp) (x : RowDesc) : Bool :=
  let d := op.dest x
  (op != .mul && (op.sources x).any fun r => r == d) || (op.sources x).all fun r => apart d r

/-- The OPND conditions of R290 and R291. -/
def BvOp.badDesc (op : BvOp) (k : Word) : Bool :=
  let x := rowDesc k
  field k 45 19 != 0 || (!op.usesA && x.a != 0) || (!op.usesB && x.b != 0) || (!op.usesD && x.d != 0)
    || (!op.usesP && !x.pd && x.p != 0) || (x.sg && !op.takesSg) || (x.pd && !op.takesPd)
    || ((op == .pld || op == .pst) && x.w != 1) || !op.overlapOk x

/-- Whether a range of a member ends above row 1,023 (R291). -/
def BvOp.outside (op : BvOp) (x : RowDesc) : Bool :=
  (op.dest x :: op.sources x).any fun r => decide (1024 < r.1 + r.2)

/-! ### What a row operation computes (R293) -/

/-- The result of a member for one column: elements a and b, P's cell, and the scalar operand. -/
def BvOp.value (op : BvOp) (w : Nat) (sg : Bool) (a b : Nat) (p : Bool) (k : Nat) : Nat :=
  let s := k % w
  match op with
  | .add => (a + b) % 2 ^ w
  | .sub => wrap w ((a : Int) - b)
  | .mul => wrap (2 * w) (toInt sg w a * toInt sg w b)
  | .neg => wrap w (-(a : Int))
  | .addk => (a + k) % 2 ^ w
  | .and => a &&& b
  | .or => a ||| b
  | .xor => a ^^^ b
  | .not => 2 ^ w - 1 - a
  | .cpy => a
  | .set => k % 2 ^ w
  | .shl => a * 2 ^ s % 2 ^ w
  | .shr => wrap w (toInt sg w a / (2 ^ s : Nat))
  | .cmpeq => flag (a == b)
  | .cmplt => flag (decide (toInt true w a < toInt true w b))
  | .cmpltn => flag (decide (a < b))
  | .sel => if p then a else b
  | .pld => a
  | .pst => flag p

/-- The rows a member reads: its sources, and the predicate row of a predicated operation (R292). -/
def BvOp.readRows (op : BvOp) (x : RowDesc) : List Nat :=
  (op.sources x).flatMap (fun r => (List.range r.2).map fun i => r.1 + i) ++ if x.pd then [predRow x.p] else []

/-- A row operation performed on a bank (R291 to R293): every source is read before any destination is written;
poisoned rows make every destination row poisoned (R378). -/
def Page.rowOp (pg : Page) (op : BvOp) (desc scalar : Word) : Page :=
  let x := rowDesc desc
  let as := if op.usesA then pg.rows x.a x.w else []
  let bs := if op.usesB then pg.rows x.b x.w else []
  let pr := pg.row (predRow x.p)
  let on := if x.pd then pr else BitVec.allOnes 256
  let vals := (List.range 256).map fun c =>
    op.value x.w x.sg (elemAt c as) (elemAt c bs) (pr.getLsbD c) scalar.toNat
  let d := op.dest x
  let out := pg.putVec d.1 d.2 on vals
  if (op.readRows x).any fun r => pg.poison.contains r then out.poisonRows d.1 d.2 else out

/-- Microsequencer cycles of a member (R293). -/
def BvOp.cycles (op : BvOp) (x : RowDesc) : Nat :=
  (match op with
   | .add | .sub | .neg | .addk | .sel => x.w + 1
   | .mul => x.w * (x.w + 2)
   | .pld | .pst => 1
   | _ => x.w) + flag x.pd

/-! ### The column port (R295 to R297) -/

/-- The fields of a column descriptor (R295). -/
structure ColDesc where
  h : Nat
  c0 : Nat
  r0 : Nat
  n : Nat
deriving DecidableEq, Repr

def colDesc (x : Half) : ColDesc := { h := field x 0 4, c0 := field x 4 8, r0 := field x 12 10, n := field x 22 5 + 1 }

/-- Steps of an operation in step mode (R282). -/
def BankAct.stepCount : BankAct → Nat
  | .bv op desc _ => op.cycles (rowDesc desc)
  | .cpr sel _ desc _ _ _ => if sel == 0 then (colDesc desc).n else 1
  | .cpw sel _ desc _ _ => if sel == 0 then (colDesc desc).n else 1
  | _ => 1

/-- What cpr gives lane i (R297). -/
def Page.colRead (p : Page) (sel j : Nat) (x : ColDesc) (i : Nat) : Nat :=
  let c := x.c0 + i
  let y := p.col c
  match sel with
  | 0 => elemAt c (p.rows x.r0 x.n)
  | 1 => y.acc.toNat
  | 2 => ((y.bp.getD j 0).signExtend 32).toNat
  | 3 => (y.scale.getD j 0).toNat
  | _ => flag y.ovf + 2 * flag y.nan

/-- −2^63 is written to ACC as −(2^63 − 1) and sets OVF (R138, R297). -/
def Col.putAcc (y : Col) (x : Word) : Col :=
  if x == 0x8000000000000000 then { y with acc := 0x8000000000000001, ovf := true } else { y with acc := x }

/-- What cpw does with lane i's data (R297). -/
def Page.colWrite (p : Page) (sel j : Nat) (x : ColDesc) (i : Nat) (v : Word) : Page :=
  let c := x.c0 + i
  let y := p.col c
  match sel with
  | 0 => (List.range x.n).foldl (fun p t => p.setCell (x.r0 + t) c (v.getLsbD t)) p
  | 1 => p.setCol c (y.putAcc v)
  | 2 => p.setCol c { y with bp := y.bp.set j (v.setWidth 22) }
  | _ => p.setCol c { y with scale := y.scale.set j (v.setWidth 9) }

/-- Whether a cpr meets poisoned data (R378): a poisoned row, or an ACC that carries the mark. -/
def Page.colBad (p : Page) (sel : Nat) (x : ColDesc) (on : Mask) : Bool :=
  match sel with
  | 0 => (List.range x.n).any fun t => p.poison.contains (x.r0 + t)
  | 1 => (Mask.lanes on).any fun i => (p.col (x.c0 + i)).poison
  | _ => false

/-! ### The port (R280, R282) -/

/-- An operation sent to the port of a bank of the gang's crew; before the port where another gang owns step mode. -/
def State.sendBank (s : State) (h id : Nat) (act : BankAct) : State :=
  let op : BankOp := { id := id, gang := s.g.ref, act := act, steps := 0 }
  s.updPage s.g.ref.crew h fun p =>
    if p.owner.isSome && p.owner != some s.g.ref then { p with outside := p.outside ++ [op] }
    else { p with port := p.port ++ [op] }

/-- An issued instruction of the fx path: IFC_FX raised, its operation sent (R238, R279). -/
def State.issueFx (s : State) (h : Nat) (act : BankAct) : State :=
  let r := s.fresh
  State.sendBank { r.2 with g := r.2.g.raise .fx r.1 } h r.1 act

/-- A halt that was due once the lanes' issued instructions had written (R214, R254, R296) takes place. -/
def State.settleHalt (s : State) : State :=
  if s.g.haltDue && !s.g.lanesBusy then
    { s with g := { s.g with status := .halted, haltDue := false, stepOne := none } }
  else s

/-- The latch of an instruction whose values return (R106): instructions that issued before it no longer write it. -/
def State.latchBack (s : State) (p : Pend) (vals : List Half) : State :=
  match p.latch with
  | none => s
  | some (l, _) =>
    State.takeLatch
      { s with g := { s.g with
          latches := s.g.latches.set l { valid := true, vals := vals },
          pend := s.g.pend.map fun x =>
            if decide (x.id < p.id) && x.latch.any (fun y => y.1 == l) then { x with latch := none } else x } } l

/-- What an instruction in flight gives back (R106, R198, R214, R254, R297): its registers, then its latch, with 0 for the
lanes that give none; a dead lane takes nothing. The shadow of a Mordant gang is given the same, but for an SMM, which it
runs itself (R381). -/
def State.giveBack (s : State) (p : Pend) (writes : List (Nat × Nat × Half)) (low : Nat → Half) : State :=
  let live := writes.filter fun w => !s.g.dead.getLsbD w.2.1
  let vals := laneList.map fun i => if s.g.dead.getLsbD i then 0 else low i
  let g := live.foldl (fun (g : Gang) w => g.setSlot w.1 w.2.1 w.2.2) s.g
  let s := State.latchBack { s with g := g } p vals
  State.settleHalt
    { s with g := s.g.tell (if p.kind == .smm then .smm else .back live (p.latch.map fun x => (x.1, vals)) s.g.dead) }

/-- The registers and the latch of a cpr written (R106, R296, R297), or its lanes dead (R378): UE in a versioned crew. -/
def State.finishCpr (s : State) (r : GangRef) (id : Nat) (pg : Page) (sel j : Nat) (desc : Half) (on : Mask)
    (dst : Nat) (wide : Bool) : State :=
  s.onGang r fun s =>
    match findBy (fun (p : Pend) => p.id == id) s.g.pend with
    | none => s
    | some p =>
      let x := colDesc desc
      let s := { s with g := { s.g with pend := dropBy (fun (p : Pend) => p.id == id) s.g.pend } }
      let get (i : Nat) : Half := if on.getLsbD i then BitVec.ofNat 32 (pg.colRead sel j x i) else 0
      let writes := (Mask.lanes on).flatMap fun i =>
        let v := pg.colRead sel j x i
        (dst, i, BitVec.ofNat 32 v) :: if wide then [(dst + 1, i, BitVec.ofNat 32 (v / 2 ^ 32))] else []
      if pg.colBad sel x on then
        let s := s.logUnit (if sel == 0 then 4 else 5)
        if s.inVersioned then s.takeTrap true .ue (s.g.laneInfo 0 s.g.slotNow.pc on) else (s.kill on).giveBack p writes get
      else s.giveBack p writes get

/-- A cpw is written: the lanes of its gang wait for it no more (R296). -/
def State.finishCpw (s : State) (r : GangRef) (id : Nat) : State :=
  s.onGang r fun t => State.settleHalt { t with g := { t.g with pend := dropBy (fun (p : Pend) => p.id == id) t.g.pend } }

/-- The data of a cpw written. -/
def Page.cpw (p : Page) (sel j : Nat) (desc : Half) (on : Mask) (data : List Word) : Page :=
  (Mask.lanes on).foldl (fun p i => p.colWrite sel j (colDesc desc) i (data.getD i 0)) p

/-- Step mode begins (R278): what other gangs have waiting behind the bstep waits before the port (R282). -/
def Page.beginStep (p : Page) (r : GangRef) : Page :=
  if !p.comp || p.owner.isSome then p
  else { p with owner := some r, port := p.port.filter fun o => o.gang == r,
                outside := p.outside ++ p.port.filter fun o => o.gang != r }

/-- A row operation performed on a bank of a crew, with an error record where it meets poisoned rows (R293, R384). -/
def State.runRowOp (s : State) (crew h : Nat) (pg : Page) (r : GangRef) (op : BvOp) (desc scalar : Word) : State :=
  let s := if (op.readRows (rowDesc desc)).any fun n => pg.poison.contains n then s.onGang r fun t => t.logUnit 4 else s
  s.updPage crew h fun p => p.rowOp op desc scalar

/-- One operation at the head of a port performed (R278, R280, R293, R297); the counter of its path falls (R238). An
operation of a copy is the copy's own affair (R279). -/
def State.finishBankOp (s : State) (crew h : Nat) (pg : Page) (op : BankOp) : State :=
  let s := s.updPage crew h fun p => { p with port := p.port.drop 1 }
  let s :=
    match op.act with
    | .bv m desc scalar => s.runRowOp crew h pg op.gang m desc scalar
    | .cpr sel j desc on dst wide => s.finishCpr op.gang op.id pg sel j desc on dst wide
    | .cpw sel j desc on data => (s.updPage crew h fun p => p.cpw sel j desc on data).finishCpw op.gang op.id
    | .mode true => s.updPage crew h fun p => { p with comp := true }
    | .mode false => s.updPage crew h fun p => ({ p with comp := false } : Page).endStep
    | .stepOn => s.updPage crew h fun p => p.beginStep op.gang
    | .mx _ => s
    | .copy _ _ => s
  (s.updGang op.gang fun g => g.lower .fx op.id).settleCrew crew

def State.runBankOp (s : State) (crew h : Nat) (op : BankOp) : State :=
  match s.page crew h, op.act with
  | none, _ => s
  | some _, .copy id piece => s.runCopyOp id piece
  | some pg, _ => s.finishBankOp crew h pg op

/-- Whether an operation at a bank's port belongs to an mtx, mclr or mdrain. -/
def BankAct.isMx : BankAct → Bool
  | .mx _ => true
  | _ => false

/-- BANK_OP_COMPLETE (R280): the operation at the head of the port of a bank in its bank, not in step mode. -/
def execBankOpComplete (core site : Nat) (s : State) : Out :=
  .next
    (match findBy (fun (c : Crew) => c.core == core && c.pages.any fun p => p.site == site && p.state == .pinned)
        s.crews with
     | none => s
     | some c =>
       match findBy (fun (x : Nat × Page) => x.2.site == site && x.2.state == .pinned)
           ((List.range c.pages.length).zip c.pages) with
       | none => s
       | some x =>
         match x.2.port.head? with
         | some op => if x.2.owner.isSome || op.act.isMx then s else s.runBankOp c.id x.1 op
         | none => s)

/-! ### Bank control (R283 to R287) -/

/-- A bank of the gang's crew by the handle in a register: OPND for a bit above the handle, SEG for one that names no
bank (R275, R283). -/
def State.withBank (s : State) (a : Reg) (k : Nat → Page → Act) : Act :=
  s.reading [a]
    (if field (s.getK a) 4 60 != 0 then .trap s .opnd 0
     else
       match s.page s.g.ref.crew (field (s.getK a) 0 4) with
       | none => .trap s .seg 0
       | some p => k (field (s.getK a) 0 4) p)

/-- Whether another instruction of the fx path can issue (R238). -/
def State.fxSpace (s : State) : Bool := decide (s.g.ifcOf .fx < 63)

/-- A scalar instruction that sends a bank operation. -/
def State.scalarFx (s : State) (h : Nat) (act : BankAct) : Act :=
  if s.fxSpace then s.compared (.ok (s.issueFx h act).advance .fence) else .stall s

/-- BMODE_STOR (R284). -/
def execBmodeStor (a : Reg) (s : State) : Out := (s.withBank a fun h _ => s.scalarFx h (.mode false)).scalar s

/-- BMODE_COMP (R284). -/
def execBmodeComp (a : Reg) (s : State) : Out := (s.withBank a fun h _ => s.scalarFx h (.mode true)).scalar s

/-- BSTEP_ON (R285). -/
def execBstepOn (a : Reg) (s : State) : Out :=
  (s.needs 11 (s.withBank a fun h p => if p.comp then s.scalarFx h .stepOn else .trap s .bankmode 0)).scalar s

/-- BSTEP_OFF (R285, R278). -/
def execBstepOff (a : Reg) (s : State) : Out :=
  (s.needs 11 (s.withBank a fun h p =>
    s.compared (.ok (State.advance
      (if p.owner == some s.g.ref then s.updPage s.g.ref.crew h Page.endStep else s)) .fence))).scalar s

/-- The head of a port advanced by one step (R282): it is performed at its last. -/
def State.stepHead (s : State) (h : Nat) (p : Page) : State :=
  match p.port.head? with
  | none => s
  | some op =>
    if op.steps + 1 < op.act.stepCount || op.act.isMx then
      s.updPage s.g.ref.crew h fun p =>
        { p with port := match p.port with
            | o :: rest => { o with steps := o.steps + 1 } :: rest
            | [] => [] }
    else s.runBankOp s.g.ref.crew h op

/-- BSTEP_STEP (R282, R285). -/
def execBstepStep (a : Reg) (s : State) : Out :=
  (s.needs 11 (s.withBank a fun h p =>
    s.compared (.ok (State.advance (if p.owner == some s.g.ref then s.stepHead h p else s)) .fence))).scalar s

/-- Whether the head of a port runs (R286): in step mode once a step has taken it. -/
def Page.busy (p : Page) : Bool :=
  match p.port.head? with
  | some op => if p.owner.isSome then op.steps != 0 else !op.act.isMx
  | none => false

/-- The bank status of R286. -/
def State.bankStatus (s : State) (p : Page) (mxRuns : Bool) : Word :=
  let busy := p.busy || mxRuns
  let owner := match p.owner.bind s.gang with
    | some g => g.slot
    | none => 0
  word [(flag p.comp, 0), (flag p.owner.isSome, 1), (flag busy, 2),
        (min 255 (p.port.length - flag busy + p.outside.length), 8), (owner, 16),
        (flag (p.cols.any fun x => x.2.ovf), 21), (flag (p.cols.any fun x => x.2.nan), 22)]

/-- Whether the head of a port is a matrix operation that has started (R306). -/
def State.mxRuns (s : State) (p : Page) : Bool :=
  match p.port.head? with
  | some op => op.act.isMx && s.mxs.any fun m => m.id == op.id && m.started
  | none => false

/-- BQUERY (R286). -/
def execBquery (d a : Reg) (s : State) : Out :=
  (s.withBank a fun _ p => s.result d (s.bankStatus p (s.mxRuns p))).scalar s

/-- Whether any of the operations of a list is still at a port of the gang's crew. -/
def State.opsLeft (s : State) (ids : List Nat) : Bool :=
  match s.myCrew with
  | some c => c.pages.any fun p => (p.port ++ p.outside).any fun o => ids.contains o.id
  | none => false

/-- BSYNC (R287): it waits for the operations that had arrived when it issued. -/
def execBsync (a : Reg) (s : State) : Out :=
  (match s.g.wait with
   | some (.bankOps ids) => if s.opsLeft ids then Act.wait s (.bankOps ids) else s.done
   | _ =>
     s.withBank a fun _ p =>
       let ids := (p.port ++ p.outside).map BankOp.id
       if ids.isEmpty then s.done else .wait s (.bankOps ids)).scalar s

/-! ### The row operations -/

/-- A BVA, BVL or BVC instruction (R291, R293): its descriptor checked, its operation sent. -/
def State.rowInstr (s : State) (op : BvOp) (a b : Reg) : Out :=
  (s.needs 15 (s.reading [a, b]
    (let k := s.getK a
     let x := rowDesc k
     if op.badDesc k then .trap s .opnd 0
     else
       match s.page s.g.ref.crew x.h with
       | none => .trap s .seg 0
       | some p =>
         if op.outside x then .trap s .seg 0
         else if !p.comp then .trap s .bankmode 0
         else s.scalarFx x.h (.bv op k (s.getK b))))).scalar s

/-- BV_ADD (R293). -/
def execBvAdd (a : Reg) (s : State) : Out := s.rowInstr .add a 0

/-- BV_SUB (R293). -/
def execBvSub (a : Reg) (s : State) : Out := s.rowInstr .sub a 0

/-- BV_MUL (R293). -/
def execBvMul (a : Reg) (s : State) : Out := s.rowInstr .mul a 0

/-- BV_NEG (R293). -/
def execBvNeg (a : Reg) (s : State) : Out := s.rowInstr .neg a 0

/-- BV_ADDK (R293). -/
def execBvAddk (a b : Reg) (s : State) : Out := s.rowInstr .addk a b

/-- BV_AND (R293). -/
def execBvAnd (a : Reg) (s : State) : Out := s.rowInstr .and a 0

/-- BV_OR (R293). -/
def execBvOr (a : Reg) (s : State) : Out := s.rowInstr .or a 0

/-- BV_XOR (R293). -/
def execBvXor (a : Reg) (s : State) : Out := s.rowInstr .xor a 0

/-- BV_NOT (R293). -/
def execBvNot (a : Reg) (s : State) : Out := s.rowInstr .not a 0

/-- BV_CPY (R293). -/
def execBvCpy (a : Reg) (s : State) : Out := s.rowInstr .cpy a 0

/-- BV_SET (R293). -/
def execBvSet (a b : Reg) (s : State) : Out := s.rowInstr .set a b

/-- BV_SHL (R293). -/
def execBvShl (a b : Reg) (s : State) : Out := s.rowInstr .shl a b

/-- BV_SHR (R293). -/
def execBvShr (a b : Reg) (s : State) : Out := s.rowInstr .shr a b

/-- BV_CMPEQ (R293). -/
def execBvCmpeq (a : Reg) (s : State) : Out := s.rowInstr .cmpeq a 0

/-- BV_CMPLT (R293). -/
def execBvCmplt (a : Reg) (s : State) : Out := s.rowInstr .cmplt a 0

/-- BV_CMPLTN (R293). -/
def execBvCmpltn (a : Reg) (s : State) : Out := s.rowInstr .cmpltn a 0

/-- BV_SEL (R293). -/
def execBvSel (a : Reg) (s : State) : Out := s.rowInstr .sel a 0

/-- BV_PLD (R293). -/
def execBvPld (a : Reg) (s : State) : Out := s.rowInstr .pld a 0

/-- BV_PST (R293). -/
def execBvPst (a : Reg) (s : State) : Out := s.rowInstr .pst a 0

/-! ### cpr and cpw -/

/-- The column descriptor as every lane reads it (R295). -/
def Gang.colWord (g : Gang) (f : LaneF) : Half := g.src32 f f.sa 0

/-- OPND of a column descriptor (R295, R296). -/
def colDescBad (sel : Nat) (x : Half) : Bool :=
  field x 27 5 != 0 || (sel != 0 && (field x 22 5 != 0 || field x 12 10 != 0))

/-- The checks of R296; a trap names every on lane. -/
def State.colAccess (s : State) (f : LaneF) (k : Act) : Act :=
  let sel := field f.md 0 3
  let x := colDesc (s.g.colWord f)
  let on := s.g.onMask f
  if colDescBad sel (s.g.colWord f) then s.laneTrap .opnd 0 on
  else
    match s.page s.g.ref.crew x.h with
    | none => s.laneTrap .seg 0 on
    | some p =>
      if 224 < x.c0 || (sel == 0 && decide (1024 < x.r0 + x.n)) then s.laneTrap .seg 0 on
      else if !p.comp then s.laneTrap .bankmode 0 on
      else if !s.fxSpace then .stall s
      else k

/-- CPR (R295 to R297). -/
def execCpr (f : LaneF) (s : State) : Out :=
  s.lane .cpr f (s.sound .cpr f fun t =>
    t.colAccess f
      (let on := t.g.onMask f
       let id := t.nextId
       let act : BankAct := .cpr (field f.md 0 3) (field f.md 3 2) (t.g.colWord f) on (t.g.slotOf f.dst.toNat) f.ty.is64
       let h := (colDesc (t.g.colWord f)).h
       let u := t.lanePend .cpr f .cpr (t.g.writesAt f.dst.toNat on []) 0 (some (0, []))
       t.compared (.ok (State.sendBank { u with g := u.g.raise .fx id } h id act) .fence)))

/-- CPW (R295 to R297). -/
def execCpw (f : LaneF) (s : State) : Out :=
  s.lane .cpw f (s.sound .cpw f fun t =>
    t.colAccess f
      (let data := laneList.map fun i => BitVec.ofNat 64 (t.g.src f f.ty f.sb i)
       let x := t.g.colWord f
       let id := t.nextId
       let u := (t.fresh.2).laneNext .cpw f
       let p : Pend := { id := id, kind := .cpr, writes := [], regs := [], dead := 0, latch := none }
       let act : BankAct := .cpw (field f.md 0 3) (field f.md 3 2) x (t.g.onMask f) data
       t.compared (.ok (State.sendBank { u with g := { u.g.raise .fx id with pend := u.g.pend ++ [p] } } (colDesc x).h id act)
         .fence)))

end Sys2Proof.Machine
end

