-- ==== Sys2Proof/Machine/Xfm.lean ====
section
/-! DEFINITION. The transform pipe: the XFM family (R254) and the Woad format (R255). -/

namespace Sys2Proof.Machine

open Sys2Proof

/-! ### The Woad format (R255) -/

/-- Byte m of the mask of a superblock. -/
def woadMask (data : List Byte) (m : Nat) : Byte :=
  BitVec.ofNat 8 (sumNat ((List.range 8).map fun k => if data.getD (8 * m + k) 0 == 0 then 0 else 2 ^ k))

/-- Mask and non-zero bytes of a superblock, not padded. -/
def woadBody (data : List Byte) : List Byte :=
  (List.range 64).map (woadMask data) ++ data.filter fun b => b != 0

/-- The image of a superblock, 512 bytes with those above the count zero, and its sector count. -/
def woadPack (data : List Byte) : List Byte × Nat :=
  let body := woadBody data
  let n := (body.length + 127) / 128
  if n ≤ 3 then (body ++ List.replicate (512 - body.length) 0, n) else (data, 4)

/-- Bytes placed where the mask has a 1. -/
def woadSpread : List Bool → List Byte → List Byte
  | [], _ => []
  | false :: rest, bs => 0 :: woadSpread rest bs
  | true :: rest, bs => bs.headD 0 :: woadSpread rest (bs.drop 1)

/-- The superblock of an image with a sector count: 4 is a copy, 0 and 5 to 7 give zeros (R254). -/
def woadUnpack (image : List Byte) (n : Nat) : List Byte :=
  if n == 4 then image
  else if n == 0 || 4 < n then List.replicate 512 0
  else
    let kept := image.take (128 * n) ++ List.replicate (512 - 128 * n) 0
    woadSpread ((List.range 512).map fun i => (kept.getD (i / 8) 0).getLsbD (i % 8)) (kept.drop 64)

/-! ### Operands (R254) -/

/-- A source of every lane, 0 for a lane that is not on. -/
def Gang.xfmSrc (g : Gang) (f : LaneF) (code : BitVec 8) : List Half :=
  let on := g.onMask f
  laneList.map fun i => if on.getLsbD i then g.src32 f code i else 0

/-- The 512 bytes of a operand of four registers: bytes 16i + 4m of register m of lane i. -/
def Gang.xfmBytes (g : Gang) (f : LaneF) : List Byte :=
  let on := g.onMask f
  laneList.flatMap fun i => (List.range 4).flatMap fun m =>
    leBytes 4 (if on.getLsbD i then (g.getV i (f.sa.toNat + m)).toNat else 0)

/-- Register m of every lane from 512 bytes. -/
def xfmReg (bytes : List Byte) (m : Nat) : List Half :=
  laneList.map fun i => BitVec.ofNat 32 (leNat ((bytes.drop (16 * i + 4 * m)).take 4))

/-- Results, as values by register from DST. -/
def xfmTrans (a : List Half) : List Half :=
  laneList.map fun j => BitVec.ofNat 32 (sumNat (laneList.map fun i => if (a.getD i 0).getLsbD j then 2 ^ i else 0))

def xfmQuant (b : BlockFmt) (a : List Half) : List Half :=
  let r := quantise b (a.map fun x => Fmt.f32.value x.toNat)
  r.2.map fun c => BitVec.ofNat 32 (c + r.1.toNat * 2 ^ 16)

/-- scale × v exactly; the element −0 stays −0 under a scale that is not zero. -/
def xfmDequant (b : BlockFmt) (a s : Half) : Half :=
  let slot : BitVec 9 := s.setWidth 9
  let code := if b == .mxint8 then field a 0 8 else field a 0 4
  let zeroScale := match blockScale b slot with
    | some x => x.1 == 0
    | none => false
  if b != .mxint8 && code == 8 && !nanScale b slot && !zeroScale then 0x80000000
  else if zeroScale then 0
  else BitVec.ofNat 32 (Fmt.f32.ofNum 0 false (elementValue b slot code))

/-- Element k: the signed half units of code 4 × hi + k. -/
def xfmUnpack4 (hi : Bool) (a : Half) : Half :=
  BitVec.ofNat 32 (pack 8 ((List.range 4).map fun k => wrap 8 (e2m1Half (field a (4 * (k + if hi then 4 else 0)) 4))))

/-! ### Issue -/

/-- The xfm instructions that the pipe of the gang's core holds (R254). -/
def State.xfmHeld (s : State) : Nat :=
  sumNat ((s.allGangs.filter fun g => g.core == s.g.core).map fun g =>
    (g.pend.filter fun p => p.kind == .xfm).length)

/-- An XFM instruction issued: IFC_XF raised, its registers written when the pipe replies. -/
def State.xfm (s : State) (op : LaneOp) (f : LaneF) (res : Gang → List (List Half)) : Out :=
  s.lane op f (if 16 ≤ s.xfmHeld || 63 ≤ s.g.ifcOf .xf then .stall s
    else s.sound op f fun t =>
      let id := t.nextId
      let vals := res t.g
      let on := t.g.onMask f
      let writes := ((List.range vals.length).zip vals).flatMap fun x => t.g.writesAt (f.dst.toNat + x.1) on x.2
      let u := t.lanePend op f .xfm writes 0 none
      t.compared (.ok { u with g := u.g.raise .xf id } .fence))

def xfmFmt (f : LaneF) : BlockFmt := BlockFmt.ofCode (field f.md 0 2)

/-- XFM_TR (R254). -/
def execXfmTr (f : LaneF) (s : State) : Out := s.xfm .xfmTr f fun g => [xfmTrans (g.xfmSrc f f.sa)]

/-- XFM_Q (R254). -/
def execXfmQ (f : LaneF) (s : State) : Out := s.xfm .xfmQ f fun g => [xfmQuant (xfmFmt f) (g.xfmSrc f f.sa)]

/-- XFM_DQ (R254). -/
def execXfmDq (f : LaneF) (s : State) : Out :=
  s.xfm .xfmDq f fun g => [((g.xfmSrc f f.sa).zip (g.xfmSrc f f.sb)).map fun x => xfmDequant (xfmFmt f) x.1 x.2]

/-- XFM_X4 (R254). -/
def execXfmX4 (f : LaneF) (s : State) : Out :=
  s.xfm .xfmX4 f fun g => [(g.xfmSrc f f.sa).map (xfmUnpack4 (f.md.getLsbD 0))]

/-- XFM_ZC (R254, R255). -/
def execXfmZc (f : LaneF) (s : State) : Out :=
  s.xfm .xfmZc f fun g =>
    let r := woadPack (g.xfmBytes f)
    (List.range 4).map (xfmReg r.1) ++ [laneList.map fun _ => BitVec.ofNat 32 r.2]

/-- XFM_ZD (R254, R255): the count comes from the lowest on lane. -/
def execXfmZd (f : LaneF) (s : State) : Out :=
  s.xfm .xfmZd f fun g =>
    let low := (Mask.lanes (g.onMask f)).headD 0
    (List.range 4).map (xfmReg (woadUnpack (g.xfmBytes f) (field (g.src32 f f.sb low) 0 3)))

end Sys2Proof.Machine
end

