-- ==== Sys2Proof/Machine/Mtx.lean ====
section
/-! DEFINITION. Matrix work in banks: the format block (R300 to R303), the MTX family (R304 to R306, R316, R317), the
pass, fold, chain sum and outliers (R307 to R312), the drain (R314, R315) and the two events of an operation. -/

namespace Sys2Proof.Machine

open Sys2Proof

/-! ### Format block and descriptor -/

/-- The fields of a format block (R300). -/
structure FmtBlk where
  wfmt : Nat
  xfmt : Nat
  blog2 : Nat
  flags : Nat
  anchor : Int
  cols : Nat
  kbank : Nat
  dfmt : Nat
  tfmt : Nat
  xscale : Nat
  xsrc : Nat
  outl : Nat
  ddst : Nat
  tdst : Nat
  stage : Nat
  zero : Nat
deriving DecidableEq, Repr

def fmtBlk (bytes : List Byte) : FmtBlk :=
  let x := leNat bytes
  { wfmt := bytesAt x 0 1, xfmt := bytesAt x 1 1, blog2 := bytesAt x 2 1, flags := bytesAt x 3 1,
    anchor := toInt true 16 (bytesAt x 4 2), cols := bytesAt x 6 2, kbank := bytesAt x 8 2, dfmt := bytesAt x 0x0A 1,
    tfmt := bytesAt x 0x0B 1, xscale := bytesAt x 0x0C 4, xsrc := bytesAt x 0x10 8, outl := bytesAt x 0x18 8,
    ddst := bytesAt x 0x20 8, tdst := bytesAt x 0x28 8, stage := bytesAt x 0x30 8, zero := bytesAt x 0x38 8 }

def FmtBlk.flag (b : FmtBlk) (n : Nat) : Bool := b.flags.testBit n
def FmtBlk.stageBank (b : FmtBlk) : Nat := b.stage % 16
def FmtBlk.band (b : FmtBlk) : Nat := bits b.stage 34 8

/-- The fields of a matrix descriptor (R304). -/
structure MatDesc where
  h : Nat
  l : Nat
  v : Nat      -- VM1
deriving DecidableEq, Repr

def matDesc (x : Word) : MatDesc := { h := field x 0 4, l := field x 4 4 + 1, v := field x 8 5 }

/-! ### Ranges (R301, R302) -/

/-- A range of bytes through S or P. -/
structure Range where
  peer : Bool
  o : Nat
  n : Nat
deriving DecidableEq, Repr

/-- An address field (R301). -/
def addrRange (a d n : Nat) : Range := { peer := a.testBit 63, o := a % 2 ^ 27 + d, n := n }

def Range.seg (r : Range) : SegName := if r.peer then .p else .s

/-- Half bytes of an element of a format: two for MXINT8, one for E2M1. -/
def elemHalves (fmt : Nat) : Nat := if fmt == 0 then 2 else 1

def FmtBlk.passBytes (b : FmtBlk) : Nat := b.kbank * elemHalves b.xfmt / 2
def FmtBlk.blocks (b : FmtBlk) : Nat := b.kbank / 32

/-- Bytes of a drained row (R314) and of a transposed row (R315). -/
def rowBytes (fmt n : Nat) : Nat :=
  match fmt with
  | 0 => 4 * n
  | 1 => 2 * n
  | 2 => n + n / 16
  | _ => n / 2 + n / 16

def FmtBlk.rowLen (b : FmtBlk) : Nat := rowBytes b.dfmt b.cols
def FmtBlk.trLen (b : FmtBlk) : Nat := rowBytes b.tfmt 32

def FmtBlk.actRange (b : FmtBlk) (passes : Nat) : Range := addrRange b.xsrc 0 (passes * b.passBytes)

def FmtBlk.scaleRange (b : FmtBlk) (passes : Nat) : Range :=
  { peer := b.xsrc.testBit 63, o := b.xscale, n := 2 * passes * b.blocks }

def FmtBlk.outRange (b : FmtBlk) (passes : Nat) : Range := addrRange b.outl 0 (264 * passes)
def FmtBlk.bandRange (b : FmtBlk) : Range := { peer := false, o := b.band, n := 2 * ((b.cols + 63) / 64) }
def FmtBlk.drainRange (b : FmtBlk) (v n : Nat) : Range := addrRange b.ddst (v * b.rowLen) (n * b.rowLen)
def FmtBlk.trRange (b : FmtBlk) : Range := addrRange b.tdst 0 (b.cols * b.trLen)

/-- The ranges an instruction reads (R302, R305). -/
def FmtBlk.reads (b : FmtBlk) (kind : MxKind) (x : MatDesc) : List Range :=
  let passes := (x.v + 1) * x.l
  (if kind == .mtx then
    [b.actRange passes, b.scaleRange passes] ++ if b.flag 1 then [b.outRange passes] else []
   else []) ++ if b.wfmt == 2 then [b.bandRange] else []

/-- The drain and transposed ranges it writes (R305). -/
def FmtBlk.writes (b : FmtBlk) (kind : MxKind) (x : MatDesc) : List Range :=
  match kind with
  | .mtx =>
    if b.flag 2 then b.drainRange 0 (x.v + 1) :: if b.flag 3 then [b.trRange] else [] else []
  | .mdrain => b.drainRange x.v 1 :: if b.flag 3 && x.v == 31 then [b.trRange] else []
  | .mclr => []

/-- Whether the staging bank is named (R305). -/
def FmtBlk.stages (b : FmtBlk) (kind : MxKind) : Bool := kind != .mclr && b.flag 3

/-- A range cut where it passes from one bank's bytes to the next: (byte through the segment, bytes). -/
def cutBanks : Nat → Nat → Nat → List (Nat × Nat)
  | 0, _, _ => []
  | fuel + 1, e, n =>
    if n == 0 then []
    else
      let m := min n (32768 - e % 32768)
      (e, m) :: cutBanks fuel ((e + m) % 2 ^ 64) (n - m)

def Range.pieces (g : Gang) (r : Range) : List (Nat × Nat) :=
  cutBanks (r.n / 32768 + 2) (segVa (g.segs.get r.seg) r.o) r.n

/-- The bytes of a piece in a bank page, or the cause of R305 (items 6 and 7) that it raises. -/
def State.pieceSpan (s : State) (g : Gang) (peer : Bool) (e n : Nat) : Except Cause Span :=
  if peer then
    if decide (2 ^ 27 < e + n) || e / 2 ^ 19 % 2 == 1 then .error .seg
    else
      match s.crew g.ref.crew, s.physOf (coreCluster g.core) (e / 2 ^ 20) with
      | some c, some p =>
        match s.siteHolder c.kernel (coreCluster g.core * 128 + p) (e / 2 ^ 15 % 16) with
        | none => .error .prot
        | some x =>
          match s.page x.1 x.2 with
          | none => .error .prot
          | some pg =>
            if pg.comp then .error .bankmode
            else .ok { crew := x.1, page := x.2, first := e % 2 ^ 15, n := n }
      | _, _ => .error .seg
  else
    match s.kernelOf g.ref.crew with
    | none => .error .seg
    | some k =>
      if k.desc.scratch * 8192 < e + n then .error .seg
      else
        match s.page g.ref.crew (scratchHandle k.desc.banks e) with
        | none => .error .seg
        | some pg =>
          if pg.comp then .error .bankmode
          else .ok { crew := g.ref.crew, page := scratchHandle k.desc.banks e, first := scratchByte e, n := n }

/-- The order of items 6 and 7 of R305: PROT before BANKMODE. -/
def mxRank (c : Cause) : Nat := if c == .bankmode then 100 else c.rank

/-- The spans of a range, or the first cause in the order of R305. -/
def State.rangeSpans (s : State) (g : Gang) (r : Range) : Except Cause (List Span) :=
  if (g.segs.get r.seg).limit.toNat < r.o + r.n then .error .seg
  else
    (r.pieces g).foldr (fun x acc =>
      match s.pieceSpan g r.peer x.1 x.2, acc with
      | .error c, .error d => .error (if mxRank d < mxRank c then d else c)
      | .error c, .ok _ => .error c
      | .ok _, .error d => .error d
      | .ok a, .ok l => .ok (a :: l)) (.ok [])

/-- The spans of several ranges, or the first cause. -/
def State.allSpans (s : State) (g : Gang) : List Range → Except Cause (List Span)
  | [] => .ok []
  | r :: rest =>
    match s.rangeSpans g r, s.allSpans g rest with
    | .error c, .error d => .error (if mxRank d < mxRank c then d else c)
    | .error c, .ok _ => .error c
    | .ok _, .error d => .error d
    | .ok a, .ok l => .ok (a ++ l)

def wholeBank (crew h : Nat) : Span := { crew := crew, page := h, first := 0, n := 32768 }

/-- The spans that resolve, whatever the mode of their bank (R303: the overlap comes before item 6 of R305). An offset that
names no byte (R42) resolves to none. -/
def State.looseSpans (s : State) (g : Gang) (rs : List Range) : List Span :=
  rs.flatMap fun r =>
    (r.pieces g).filterMap fun x =>
      if r.peer then
        match s.crew g.ref.crew,
            (if decide (2 ^ 27 < x.1 + x.2) || x.1 / 2 ^ 19 % 2 == 1 then none
             else s.physOf (coreCluster g.core) (x.1 / 2 ^ 20)) with
        | some c, some p =>
          (s.siteHolder c.kernel (coreCluster g.core * 128 + p) (x.1 / 2 ^ 15 % 16)).map fun y =>
            { crew := y.1, page := y.2, first := x.1 % 2 ^ 15, n := x.2 }
        | _, _ => none
      else
        (s.kernelOf g.ref.crew).map fun k =>
          { crew := g.ref.crew, page := scratchHandle k.desc.banks x.1, first := scratchByte x.1, n := x.2 }

/-! ### The checks of R303 and R305 -/

/-- An address field with its alignment (R300, R301). -/
def addrBad (a align : Nat) : Bool := bits a 62 27 != 0 || a % 2 ^ 27 % align != 0

/-- The fields that break R300 or R303, by byte offset in table order. -/
def FmtBlk.failures (b : FmtBlk) (feature : Nat → Bool) (kind : MxKind) (x : MatDesc) (overlap : Bool) :
    List (Nat × Bool) :=
  let lacks (v : Nat) : Bool := (v == 1 && !feature 0) || (v == 2 && !feature 1)
  let f3 := b.flag 3
  [(0x00, decide (2 < b.wfmt) || lacks b.wfmt),
   (0x01, decide (2 < b.xfmt) || lacks b.xfmt),
   (0x02, b.blog2 != 5),
   (0x03, decide (15 < b.flags) || (b.flag 1 && !feature 12) || (f3 && !feature 13)
      || (f3 && kind == .mtx && (!b.flag 2 || x.v != 31))),
   (0x06, decide (b.cols < 32 ∨ 256 < b.cols) || b.cols % 32 != 0),
   (0x08, decide (b.kbank < 32 ∨ 128 < b.kbank) || b.kbank % 32 != 0),
   (0x0A, decide (3 < b.dfmt) || (b.dfmt == 3 && !feature 1)),
   (0x0B, decide (3 < b.tfmt) || (!f3 && b.tfmt != 0) || (b.tfmt == 3 && !feature 1)),
   (0x0C, b.xscale % 2 != 0),
   (0x10, addrBad b.xsrc 32),
   (0x18, addrBad b.outl 8 || (!b.flag 1 && b.outl != 0)),
   (0x20, addrBad b.ddst 128 || overlap),
   (0x28, addrBad b.tdst 128 || (!f3 && b.tdst != 0)),
   (0x30, (!f3 && b.stageBank != 0) || bits b.stage 7 4 != 0 || b.band % 2 != 0 || (b.wfmt != 2 && b.band != 0)
      || bits b.stage 63 35 != 0),
   (0x38, b.zero != 0)]

/-- OPND of a matrix descriptor (R304). -/
def matDescBad (kind : MxKind) (k : Word) : Bool :=
  field k 13 51 != 0 || (kind == .mclr && field k 8 5 != 0) || (kind == .mdrain && field k 4 4 != 0)

/-- The active source range of an mtx (R246). -/
def State.activeSpans (s : State) (g : Gang) (b : FmtBlk) (x : MatDesc) : List Span :=
  let passes := (x.v + 1) * x.l
  (List.range x.l).map (fun i => wholeBank g.ref.crew (x.h + i))
    ++ s.looseSpans g ([b.actRange passes, b.scaleRange passes] ++ if b.flag 1 then [b.outRange passes] else [])

/-- Whether the drain, transposed or staging range meets the mtx's own active source range (R303). -/
def State.mxOverlap (s : State) (g : Gang) (b : FmtBlk) (x : MatDesc) : Bool :=
  let out := s.looseSpans g (b.writes .mtx x) ++ if b.stages .mtx then [wholeBank g.ref.crew b.stageBank] else []
  out.any fun a => (s.activeSpans g b x).any fun y => a.meets y

/-- Items 3 and 4 of R305: the chain banks. -/
def State.chainCause (s : State) (crew : Nat) (x : MatDesc) : Option Cause :=
  let ps := (List.range x.l).map fun i => s.page crew (x.h + i)
  if ps.any fun p => p.isNone then some .seg
  else if ps.any fun p => match p with
      | some q => !q.comp
      | none => false then some .bankmode
  else none

/-- Items 5 to 7 of R305: the cause with its TRAP_INFO, or the spans of every range. -/
def State.rangesCheck (s : State) (b : FmtBlk) (kind : MxKind) (x : MatDesc) : Except (Cause × Nat) (List Span) :=
  match findBy (fun (y : Nat × Bool) => y.2)
      (b.failures s.hasFeature kind x (kind == .mtx && s.mxOverlap s.g b x)) with
  | some y => .error (.fmt, y.1)
  | none =>
    let staging := if b.stages kind then s.page s.g.ref.crew b.stageBank else none
    match s.allSpans s.g (b.reads kind x ++ b.writes kind x) with
    | .ok l =>
      if b.stages kind && staging.isNone then .error (.seg, 0)
      else
        match staging with
        | some p => if p.comp then .error (.bankmode, 0) else .ok l
        | none => .ok l
    | .error c =>
      if b.stages kind && staging.isNone then .error (.seg, 0) else .error (c, 0)

/-! ### Issue (R306) -/

/-- An mx operation added to every port it names, in one step. -/
def State.acceptMx (s : State) (kind : MxKind) (block : List Byte) (desc : Word) (banks : List Nat)
    (active spans : List Span) : State :=
  let r := s.fresh
  let op : MxOp := { id := r.1, gang := s.g.ref, kind := kind, block := block, desc := desc, banks := banks,
                     active := active, pages := spans.map fun a => (a.crew, a.page), started := false }
  banks.foldl (fun (s : State) h => s.sendBank h r.1 (.mx r.1))
    { r.2 with g := r.2.g.raise .mx r.1, mxs := r.2.mxs ++ [op] }

/-- Whether another instruction of the mx path can issue (R238). -/
def State.mxSpace (s : State) : Bool := decide (s.g.ifcOf .mx < 63)

/-- mtx and mdrain (R305, R306). -/
def State.mxInstr (s : State) (kind : MxKind) (a b : Reg) : Out :=
  (s.reading [a, b]
    (match s.check s.g .s 0 (s.getK a).toNat 64 false false with
     | (.notYet, _) => Act.stall s
     | (.fault c _, t) => .trap t c 0
     | (.ok ps _, t) =>
       let x := matDesc (t.getK b)
       if matDescBad kind (t.getK b) then .trap t .opnd 0
       else
         match t.chainCause t.g.ref.crew x, findBy (fun p => t.gangBad t.g.ref.crew t.g.core false p) ps with
         | some c, _ => .trap t c 0
         | none, some p => .trap (t.logConsumed false p) .ue 0
         | none, none =>
           let block := ps.map fun p => t.gangByte t.g.ref.crew t.g.core false p
           let blk := fmtBlk block
           match t.rangesCheck blk kind x with
           | .error f => .trap t f.1 (BitVec.ofNat 64 f.2)
           | .ok spans =>
             if !t.mxSpace then .stall t
             else
               t.compared
                 (let out := blk.writes kind x
                  let t := if out.any Range.peer then t.commitVersion t.g.ref.crew false else t
                  let banks := (List.range x.l).map (fun i => x.h + i)
                    ++ if blk.stages kind then [blk.stageBank] else []
                  let active := if kind == .mtx then t.activeSpans t.g blk x else []
                  .ok (t.acceptMx kind block (t.getK b) banks active spans).advance .fence))).scalar s

/-- MTX (R305, R306). -/
def execMtx (a b : Reg) (s : State) : Out := s.mxInstr .mtx a b

/-- MDRAIN (R305, R306, R316). -/
def execMdrain (a b : Reg) (s : State) : Out := s.mxInstr .mdrain a b

/-- MCLR (R305, R306, R317). -/
def execMclr (a : Reg) (s : State) : Out :=
  (s.reading [a]
    (let x := matDesc (s.getK a)
     if matDescBad .mclr (s.getK a) then Act.trap s .opnd 0
     else
       match s.chainCause s.g.ref.crew x with
       | some c => .trap s c 0
       | none =>
         if !s.mxSpace then .stall s
         else
           s.compared (.ok (s.acceptMx .mclr [] (s.getK a) ((List.range x.l).map fun i => x.h + i) [] []).advance
             .fence))).scalar s

/-! ### Reading operands -/

/-- The places of a range as the operation meets them when it runs. -/
def State.rangePlaces (s : State) (g : Gang) (r : Range) : List Place :=
  (s.looseSpans g [r]).flatMap fun a => bankRange a.crew a.page a.first a.n

def State.rangeBytes (s : State) (g : Gang) (r : Range) : List Byte := (s.rangePlaces g r).map s.placeByte

def State.rangeBad (s : State) (g : Gang) (r : Range) : Bool := (s.rangePlaces g r).any (s.placeBad true)

/-- Element codes of a pass from its bytes (R302, R132). -/
def elemCodes (fmt : Nat) (bytes : List Byte) : List Nat :=
  if fmt == 0 then bytes.map BitVec.toNat
  else bytes.flatMap fun b => [b.toNat % 16, b.toNat / 16]

/-- The activations of a pass: element codes and scale slots. -/
structure Pass where
  codes : List Nat
  scales : List (BitVec 9)
  bad : Bool
deriving DecidableEq, Repr

def State.passData (s : State) (g : Gang) (b : FmtBlk) (i : Nat) : Pass :=
  let act := addrRange b.xsrc (i * b.passBytes) b.passBytes
  let sc : Range := { peer := b.xsrc.testBit 63, o := b.xscale + 2 * i * b.blocks, n := 2 * b.blocks }
  let sb := s.rangeBytes g sc
  { codes := elemCodes b.xfmt (s.rangeBytes g act),
    scales := (List.range b.blocks).map fun j => BitVec.ofNat 9 (leNat ((sb.drop (2 * j)).take 2)),
    bad := s.rangeBad g act || s.rangeBad g sc }

/-! ### The pass and the fold (R307 to R309) -/

/-- The integer that slot t of a column represents under a weight format (R136). -/
def slotInt (fmt : Nat) (rows : List (BitVec 256)) (t c : Nat) : Int :=
  let x := elemAt c ((rows.drop (8 * t)).take 8)
  if fmt == 0 then toInt true 8 x
  else if x.testBit 4 then -((x % 16 : Nat) : Int) else ((x % 16 : Nat) : Int)

def sumInt (l : List Int) : Int := l.foldl (· + ·) 0

/-- BPj of a column after a pass (R308). -/
def blockSum (b : FmtBlk) (rows : List (BitVec 256)) (p : Pass) (c j : Nat) : Int :=
  sumInt ((List.range 32).map fun i =>
    slotInt b.wfmt rows (32 * j + i) c * elementInt (.ofCode b.xfmt) (p.codes.getD (32 * j + i) 0))

/-- An exact term p × 2^x converted to an anchor, ties to even (R139). -/
def atAnchor (p x a : Int) : Int := if a ≤ x then p * 2 ^ (x - a).toNat else shiftRound 0 p (a - x).toNat

def accMax : Int := 2 ^ 63 - 1

/-- An integer at the anchor entering ACC, clamped (R139). -/
def Col.accAdd (y : Col) (q : Int) : Col :=
  let sum := y.acc.toInt + q
  let bound (v : Int) : Col := { y with acc := BitVec.ofInt 64 (if v < 0 then -accMax else accMax), ovf := true }
  if q < -accMax ∨ accMax < q then bound q
  else if sum < -accMax ∨ accMax < sum then bound sum
  else { y with acc := BitVec.ofInt 64 sum }

/-- The fold of block j of a column (R309, R140). -/
def Col.fold (y : Col) (b : FmtBlk) (p : Pass) (bp : Int) (j : Nat) : Col :=
  match blockScale (.ofCode b.wfmt) (y.scale.getD j 0), blockScale (.ofCode b.xfmt) (p.scales.getD j 0) with
  | some (mw, ew), some (mx, ex) => y.accAdd (atAnchor (bp * mw * mx) (ew + ex - 10) b.anchor)
  | _, _ => { y with nan := true }

/-- One column after a pass and its fold. -/
def Col.pass (y : Col) (b : FmtBlk) (rows : List (BitVec 256)) (p : Pass) (c : Nat) (bad : Bool) : Col :=
  let bps := (List.range 4).map fun j => if j < b.blocks then blockSum b rows p c j else 0
  let y := { y with bp := bps.map fun v => BitVec.ofInt 22 v, poison := y.poison || bad }
  (List.range b.blocks).foldl (fun y j => y.fold b p (bps.getD j 0) j) y

/-- Whether a pass reads a poisoned weight row (R378): every plane of the slots below K. -/
def Page.weightBad (pg : Page) (b : FmtBlk) : Bool :=
  pg.poison.any fun r => decide (r < 8 * b.kbank) && (b.wfmt == 0 || r % 8 < 5)

/-- A pass and fold in a bank, for its columns below C. -/
def Page.runPass (pg : Page) (b : FmtBlk) (p : Pass) : Page :=
  let rows := pg.rows 0 (8 * b.kbank)
  let bad := p.bad || pg.weightBad b
  (List.range b.cols).foldl (fun q c => q.setCol c ((q.col c).pass b rows p c bad)) pg

/-! ### Chain sum, outliers, clears (R310, R311, R317) -/

/-- The ACC and flags of another chain bank's column added to the head's (R310). -/
def Col.chain (y z : Col) : Col :=
  let r := y.accAdd z.acc.toInt
  { r with ovf := r.ovf || z.ovf, nan := r.nan || z.nan, poison := r.poison || z.poison }

def State.chainSum (s : State) (crew : Nat) (b : FmtBlk) (x : MatDesc) : State :=
  (List.range (x.l - 1)).foldl (fun s i =>
    match s.page crew (x.h + i + 1) with
    | none => s
    | some q =>
      let s := s.updPage crew x.h fun p =>
        (List.range b.cols).foldl (fun p c => p.setCol c ((p.col c).chain (q.col c))) p
      s.updPage crew (x.h + i + 1) fun p =>
        (List.range b.cols).foldl (fun p c => p.setCol c { p.col c with acc := 0, poison := false }) p) s

/-- A binary32 value entering ACC (R139, R140). -/
def Col.addFloat (y : Col) (anchor : Int) (v : Num) : Col :=
  match v with
  | .fin neg m e => y.accAdd (atAnchor (if neg then -(m : Int) else m) e anchor)
  | _ => { y with nan := true }

/-- One outlier entry: column, k, value (R302, R311). -/
def Page.outlier (pg : Page) (b : FmtBlk) (p : Pass) (entry : List Byte) : Page :=
  let c := (entry.getD 0 0).toNat
  let k := (entry.getD 1 0).toNat
  let w := leNat ((entry.drop 2).take 2)
  if b.cols ≤ c || b.kbank ≤ k then pg
  else
    let xv := elementValue (.ofCode b.xfmt) (p.scales.getD (k / 32) 0) (p.codes.getD k 0)
    let xf := Fmt.f32.ofNum 0 false xv
    let pr := Fmt.f32.ofNum 0 false (Num.mul (Fmt.bf16.value w) (Fmt.f32.value xf))
    pg.setCol c ((pg.col c).addFloat b.anchor (Fmt.f32.value pr))

/-- Columns below n marked, as poisoned data marks them (R318). -/
def Page.markCols (pg : Page) (n : Nat) : Page :=
  (List.range n).foldl (fun p c => p.setCol c { p.col c with poison := true }) pg

/-- The outlier sublist of pass i applied to the head (R311). -/
def State.applyOutliers (s : State) (g : Gang) (b : FmtBlk) (x : MatDesc) (i : Nat) : State :=
  let r := addrRange b.outl (264 * i) 264
  let bytes := s.rangeBytes g r
  let p := s.passData g b i
  let n := min 32 (leNat (bytes.take 4))
  let s := if s.rangeBad g r then s.updPage g.ref.crew x.h fun pg => pg.markCols b.cols else s
  s.updPage g.ref.crew x.h fun pg =>
    (List.range n).foldl (fun pg e => pg.outlier b p ((bytes.drop (8 + 8 * e)).take 8)) pg

/-- The clear of auto-drain (R312). -/
def Page.clearCols (pg : Page) (n : Nat) : Page :=
  (List.range n).foldl (fun p c =>
    p.setCol c { p.col c with acc := 0, ovf := false, nan := false, poison := false }) pg

/-- mclr in one bank (R317). -/
def Page.mclr (pg : Page) : Page :=
  (List.range 256).foldl (fun p c =>
    p.setCol c { p.col c with acc := 0, bp := [0, 0, 0, 0], ovf := false, nan := false, poison := false }) pg

/-! ### The drain (R314, R315) -/

/-- The exact value that a column drains (R314). -/
def drainValue (b : FmtBlk) (y : Col) (band : Num) : Num :=
  if y.nan then .nan
  else
    let x : Num := .fin (decide (y.acc.toInt < 0)) y.acc.toInt.natAbs b.anchor
    let z := if b.wfmt == 2 then (match band with
        | .fin _ _ _ => Num.mul x band
        | _ => .nan) else x
    match z with
    | .fin s m e => if m == 0 then .fin false 0 0 else .fin s m e
    | v => v

/-- E2M1 codes packed two to a byte (R132). -/
def packCodes : List Nat → List Byte
  | a :: b :: rest => BitVec.ofNat 8 (a + 16 * b) :: packCodes rest
  | [a] => [BitVec.ofNat 8 a]
  | [] => []

/-- Lists of n elements cut from a list. -/
def chunks {α : Type} (n : Nat) : Nat → List α → List (List α)
  | 0, _ => []
  | k + 1, l => l.take n :: chunks n k (l.drop n)

/-- Values as the bytes of a row in a drain format: elements, then scale slots (R314, R315). -/
def drainBytes (fmt : Nat) (xs : List Num) : List Byte :=
  match fmt with
  | 0 => xs.flatMap fun x => leBytes 4 (Fmt.f32.ofNum 0 false x)
  | 1 => xs.flatMap fun x => leBytes 2 (Fmt.bf16.ofNum 0 false x)
  | _ =>
    let q := (chunks 32 (xs.length / 32) xs).map (quantise (if fmt == 2 then .mxint8 else .k4))
    let codes := q.flatMap fun r => r.2
    (if fmt == 2 then codes.map fun c => BitVec.ofNat 8 c else packCodes codes)
      ++ q.flatMap fun r => leBytes 2 r.1.toNat

/-- Bytes written on the mx path over a range, poisoned where the data is (R318, R376). -/
def State.mxWrite (s : State) (g : Gang) (r : Range) (bytes : List Byte) (bad : Bool) : State :=
  let ps := s.rangePlaces g r
  let s := s.writePlaces (ps.zip bytes)
  if bad then s.poisonPlaces ps else s

/-- The transposed copy, from the staging bank (R315). -/
def State.transpose (s : State) (g : Gang) (b : FmtBlk) : State :=
  match s.page g.ref.crew b.stageBank with
  | none => s
  | some st =>
    (List.range b.cols).foldl (fun (s : State) c =>
      let at_ (v : Nat) : Nat := 4 * (256 * v + c)
      let xs := (List.range 32).map fun v => Fmt.f32.value (leNat (st.cells.readBytes (at_ v) 4))
      let bad := (List.range 32).any fun v => st.poison.contains (at_ v / 32)
      s.mxWrite g (addrRange b.tdst (c * b.trLen) b.trLen) (drainBytes b.tfmt xs) bad) s

/-- The head's ACC drained as row v (R314 to R316). -/
def State.drainRow (s : State) (g : Gang) (b : FmtBlk) (h v : Nat) : State :=
  match s.page g.ref.crew h with
  | none => s
  | some pg =>
    let bands := s.rangeBytes g b.bandRange
    let band (c : Nat) : Num :=
      if b.wfmt == 2 then Fmt.bf16.value (leNat ((bands.drop (2 * (c / 64))).take 2)) else .fin false 1 0
    let cols := List.range b.cols
    let xs := cols.map fun c => drainValue b (pg.col c) (band c)
    let bad := (cols.any fun c => (pg.col c).poison) || (b.wfmt == 2 && s.rangeBad g b.bandRange)
    let s := s.mxWrite g (b.drainRange v 1) (drainBytes b.dfmt xs) bad
    if !b.flag 3 then s
    else
      let ps := bankRange g.ref.crew b.stageBank (1024 * v) (4 * b.cols)
      let s := s.writePlaces (ps.zip (drainBytes 0 xs))
      let s := if bad then s.poisonPlaces ps else s
      if v == 31 then s.transpose g b else s

/-! ### Running an operation -/

/-- One vector of an mtx (R307 to R312). -/
def State.runVector (s : State) (g : Gang) (b : FmtBlk) (x : MatDesc) (v : Nat) : State :=
  let s := (List.range x.l).foldl (fun (s : State) c =>
    let p := s.passData g b (v * x.l + c)
    s.updPage g.ref.crew (x.h + c) fun pg => pg.runPass b p) s
  let s := s.chainSum g.ref.crew b x
  let s := if b.flag 1 then
      (List.range x.l).foldl (fun (s : State) c => s.applyOutliers g b x (v * x.l + c)) s
    else s
  if b.flag 2 then (s.drainRow g b x.h v).updPage g.ref.crew x.h fun pg => pg.clearCols b.cols else s

/-- Whether an operation meets poisoned weights, activations, scales, outliers or band scales (R318, R378). -/
def State.mxBad (s : State) (g : Gang) (b : FmtBlk) (kind : MxKind) (x : MatDesc) : Bool :=
  (kind == .mtx && (List.range x.l).any fun i => (s.page g.ref.crew (x.h + i)).any fun p => p.weightBad b)
    || (b.reads kind x).any fun r => s.rangeBad g r

/-- The effects of an operation (R312, R316, R317), with an error record where it meets poisoned data (R384). -/
def State.runMx (s : State) (m : MxOp) : State :=
  match s.gang m.gang with
  | none => s
  | some g =>
    let x := matDesc m.desc
    let b := fmtBlk m.block
    let s := if m.kind != .mclr && s.mxBad g b m.kind x then s.onGang m.gang fun t => t.logUnit 4 else s
    match m.kind with
    | .mtx => (List.range (x.v + 1)).foldl (fun (s : State) v => s.runVector g b x v) s
    | .mdrain => s.drainRow g b x.h x.v
    | .mclr => (List.range x.l).foldl (fun (s : State) i => s.updPage g.ref.crew (x.h + i) Page.mclr) s

/-- Whether an operation is at the head of a port, and taken by a step where the bank is in step mode (R282,
R306). -/
def Page.headIs (p : Page) (id : Nat) : Bool :=
  match p.port.head? with
  | some o => o.act == .mx id && (p.owner.isNone || o.steps != 0)
  | none => false

/-- MX_START (R306): at the head of all its ports, every page of its ranges PINNED. -/
def execMxStart (id : Nat) (s : State) : Out :=
  .next
    (match findBy (fun (m : MxOp) => m.id == id) s.mxs with
     | none => s
     | some m =>
       let heads := m.banks.all fun h => match s.page m.gang.crew h with
         | some p => p.headIs id
         | none => false
       let pinned := m.pages.all fun x => match s.page x.1 x.2 with
         | some p => p.state == .pinned
         | none => true
       if heads && pinned && !m.started then
         { s with mxs := updBy (fun (m : MxOp) => m.id == id) (fun m => { m with started := true }) s.mxs }
       else s)

/-- MX_COMPLETE (R306, R313): its effects, its ports free, IFC_MX lowered, and the crews that waited for it. -/
def execMxComplete (id : Nat) (s : State) : Out :=
  .next
    (match findBy (fun (m : MxOp) => m.id == id && m.started) s.mxs with
     | none => s
     | some m =>
       let s := s.runMx m
       let s := m.banks.foldl (fun (s : State) h =>
         s.updPage m.gang.crew h fun p => { p with port := p.port.filter fun o => o.act != .mx id }) s
       let s := { s with mxs := dropBy (fun (m : MxOp) => m.id == id) s.mxs }
       let s := s.updGang m.gang fun g => g.lower .mx id
       (m.gang.crew :: m.pages.map Prod.fst).foldl (fun (s : State) c => s.settleCrew c) s)

end Sys2Proof.Machine
end

