-- ==== Sys2Proof/Machine/Launch.lean ====
section
/-! DEFINITION. Kernels: the launch record (R66), its checks (R67), the deal (R70, R75) and the core queues (R77), child
launches (R81) and the launch aggregator (R82, R83). -/

namespace Sys2Proof.Machine

open Sys2Proof

/-! ### The launch record (R66) -/

/-- The fields of a launch record from its 128 bytes. -/
def launchRec (bytes : List Byte) : LaunchRec :=
  let x := leNat bytes
  let flags := bytesAt x 0x2D 1
  { code := BitVec.ofNat 64 (bytesAt x 0 8), laneCode := BitVec.ofNat 64 (bytesAt x 8 8),
    param := BitVec.ofNat 64 (bytesAt x 0x10 8), completion := BitVec.ofNat 64 (bytesAt x 0x18 8),
    crews := bytesAt x 0x20 4, dieMask := bytesAt x 0x24 2, clusterMask := bytesAt x 0x26 1,
    stages := bytesAt x 0x27 1, gangs := bytesAt x 0x28 1, prologue := bytesAt x 0x29 1, full := bytesAt x 0x2A 1,
    scratch := bytesAt x 0x2B 1, banks := bytesAt x 0x2C 1, versioned := flags.testBit 0, mordant := flags.testBit 1,
    debug := flags.testBit 2, mergeable := flags.testBit 3, constBase := BitVec.ofNat 64 (bytesAt x 0x30 8),
    constLimit := bytesAt x 0x38 4, localBytes := bytesAt x 0x3C 4, localBase := BitVec.ofNat 64 (bytesAt x 0x40 8),
    stageMasks := (List.range 16).map fun i => bytesAt x (0x48 + i) 1 }

/-- The bytes of a record that must be zero. -/
def recordZeros (x : Nat) : Bool :=
  bytesAt x 0x2E 2 == 0 && bytesAt x 0x58 40 == 0 && bytesAt x 0x2D 1 / 16 == 0

/-- R66, but for the parameter block and the completion record, and the die mask within the context's (R67, check 2). -/
def LaunchRec.legal (d : LaunchRec) (ctxDies : Nat) : Bool :=
  let stages := (List.range 16).map fun i => d.stageMasks.getD i 0
  d.code &&& 3 == 0 && d.code != 0 && d.laneCode &&& 15 == 0 && d.laneCode != 0
    && decide (1 ≤ d.crews ∧ d.crews ≤ 2 ^ 20 ∧ 1 ≤ d.dieMask ∧ d.dieMask ≤ 255)
    && decide (1 ≤ d.clusterMask ∧ d.clusterMask ≤ 3 ∧ 1 ≤ d.stages ∧ d.stages ≤ 16 ∧ 1 ≤ d.gangs ∧ d.gangs ≤ 32)
    && decide (1 ≤ d.full ∧ d.full ≤ 64 ∧ 1 ≤ d.prologue ∧ d.prologue ≤ d.full ∧ d.gangs * d.full ≤ 256)
    && decide (d.scratch ≤ 64 ∧ d.banks + (d.scratch + 3) / 4 ≤ 16)
    && d.constBase.toNat % 4096 == 0 && d.constLimit % 4096 == 0 && decide (4096 ≤ d.constLimit)
    && d.localBytes % 4 == 0 && d.localBase.toNat % 128 == 0
    && (List.range 16).all (fun i =>
      let m := stages.getD i 0
      if i < d.stages then m != 0 && m &&& d.dieMask == m else m == 0)
    && stages.foldl (fun a m => a ||| m) 0 == d.dieMask && d.dieMask &&& ctxDies == d.dieMask

/-- The flags whose feature is not enabled (R41, R67 check 3). -/
def LaunchRec.lacks (d : LaunchRec) (feature : Nat → Bool) : Bool :=
  (d.versioned && !feature 3) || (d.mordant && !feature 4) || (d.debug && !feature 5) || (d.mergeable && !feature 6)

/-- The conditions that R380 adds for a Mordant launch (R67, check 4). -/
def LaunchRec.mordantOk (d : LaunchRec) : Bool :=
  !d.mordant || (decide (d.gangs ≤ 16 ∧ 2 * d.gangs * d.full ≤ 256) && !d.debug)

/-- The first check of R67 that a child fails, after its record has been read. -/
def State.checkChild (s : State) (asid : Nat) (raw : List Byte) (param completion : Word) : Option KStatus × State :=
  let d := launchRec raw
  match s.ctx asid with
  | none => (some .badrec, s)
  | some c =>
    if !(recordZeros (leNat raw) && d.legal c.dieMask && param &&& 7 == 0 && completion &&& 63 == 0) then
      (some .badrec, s)
    else if d.lacks (s.feature asid) then (some .feature, s)
    else if !d.mordantOk then (some .badrec, s)
    else if param == 0 then (none, s)
    else
      match s.resolve harbourAgent asid param.toNat .read with
      | (.ok _, s) => (none, s)
      | (.error _, s) => (some .xlat, s)

/-- The failure list that a completion record names when its kernel starts (R79); a read that fails gives none (log 75). -/
def State.failureList (s : State) (asid : Nat) (completion : Word) : Nat × State :=
  if completion == 0 || completion &&& 63 != 0 then (0, s)
  else
    match s.cpRead asid (completion.toNat + 0x18) 8 with
    | (.ok b, s) => (leNat b, s)
    | (.error _, s) => (0, s)

/-! ### The deal (R70, R75, R77) -/

/-- Stages before one whose mask holds a die (R75). -/
def LaunchRec.stagesBefore (d : LaunchRec) (stage die : Nat) : Nat :=
  ((List.range stage).filter fun st => (d.stageMasks.getD st 0) / 2 ^ die % 2 == 1).length

/-- The core of a deal rank (R75); none in a cluster with no enabled core. -/
def State.dealCore (s : State) (die cluster deal : Nat) : Option Nat :=
  let cl := 2 * die + cluster
  if s.coreCount cl == 0 then none else (s.physOf cl (deal % s.coreCount cl)).map fun p => cl * 128 + p

/-- The place of a crew in its core's queue (R77): priority, kernel start order, deal rank. -/
def State.crewKey (s : State) (id : Nat) : Nat :=
  match s.crew id, s.kernelOf id with
  | some c, some k => ((7 - c.prio % 8) * 2 ^ 128 + k.order) * 2 ^ 64 + c.dealRank
  | _, _ => 0

/-- A crew joins the queue of its core. -/
def State.enqueueCrew (s : State) (id : Nat) : State :=
  match s.crew id with
  | some c => s.updCore c.core fun x => { x with queue := insertBy s.crewKey id x.queue }
  | none => s

/-- A crew as its kernel starts. -/
def newCrew (id serial prio core : Nat) (d : LaunchRec) (p : Nat × Nat × Nat) (rank deal : Nat) : Crew :=
  { id := id, kernel := serial, stage := p.1, die := p.2.1, cluster := p.2.2, rank := rank, core := core,
    dealRank := deal, state := .waiting, prio := prio, started := 0, stopAt := 0, gangs := d.gangs, pages := [],
    barriers := [], cause := 0,
    version := { versioned := d.versioned, opened := d.versioned, commits := 0, held := [], bad := [], direct := [] },
    failAt := 0, drainAt := 0, swapped := false, begun := false, saveBad := none }

/-- The crews of a kernel in one cluster of one stage, but for those of failed children, queued at their cores. -/
def State.placeCluster (s : State) (k : Kernel) (failed : List Nat) (p : Nat × Nat × Nat) : State :=
  (List.range k.desc.crews).foldl (fun (s : State) rank =>
    if failed.contains (rank / k.each) then s
    else
      let deal := k.desc.stagesBefore p.1 p.2.1 * k.desc.crews + rank
      let core := s.dealCore p.2.1 p.2.2 deal
      let r := s.fresh
      let c := newCrew r.1 k.serial k.prio (core.getD ((2 * p.2.1 + p.2.2) * 128)) k.desc p rank deal
      let s := { r.2 with crews := r.2.crews ++ [c] }
      if core.isSome && k.state != .suspended then s.enqueueCrew r.1 else s) s

/-! ### Starting a grid -/

/-- The children of a grid checked one after another: each child, and its failure. -/
def State.checkChildren (s : State) (asid : Nat) (raw : List Byte) :
    List (Word × Word) → List (Child × Option KStatus) × State
  | [] => ([], s)
  | (param, completion) :: rest =>
    match s.failureList asid completion with
    | (fl, s) =>
      match s.checkChild asid raw param completion with
      | (st, s) =>
        match s.checkChildren asid raw rest with
        | (l, s) =>
          (({ param := param, completion := completion, completed := 0, deadLanes := 0, failList := fl,
              ended := 0, fails := [], reported := st.isSome }, st) :: l, s)

/-- The words of a context's code held in instruction caches dropped: a new kernel fetches the bytes that were visible
when it was launched (R230). -/
def State.dropCode (s : State) (asid : Nat) : State :=
  { s with cores := s.cores.map fun c => { c with code := c.code.filter fun w => w.asid != asid } }

/-- A grid starts (R80, R83): each child is checked by R67; one that fails reports and starts no crew; the crews of the
others are dealt to their cores. In a context that is not ACTIVE, a FAULTED one included, it starts SUSPENDED (log 74). -/
def State.startGrid (s : State) (serial asid prio recAddr : Nat) (raw : List Byte) (kids : List (Word × Word))
    (owner : Option Owner) : State :=
  let d := launchRec raw
  match s.checkChildren asid raw kids with
  | (l, s) =>
    let kids := l.map Prod.fst
    let failed := (List.range l.length).filter fun j => ((l[j]?).bind Prod.snd).isSome
    let active := s.ctxActive asid
    let r := (s.dropCode asid).fresh
    let k : Kernel :=
      { serial := serial, order := r.1, asid := asid, recAddr := recAddr,
        desc := { d with crews := d.crews * l.length }, each := d.crews, prio := prio,
        state := if active then .placing else .suspended, children := kids, owner := owner,
        unadmitted := 0, unended := 0, barriers := [] }
    let s := failed.foldl (fun (s : State) j =>
      match (l[j]?).bind Prod.snd with
      | some st => s.reportChild k j st
      | none => s) r.2
    if failed.length == l.length then s
    else
      let n := (l.length - failed.length) * k.desc.grid.length * k.each
      k.desc.grid.foldl (fun (s : State) p => s.placeCluster k failed p)
        { s with kernels := s.kernels ++ [{ k with unadmitted := n, unended := n }] }

/-! ### The aggregator (R82, R83) -/

/-- Whether two records are equal in every byte except +0x10 and +0x18 (R82). -/
def sameRecord (a b : List Byte) : Bool := a.take 0x10 == b.take 0x10 && a.drop 0x20 == b.drop 0x20

/-- Whether an aggregate still takes children: for 2,000 ns from its first arrival (R82). -/
def State.aggregateOpen (s : State) (a : Aggregate) : Bool := decide (s.cycle < a.opened + 2000)

def State.findAggregate (s : State) (asid prio : Nat) (raw : List Byte) : Option Aggregate :=
  findBy (fun a => s.aggregateOpen a && a.asid == asid && a.prio == prio && sameRecord a.raw raw) s.aggregates

/-- An aggregate closes and its grid starts (R82, R83). -/
def State.closeAggregate (s : State) (id : Nat) : State :=
  match findBy (fun (a : Aggregate) => a.id == id) s.aggregates with
  | none => s
  | some a =>
    State.startGrid { s with aggregates := dropBy (fun (a : Aggregate) => a.id == id) s.aggregates }
      a.serial a.asid a.prio a.recAddr a.raw a.children none

/-- A mergeable child (R82): its serial and index. -/
def State.mergeChild (s : State) (asid prio recAddr : Nat) (raw : List Byte) : Nat × Nat × State :=
  let d := launchRec raw
  let found := s.findAggregate asid prio raw
  -- a child that would make the merged record break R66 closes the open aggregate first
  let full := match found with
    | some a => decide (2 ^ 20 < d.crews * (a.children.length + 1))
    | none => false
  let s := match found with
    | some a => if full then s.closeAggregate a.id else s
    | none => s
  match (if full then none else found) with
  | some a =>
    let b := { a with children := a.children ++ [(d.param, d.completion)] }
    let s := { s with aggregates := updBy (fun (x : Aggregate) => x.id == a.id) (fun _ => b) s.aggregates }
    (a.serial, a.children.length, if b.children.length == 256 then s.closeAggregate a.id else s)
  | none =>
    let r := s.fresh
    let serial := s.kernelSerial + 1
    let a : Aggregate := { id := r.1, asid := asid, prio := prio, serial := serial, opened := s.cycle,
                           recAddr := recAddr, raw := raw, children := [(d.param, d.completion)] }
    (serial, 0, { r.2 with kernelSerial := serial, aggregates := r.2.aggregates ++ [a] })

/-- AGGREGATE_CLOSE (R82): the grid of an aggregate that closed 2,000 ns after its first arrival starts. -/
def execAggregateClose (id : Nat) (s : State) : Out :=
  .next
    (match findBy (fun (a : Aggregate) => a.id == id) s.aggregates with
     | some a => if s.aggregateOpen a then s else s.closeAggregate id
     | none => s)

/-! ### klaunch (R81) -/

/-- Children of a context that are started and not DONE (R81). -/
def State.childCount (s : State) (asid : Nat) : Nat :=
  sumNat ((s.aggregates.filter fun a => a.asid == asid).map fun a => a.children.length)
    + sumNat ((s.kernels.filter fun k => k.asid == asid && k.owner.isNone).map fun k =>
        (k.children.filter fun c => !c.reported).length)

/-- Whether a record goes to the aggregator (R82): one whose feature is off is checked by R67 on its own. -/
def State.merges (s : State) (asid : Nat) (raw : List Byte) : Bool := (launchRec raw).mergeable && s.feature asid 6

/-- children(ctx) < 4096 and aggregator_accepts(rec) (R81, R82). -/
def State.acceptsChild (s : State) (asid prio : Nat) (raw : List Byte) : Bool :=
  decide (s.childCount asid < 4096)
    && (!s.merges asid raw || (s.findAggregate asid prio raw).isSome
      || decide ((s.aggregates.filter s.aggregateOpen).length < 32))

/-- submit(rec, prio) of R81: serial and index. -/
def State.submitChild (s : State) (asid prio recAddr : Nat) (raw : List Byte) : Nat × Nat × State :=
  if s.merges asid raw then s.mergeChild asid prio recAddr raw
  else
    let serial := s.kernelSerial + 1
    let d := launchRec raw
    (serial, 0,
     State.startGrid { s with kernelSerial := serial } serial asid prio recAddr raw [(d.param, d.completion)] none)

/-- TRAP_INFO of a klaunch (R356): 0 for any cause but XLAT. -/
def Act.plainInfo : Act → Act
  | .trap s .xlat info => .trap s .xlat info
  | .trap s c _ => .trap s c 0
  | a => a

/-- A klaunch that has read its record (R81): it waits for room, then submits the child. -/
def State.launchChild (s : State) (d a : Reg) (raw : List Byte) : Act :=
  if !s.acceptsChild s.myAsid s.myPrio raw then .wait s (.children raw)
  else
    s.compared
      (let t := s.commitVersion s.g.ref.crew false
       let r := t.submitChild t.myAsid t.myPrio (segVa t.g.segs.g (t.getK a).toNat) raw
       .ok (r.2.2.setK d (word [(r.1 % 2 ^ 32, 0), (r.2.1, 32)])).advance .fence)

/-- KLAUNCH (R81, R367). -/
def execKlaunch (d a : Reg) (s : State) : Out :=
  (match s.g.wait with
   | some (.children raw) => s.launchChild d a raw
   | _ =>
     s.reading [a]
       (if s.g.ust != 0 then .wait s .stores
        else if s.getK a &&& 127 != 0 then .trap s .align 0
        else s.afterLanes false false fun keep =>
          Act.plainInfo (s.scalarRead .g (s.getK a).toNat 128 true keep fun t x =>
            t.launchChild d a (leBytes 128 x)))).scalar s

end Sys2Proof.Machine
end

