-- ==== Sys2Proof/Machine/Save.lean ====
section
/-! DEFINITION. The save area of a context (R364): where its slots lie, the chunks that a save writes with their KMAC128
tags, and the check of a restore (R38, R365). -/

namespace Sys2Proof.Machine

open Sys2Proof

/-! ### Slots -/

/-- Rank of a die in a context's die mask, and the number of dies in it. -/
def Ctx.dieRank (c : Ctx) (die : Nat) : Nat := popcount die c.dieMask
def Ctx.dies (c : Ctx) : Nat := popcount 8 c.dieMask

def mib : Nat := 2 ^ 20
def kib : Nat := 2 ^ 10

/-- First byte of the register slot of a core (R364). -/
def Ctx.regSlot (c : Ctx) (core : Nat) : Nat :=
  c.saveBase + c.dieRank (coreDie core) * (80 * mib) + 320 * kib * (core % 256)

/-- First byte of the page slot of a site, which is its page's backing address (R235, R364). -/
def Ctx.pageSlot (c : Ctx) (core site : Nat) : Nat :=
  c.saveBase + c.dies * (80 * mib) + c.dieRank (coreDie core) * (176 * mib) + 44 * kib * (16 * (core % 256) + site)

/-- First byte of the slot of a stack core (R364). -/
def Ctx.stackSlot (c : Ctx) (die core : Nat) : Nat :=
  c.saveBase + c.dies * (256 * mib) + c.dieRank die * (2112 * kib) + 132 * kib * core

/-- Whether a slot lies wholly in the save area (R364). -/
def Ctx.covers (c : Ctx) (slot n : Nat) : Bool := decide (slot + n ≤ c.saveBase + c.saveSize)

/-! ### Chunks and their tags -/

/-- n bytes written by the save engine whose content is not architectural (R364): free values (log 7). -/
def State.saveBytes (s : State) (pa n : Nat) : State :=
  s.writeHomeBytes pa ((List.range n).map fun j => (s.freeVal (pa + j)).setWidth 8)

/-- The tag of the 4 KiB chunk at a physical address, as its home holds it (R364). -/
def State.chunkTag (s : State) (key : BitVec 128) (pa : Nat) : Nat :=
  (Config.kmac128 key (leBytes 8 pa ++ s.homeBytes pa 4096)).toNat

/-- The 4 KiB chunks from `first` written, and their tags in the chunk at `tags`, that of the i-th at byte 16i (R364). -/
def State.saveChunks (s : State) (key : BitVec 128) (first n tags : Nat) : State :=
  let s := (s.saveBytes first (4096 * n)).saveBytes tags 4096
  s.writeHomeBytes tags ((List.range n).flatMap fun i => leBytes 16 (s.chunkTag key (first + 4096 * i)))

/-- Whether a chunk holds an uncorrectable error. -/
def State.chunkBad (s : State) (pa : Nat) : Bool := (sectors pa 4096).any s.homePoison

/-- The first chunk of a slot that a restore refuses (R38, R365): one that holds an uncorrectable error, the chunk of the
tags included, or one whose tag does not match. -/
def State.checkChunks (s : State) (key : BitVec 128) (first n tags : Nat) : Option SaveError :=
  match findBy s.chunkBad ((List.range n).map (fun i => first + 4096 * i) ++ [tags]) with
  | some pa => some (.ue pa)
  | none =>
    (findBy (fun i => s.homeVal (tags + 16 * i) 16 != s.chunkTag key (first + 4096 * i)) (List.range n)).map fun i =>
      .tag (first + 4096 * i)

/-- The register slot of a crew's core: chunks 0 to 78, and their tags in chunk 79 (R364). -/
def State.saveRegs (s : State) (x : Ctx) (core : Nat) : State :=
  s.saveChunks x.key (x.regSlot core) 79 (x.regSlot core + 79 * 4096)

def State.checkRegs (s : State) (x : Ctx) (core : Nat) : Option SaveError :=
  s.checkChunks x.key (x.regSlot core) 79 (x.regSlot core + 79 * 4096)

/-- The periphery chunks of the page slot at a backing address, behind its rows (R364). The first of them is chunk 0 of
their tags (log 81). -/
def State.savePeriphery (s : State) (x : Ctx) (backing : Nat) : State :=
  s.saveChunks x.key (backing + 32 * kib) 2 (backing + 40 * kib)

def State.checkPeriphery (s : State) (x : Ctx) (backing : Nat) : Option SaveError :=
  s.checkChunks x.key (backing + 32 * kib) 2 (backing + 40 * kib)

/-- The slot of a stack core: 32 chunks of local SRAM and their tags (R364). -/
def State.saveSram (s : State) (x : Ctx) (die core : Nat) : State :=
  s.saveChunks x.key (x.stackSlot die core) 32 (x.stackSlot die core + 128 * kib)

def State.checkSram (s : State) (x : Ctx) (die core : Nat) : Option SaveError :=
  s.checkChunks x.key (x.stackSlot die core) 32 (x.stackSlot die core + 128 * kib)

end Sys2Proof.Machine
end

