-- ==== Sys2Proof/Machine/Tasks.lean ====
section
/-! DEFINITION. Stack tasks: records and region lists (R329, R330), checks and dispatch (R332 to R335), the declared
regions of R271, the flag block (R331), bdsub (R177) and the events of a task and of its instances (R333 to R335,
R338). -/

namespace Sys2Proof.Machine

open Sys2Proof

/-! ### Finding tasks and instances -/

def State.task (s : State) (serial : Nat) : Option Task := findBy (fun t => t.serial == serial) s.tasks

def State.updTask (s : State) (serial : Nat) (f : Task → Task) : State :=
  { s with tasks := updBy (fun t => t.serial == serial) f s.tasks }

/-- Every instance, the one whose turn it is included. -/
def State.allInsts (s : State) : List Instance := if s.inst.state == .absent then s.insts else s.inst :: s.insts

/-- The instance of a task on a stack core. -/
def Instance.is (x : Instance) (task die core : Nat) : Bool := x.task == task && x.die == die && x.core == core

def State.instanceOf (s : State) (task die core : Nat) : Option Instance :=
  findBy (fun x => x.is task die core) s.allInsts

/-- The instance that runs on a stack core. -/
def State.runningOn (s : State) (die core : Nat) : Option Instance :=
  findBy (fun x => x.die == die && x.core == core && x.state == .running) s.allInsts

/-- Instances changed, wherever they stand. -/
def State.mapInsts (s : State) (f : Instance → Instance) : State :=
  { s with inst := if s.inst.state == .absent then s.inst else f s.inst, insts := s.insts.map f }

def State.updInst (s : State) (task die core : Nat) (f : Instance → Instance) : State :=
  s.mapInsts fun x => if x.is task die core then f x else x

/-- The instance that runs on a stack core made the one whose turn it is. -/
def State.bringInst (s : State) (die core : Nat) : State :=
  if s.inst.die == die && s.inst.core == core && s.inst.state == .running then s
  else
    match findBy (fun x => x.die == die && x.core == core && x.state == .running) s.insts with
    | none => s
    | some x =>
      { s with inst := x,
               insts := (if s.inst.state == .absent then [] else [s.inst])
                 ++ dropBy (fun x => x.die == die && x.core == core && x.state == .running) s.insts }

/-- The task of the instance whose turn it is. -/
def State.myTask (s : State) : Option Task := s.task s.inst.task

/-! ### Records and region lists (R329, R330) -/

def taskRec (bytes : List Byte) : TaskRec :=
  let x := leNat bytes
  { code := BitVec.ofNat 64 (bytesAt x 0 8), param := BitVec.ofNat 64 (bytesAt x 8 8),
    coreMask := BitVec.ofNat 16 (bytesAt x 0x10 2), stackMask := BitVec.ofNat 8 (bytesAt x 0x12 1),
    flagAdd := (bytesAt x 0x13 1).testBit 0, loc := (bytesAt x 0x13 1).testBit 1,
    inputs := BitVec.ofNat 64 (bytesAt x 0x18 8), outputs := BitVec.ofNat 64 (bytesAt x 0x20 8),
    flag := BitVec.ofNat 64 (bytesAt x 0x28 8), value := BitVec.ofNat 64 (bytesAt x 0x30 8) }

/-- R329 for a record of a context with a die mask. -/
def taskRecLegal (bytes : List Byte) (dies : Nat) : Bool :=
  let x := leNat bytes
  let r := taskRec bytes
  r.code &&& 7 == 0 && r.code != 0 && r.coreMask != 0 && r.stackMask != 0
    && r.stackMask.toNat &&& dies == r.stackMask.toNat && bytesAt x 0x13 1 / 4 == 0 && bytesAt x 0x14 4 == 0
    && r.inputs &&& 7 == 0 && r.outputs &&& 7 == 0 && r.flag &&& 15 == 0 && bytesAt x 0x38 8 == 0

/-- What reading a region list gives: its regions and whether it keeps R330, or the status of R332. -/
inductive ListRead where
  | ok (regions : List (Nat × Nat)) (legal : Bool)
  | xlat
  | ue
deriving DecidableEq, Repr

/-- A fault of a device read as its status (R332). -/
def readFault (c : Cause) : ListRead := if c == .ue then .ue else .xlat

/-- A region list read at its homes (R330, R332): its entries too before its fields are judged, since XLAT and UE come
before BADREC; a count above 64 names no entries. -/
def State.readList (s : State) (asid : Nat) (va : Word) : ListRead × State :=
  if va == 0 then (.ok [] true, s)
  else
    match s.cpRead asid va.toNat 8 with
    | (.error (c, _), s) => (readFault c, s)
    | (.ok h, s) =>
      let n := leNat (h.take 4)
      let zero := leNat (h.drop 4) == 0
      if 64 < n then (.ok [] false, s)
      else if n == 0 then (.ok [] zero, s)
      else
        match s.cpRead asid (va.toNat + 8) (16 * n) with
        | (.error (c, _), s) => (readFault c, s)
        | (.ok b, s) =>
          let l := (List.range n).map fun i => (leNat ((b.drop (16 * i)).take 8), leNat ((b.drop (16 * i + 8)).take 8))
          (.ok l (zero && l.all fun r => decide (1 ≤ r.2 ∧ r.2 ≤ 2 ^ 40)), s)

/-- Statuses of a stack task (R331). -/
inductive TStatus where
  | ok | failed | badrec | xlat | aborted | ue
deriving DecidableEq, Repr

def TStatus.code : TStatus → Nat
  | .ok => 0
  | .failed => 1
  | .badrec => 8
  | .xlat => 3
  | .aborted => 6
  | .ue => 7

/-- The checks of R332 after the record has been read: the regions, or the status. -/
def State.checkTask (s : State) (asid : Nat) (bytes : List Byte) :
    Except TStatus (List (Nat × Nat) × List (Nat × Nat)) × State :=
  let r := taskRec bytes
  match s.readList asid r.inputs with
  | (a, s) =>
    match s.readList asid r.outputs with
    | (b, s) =>
      let dies := match s.ctx asid with
        | some c => c.dieMask
        | none => 0
      if a == .xlat || b == .xlat then (.error .xlat, s)
      else
        match a, b with
        | .ok x p, .ok y q => if p && q && taskRecLegal bytes dies then (.ok (x, y), s) else (.error .badrec, s)
        | _, _ => (.error .ue, s)

/-! ### The flag and the end of a task (R331) -/

/-- The flag block written: bytes +0x08 to +0x0F, then the flag. None where it cannot be written. -/
def State.writeFlag (s : State) (t : Task) (st : TStatus) : Option State :=
  let va := t.desc.flag.toNat
  let body := leBytes 1 st.code ++ leBytes 1 (if st == .failed then t.cause else 0)
    ++ leBytes 2 (min 65535 t.failedCount) ++ leBytes 4 (t.first.getD 0xFFFFFFFF)
  match s.cpResolve t.asid va 16 .write with
  | (.error _, _) => none
  | (.ok pas, s) =>
    if t.desc.flagAdd && (pas.take 8).any s.homePoison then none
    else
      let s := s.writeHome ((pas.drop 8).zip body)
      let old := if t.desc.flagAdd then leNat ((pas.take 8).map s.homeByte) else 0
      some (s.writeHome ((pas.take 8).zip (leBytes 8 ((old + t.desc.value.toNat) % 2 ^ 64))))

/-- A task is DONE with a status: its flag, then its done block or IFC_BD (R331, R335). -/
def State.taskDone (s : State) (t : Task) (st : TStatus) : State :=
  let s := { s with tasks := dropBy (fun x => x.serial == t.serial) s.tasks,
                    insts := s.insts.filter fun x => x.task != t.serial,
                    inst := if s.inst.task == t.serial then Instance.empty else s.inst }
  let none_ := t.desc.flag == 0 || t.desc.flag &&& 15 != 0
  let w := if none_ then none else s.writeFlag t st
  let s := w.getD s
  match t.owner with
  | .command asid q index =>
    let code := if !none_ && w.isNone then TStatus.xlat.code else st.code
    s.completeCommand asid q index code t.cause
  | .gang g id => s.updGang g fun g => g.lower .bd id

/-! ### Submission (R332, R335) -/

/-- A task submitted with the bytes of its record: checked, and FLUSHING or DONE. -/
def State.submitTask (s : State) (asid prio : Nat) (bytes : List Byte) (owner : Owner) : Nat × State :=
  let serial := s.taskSerial + 1
  let r := taskRec bytes
  match State.checkTask { s with taskSerial := serial } asid bytes with
  | (res, s) =>
    let t : Task :=
      { serial := serial, asid := asid, desc := r, ins := [], outs := [], prio := prio, owner := owner,
        state := .flushing, before := .flushing,
        count := popcount 16 r.coreMask.toNat * popcount 8 r.stackMask.toNat, ended := 0, failedCount := 0,
        first := none, cause := 0, failAt := 0, inLines := [], kept := [] }
    match res with
    | .ok (ins, outs) => (serial, { s with tasks := s.tasks ++ [{ t with ins := ins, outs := outs }] })
    | .error st => (serial, s.taskDone t st)

/-- A bdsub that has read its record (R177): it waits for room, then submits the task. -/
def State.submitOwn (s : State) (d : Reg) (raw : List Byte) : Act :=
  if 63 ≤ s.g.ifcOf .bd then .wait s (.bdSpace raw)
  else
    s.compared
      (let r := (s.commitVersion s.g.ref.crew false).fresh
       let u := { r.2 with g := r.2.g.raise .bd r.1 }
       let q := u.submitTask u.myAsid u.myPrio raw (.gang u.g.ref r.1)
       .ok (q.2.setK d (BitVec.ofNat 64 (q.1 % 2 ^ 32))).advance .fence)

/-- BDSUB (R177, R367). -/
def execBdsub (d a : Reg) (s : State) : Out :=
  (match s.g.wait with
   | some (.bdSpace raw) => s.submitOwn d raw
   | _ =>
     s.needs 9 (s.reading [a]
       (if s.g.ust != 0 then .wait s .stores
        else if s.getK a &&& 63 != 0 then .trap s .align (s.getK a)
        else s.afterLanes false false fun keep =>
          s.scalarRead .g (s.getK a).toNat 64 true keep fun t x => t.submitOwn d (leBytes 64 x)))).scalar s

/-! ### Declared regions (R271) -/

/-- The lines of physical memory that hold bytes of a region, as far as the context's tables map it, a page at a time
from virtual address va. -/
def State.regionLines (s : State) (asid : Nat) : Nat → Nat → Nat → List (Nat × Nat)
  | 0, _, _ => []
  | fuel + 1, va, len =>
    if len == 0 then []
    else
      match s.walk harbourAgent asid va with
      | .ok (e, _) =>
        let n := min len (e.va + e.size - va)
        let pa := e.pa + (va - e.va)
        (pa / 128, (pa + n - 1) / 128) :: s.regionLines asid fuel (va + n) (len - n)
      | .error (_, level) =>
        let step := 4096 * 512 ^ (level - 1)
        let n := min len (step - va % step)
        s.regionLines asid fuel (va + n) (len - n)

/-- The lines that overlap one of a list of regions, as first and last. -/
def State.regionRanges (s : State) (asid : Nat) (regions : List (Nat × Nat)) : List (Nat × Nat) :=
  regions.flatMap fun r => s.regionLines asid (r.2 / 4096 + 2) r.1 r.2

/-- The listed L2 lines that overlap one of a list of regions. -/
def State.linesIn (s : State) (asid : Nat) (regions : List (Nat × Nat)) : List Nat :=
  let ranges := s.regionRanges asid regions
  (s.l2.map Line.num).filter fun n => ranges.any fun x => decide (x.1 ≤ n ∧ n ≤ x.2)

/-- Step 1 of R271: every dirty line written back; what the input lines hold then is what the task reads (step 2). -/
def State.flushRegions (s : State) (t : Task) : State :=
  ((s.linesIn t.asid (t.ins ++ t.outs)).foldl (fun s n => s.writeBack n) s).updTask t.serial fun x =>
    { x with inLines := s.regionRanges t.asid t.ins, kept := [] }

/-- Step 3 of R271. -/
def State.invalidateRegions (s : State) (t : Task) : State :=
  (s.linesIn t.asid t.outs).foldl (fun s n => s.dropLine n) s

/-! ### Instances -/

/-- The stack cores of a task in ascending order of 16s + n (R329). -/
def TaskRec.places (r : TaskRec) : List (Nat × Nat) :=
  ((List.range 128).filter fun i => r.stackMask.getLsbD (i / 16) && r.coreMask.getLsbD (i % 16)).map
    fun i => (i / 16, i % 16)

/-- The instances of a task placed in their queues (R333). -/
def State.queueInstances (s : State) (t : Task) : State :=
  let r := s.fresh
  let l := t.desc.places
  { r.2 with insts := r.2.insts ++ ((List.range l.length).zip l).map fun x =>
      { Instance.empty with task := t.serial, die := x.2.1, core := x.2.2, rank := x.1, prio := t.prio, order := r.1,
                            state := .queued, pc := t.desc.code } }

/-- STACK_FLUSH_DONE (R271 step 1, R335). -/
def execStackFlushDone (serial : Nat) (s : State) : Out :=
  .next
    (match s.task serial with
     | some t =>
       if t.state == .flushing then
         ((s.flushRegions t).queueInstances t).updTask serial fun t => { t with state := .running }
       else s
     | none => s)

/-- Whether an instance may have its core (R333): its context is ACTIVE. -/
def State.instEligible (s : State) (x : Instance) : Bool :=
  (x.state == .queued || x.state == .saved) &&
    (match s.task x.task with
     | some t =>
       t.state == .running && s.ctxActive t.asid
     | none => false)

/-- The first eligible instance of a core's queue (R333). -/
def State.nextInst (s : State) (die core : Nat) : Option Instance :=
  (sortBy (fun (x : Instance) => (7 - x.prio % 8) * 2 ^ 64 + x.order)
    (s.allInsts.filter fun x => x.die == die && x.core == core && s.instEligible x)).head?

/-- The status with which a task completes (R334). -/
def Task.status (t : Task) : TStatus := if t.failedCount == 0 then .ok else .failed

/-- Whether an instance of a task still runs on a core. -/
def State.stillRuns (s : State) (serial : Nat) : Bool := s.allInsts.any fun x => x.task == serial && x.state == .running

/-- A failing task none of whose instances runs any more finishes (R334, R335). -/
def State.settleTask (s : State) (serial : Nat) : State :=
  match s.task serial with
  | some t =>
    if t.state == .failing && !s.stillRuns serial then s.updTask serial fun t => { t with state := .finishing } else s
  | none => s

/-- What a trap leaves in its task (R331): the first instance that trapped, the lowest rank of one stack cycle, and its
cause. An instance that ends without a trap (`trapped` false) gives only the cause. -/
def Task.trapped (t : Task) (rank cause now : Nat) (trapped : Bool) : Task :=
  let fresh := t.state != .failing || (t.failAt == now && (t.first.any fun r => decide (rank < r)))
  let t := { t with state := .failing, failAt := if t.state == .failing then t.failAt else now,
                    failedCount := t.count - t.ended }
  if fresh then { t with first := if trapped then some rank else t.first, cause := cause } else t

/-- An instance of a task ends by a trap, or because it cannot be saved (R334, R364): the task is failing, its waiting and
saved instances are removed, and those that run on other cores end at their next instruction boundary. -/
def State.failTask (s : State) (serial rank cause : Nat) (trapped : Bool) : State :=
  match s.task serial with
  | none => s
  | some _ =>
    let now := s.stackCycle
    let s := s.mapInsts fun x =>
      if x.task == serial && (x.rank == rank || x.state != .running) then { x with state := .ended } else x
    (s.updTask serial fun t => t.trapped rank cause now trapped).settleTask serial

/-- The instances of a failing task that still run end (R334). -/
def State.endInstances (s : State) (serial : Nat) : State :=
  (s.mapInsts fun x => if x.task == serial then { x with state := .ended } else x).settleTask serial

/-- STACK_TASK_FINISH (R271 steps 3 and 4, R335): of a failing task, once the boundary of its other instances has come. -/
def execStackTaskFinish (serial : Nat) (s : State) : Out :=
  .next
    (match s.task serial with
     | some t =>
       if t.state == .finishing then (s.invalidateRegions t).taskDone t t.status
       else if t.state == .failing && decide (t.failAt < s.stackCycle) then
         let u := s.endInstances serial
         (u.invalidateRegions t).taskDone t t.status
       else s
     | none => s)

/-- A stack trap (R334): the instance whose turn it is ends and its task fails. -/
def State.stackTrap (s : State) (c : Cause) : State := s.failTask s.inst.task s.inst.rank c.code true

/-- Whether resuming a saved instance meets an uncorrectable error, or a tag that does not match (R338, R365): in the
core's save slot, or for a LOCAL task in the context's save area. -/
def State.resumeBad (s : State) (x : Instance) : Bool :=
  x.saveUe || (x.state == .saved &&
    (match s.task x.task with
     | some t =>
       t.desc.loc &&
         (match s.ctx t.asid with
          | some c => (s.checkSram c x.die x.core).isSome
          | none => false)
     | none => false))

/-- STACK_INSTANCE_START (R333, R338): a free core starts or resumes the first eligible instance of its queue. One
whose saved state cannot be read traps with UE. -/
def execStackInstanceStart (die core : Nat) (s : State) : Out :=
  .next
    (match s.runningOn die core, s.nextInst die core with
     | none, some x =>
       if s.resumeBad x then s.failTask x.task x.rank Cause.ue.code true
       else s.updInst x.task die core fun x => { x with state := .running, yielded := false }
     | _, _ => s)

/-- An instance saved (R338): its registers, mailboxes and local SRAM are in its record. -/
def Instance.save (x : Instance) : Instance := { x with state := .saved, yielded := false }

end Sys2Proof.Machine
end

