-- ==== Sys2Proof/Machine/Stack.lean ====
section
/-! DEFINITION. The stack cores' instructions (R336 to R351): registers, accesses to DRAM and local SRAM, the vector
unit, the bank accumulators, mailboxes, flags and special registers. -/

namespace Sys2Proof.Machine

open Sys2Proof

/-! ### Registers (R328) -/

/-- a[i]: a0 reads 0. -/
def State.getA (s : State) (i : Reg) : Word := if i == 0 then 0 else s.inst.a.getD i.toNat 0

/-- a[i] := x; a write to a0 is discarded. -/
def State.setA (s : State) (i : Reg) (x : Word) : State :=
  if i == 0 then s else { s with inst := { s.inst with a := s.inst.a.set i.toNat x } }

def State.getW (s : State) (i : WReg) : List Half := s.inst.w.getD i.toNat []

def State.setW (s : State) (i : WReg) (x : List Half) : State :=
  { s with inst := { s.inst with w := s.inst.w.set i.toNat x } }

def State.getBa (s : State) (i : WReg) : List Word := s.inst.ba.getD i.toNat []

def State.setBa (s : State) (i : WReg) (x : List Word) : State :=
  { s with inst := { s.inst with ba := s.inst.ba.set i.toNat x } }

def State.setInstPc (s : State) (pc : Word) : State := { s with inst := { s.inst with pc := pc } }

/-- pc advances by 8 (R336). -/
def State.stackNext (s : State) : State := s.setInstPc (s.inst.pc + 8)

/-- Lane i of a vector register, i from 0 to 15. -/
def stackLanes : List Nat := List.range 16

/-! ### What an instruction comes to -/

/-- A stack-core instruction completes, traps (R334) or waits with no effect (R348). -/
inductive SAct where
  | ok (s : State)
  | trap (s : State) (c : Cause)
  | wait (s : State)

def SAct.stack : SAct → Out
  | .ok s => .next s
  | .trap s c => .next (s.stackTrap c)
  | .wait s => .next s

/-- A result in an a register. -/
def State.stackResult (s : State) (d : Reg) (x : Word) : Out := (SAct.ok (s.setA d x).stackNext).stack

/-- Stack ILL where a field holds a value its entry does not list (R339, R336). -/
def State.stackLegal (s : State) (bad : Bool) (a : SAct) : Out := (if bad then SAct.trap s .ill else a).stack

/-! ### Scalar instructions (R340) -/

/-- SADD (R340). -/
def execSadd (d a b : Reg) (s : State) : Out := s.stackResult d (s.getA a + s.getA b)

/-- SSUB (R340). -/
def execSsub (d a b : Reg) (s : State) : Out := s.stackResult d (s.getA a - s.getA b)

/-- SAND (R340). -/
def execSand (d a b : Reg) (s : State) : Out := s.stackResult d (s.getA a &&& s.getA b)

/-- SOR (R340). -/
def execSor (d a b : Reg) (s : State) : Out := s.stackResult d (s.getA a ||| s.getA b)

/-- SXOR (R340). -/
def execSxor (d a b : Reg) (s : State) : Out := s.stackResult d (s.getA a ^^^ s.getA b)

/-- SSHL (R340). -/
def execSshl (d a b : Reg) (s : State) : Out := s.stackResult d (s.getA a <<< field (s.getA b) 0 6)

/-- SSHR (R340). -/
def execSshr (d a b : Reg) (s : State) : Out := s.stackResult d (s.getA a >>> field (s.getA b) 0 6)

/-- SSRA (R340). -/
def execSsra (d a b : Reg) (s : State) : Out := s.stackResult d ((s.getA a).sshiftRight (field (s.getA b) 0 6))

/-- SMUL (R340). -/
def execSmul (d a b : Reg) (s : State) : Out := s.stackResult d (s.getA a * s.getA b)

/-- SSLT (R340). -/
def execSslt (d a b : Reg) (s : State) : Out := s.stackResult d (if (s.getA a).slt (s.getA b) then 1 else 0)

/-- SSLTN (R340). -/
def execSsltn (d a b : Reg) (s : State) : Out := s.stackResult d (if (s.getA a).ult (s.getA b) then 1 else 0)

/-- SADDI (R340). -/
def execSaddi (d a : Reg) (imm : Half) (s : State) : Out := s.stackResult d (s.getA a + imm.signExtend 64)

/-- SLI (R340). -/
def execSli (d : Reg) (imm : Half) (s : State) : Out := s.stackResult d (imm.signExtend 64)

/-- SLHI (R340). -/
def execSlhi (d : Reg) (imm : Half) (s : State) : Out := s.stackResult d (imm ++ (s.getA d).setWidth 32)

/-! ### Accesses (R341, R343) -/

/-- Where an access of a stack core goes: physical memory, or its local SRAM. -/
inductive SPlace where
  | phys (pa : Nat)
  | sram (o : Nat)
deriving DecidableEq, Repr

/-- The translation agent of the base die of the instance (R47). -/
def State.stackAgent (s : State) : Nat := 8 + s.inst.die

def State.stackLocal (s : State) : Bool :=
  match s.myTask with
  | some t => t.desc.loc
  | none => false

def State.stackAsid (s : State) : Nat :=
  match s.myTask with
  | some t => t.asid
  | none => 0

/-- One access of n bytes at o checked (R341): its place, or its cause. -/
def State.stackCheck (s : State) (ls : Bool) (o : Word) (n : Nat) (write : Bool) : Except Cause SPlace × State :=
  if ls then
    (if !s.stackLocal || decide (131072 < o.toNat + n) then .error .seg
     else if o.toNat % n != 0 then .error .align
     else .ok (.sram o.toNat), s)
  else if 2 ^ 57 ≤ o.toNat then (.error .seg, s)
  else if o.toNat % n != 0 then (.error .align, s)
  else
    match s.resolve s.stackAgent s.stackAsid o.toNat (needOf write) with
    | (.ok (pa, _), s) => (.ok (.phys pa), s)
    | (.error (c, _), s) => (.error c, s)

/-- The cause that is raised first of two (R336). -/
def earlierCause (a b : Cause) : Cause := if b.rank < a.rank then b else a

/-- Several accesses checked before any performs (R343): their places, or the cause raised first. -/
def State.stackChecks (s : State) (ls : Bool) (n : Nat) (write : Bool) : List Word → Except Cause (List SPlace) × State
  | [] => (.ok [], s)
  | o :: rest =>
    match s.stackCheck ls o n write with
    | (p, s) =>
      match s.stackChecks ls n write rest with
      | (q, s) =>
        (match p, q with
         | .ok p, .ok q => .ok (p :: q)
         | .error c, .ok _ => .error c
         | .ok _, .error c => .error c
         | .error c, .error d => .error (earlierCause c d), s)

/-- Whether a DRAM sector's carried check value differs from that of its bytes (R377). -/
def State.dramCheckFails (s : State) (pa : Nat) : Bool :=
  match s.placeOf pa with
  | some p =>
    match findBy (fun c => c.1 == p / 32) s.checks with
    | some c => !inWindow pa && crc16 (s.dram.readBytes (p / 32 * 32) 32) != c.2.toNat
    | none => false
  | none => false

/-- Whether a load meets poisoned data (R378). -/
def State.stackBad (s : State) : SPlace → Bool
  | .phys pa => !inWindow pa && (s.dramPoison pa || s.dramCheckFails pa)
  | .sram o => s.inst.poison.contains (o / 32)

/-- The bytes of an access of n bytes: from DRAM, or from local SRAM. -/
def State.stackBytes (s : State) (n : Nat) : SPlace → List Byte
  | .phys pa => (List.range n).map fun i => s.stackByte (pa + i)
  | .sram o => s.inst.sram.readBytes o n

/-- Dirty lines that hold bytes of loads may have been written back before (log 6). -/
def State.stackTouch (s : State) (ps : List SPlace) : State :=
  ps.foldl (fun s p =>
    match p with
    | .phys pa => s.stackSettle pa
    | .sram _ => s) s

/-- Poisoned data consumed, in the error log (R384). -/
def State.logStack (s : State) (p : SPlace) : State :=
  match p with
  | .phys pa =>
    s.logError (if s.dramPoison pa then 2 else 3) 6 (8 + s.homeDie pa) s.stackAsid (pa / 32 * 32) 0xFFFFFFFF
  | .sram _ => s.logError 2 7 s.stackAgent s.stackAsid 0 0xFFFFFFFF

/-- Loads of n bytes each: UE where any meets poisoned data (R351). -/
def State.stackLoad (s : State) (ls : Bool) (n : Nat) (os : List Word) (k : State → List (List Byte) → SAct) : SAct :=
  match s.stackChecks ls n false os with
  | (.error c, s) => .trap s c
  | (.ok ps, s) =>
    let s := s.stackTouch ps
    match findBy (fun p => s.stackBad p) ps with
    | some p => .trap (s.logStack p) .ue
    | none => k s (ps.map (s.stackBytes n))

/-- DRAM sectors of a stack core's write before it performs (R376, R377). -/
def State.stackMarks (s : State) (pas : List Nat) : State :=
  (distinct (pas.map fun a => a / 32)).foldl (fun s sec =>
    match s.placeOf (sec * 32) with
    | none => s
    | some p =>
      if (distinct (pas.filter fun a => a / 32 == sec)).length == 32 then
        { s with poison := s.poison.filter fun x => x != p / 32, checks := s.checks.filter fun c => c.1 != p / 32 }
      else if s.dramCheckFails (sec * 32) then
        [3, 1].foldl (fun (t : State) kind => t.logError kind 6 (8 + s.homeDie (sec * 32)) s.stackAsid (sec * 32) 0xFFFFFFFF)
          { s with poison := addNat s.poison (p / 32), checks := s.checks.filter fun c => c.1 != p / 32 }
      else { s with checks := s.checks.filter fun c => c.1 != p / 32 }) s

def sramCells (l : List (SPlace × List Byte)) : List (Nat × Byte) :=
  l.flatMap fun x =>
    match x.1 with
    | .sram o => cellsFrom o x.2
    | .phys _ => []

def physStackCells (l : List (SPlace × List Byte)) : List (Nat × Byte) :=
  l.flatMap fun x =>
    match x.1 with
    | .phys pa => cellsFrom pa x.2
    | .sram _ => []

/-- Local SRAM sectors that a write covers whole lose their marks (R376). -/
def sramMarks (poison : List Nat) (os : List Nat) : List Nat :=
  poison.filter fun sec => (distinct (os.filter fun o => o / 32 == sec)).length != 32

/-- Stores of bytes at places, in order; one instruction's stores are one write (R337, R343). -/
def State.stackStore (s : State) (l : List (SPlace × List Byte)) : State :=
  let sram := sramCells l
  let phys := physStackCells l
  let s := if sram.isEmpty then s else
    { s with inst := { s.inst with sram := sram.foldl (fun m c => m.write c.1 c.2) s.inst.sram,
                                   poison := sramMarks s.inst.poison (sram.map (·.1)) } }
  if phys.isEmpty then s
  else ((if s.poison.isEmpty && s.checks.isEmpty then s else s.stackMarks (phys.map (·.1))).stackWrite phys)

/-- Bytes and signedness of an sld width (R341). -/
def sldBytes (w : BitVec 3) : Nat := 2 ^ (w.toNat / 2)

def sldExtend (w : BitVec 3) (x : Nat) : Word :=
  if w.toNat == 6 then BitVec.ofNat 64 x
  else BitVec.ofInt 64 (toInt (w.toNat % 2 == 1) (8 * sldBytes w) x)

/-- SLD (R341). -/
def execSld (d a : Reg) (w : BitVec 3) (ls : Bool) (imm : Half) (s : State) : Out :=
  s.stackLegal (w == 7)
    (s.stackLoad ls (sldBytes w) [s.getA a + imm.signExtend 64] fun t bs =>
      .ok (t.setA d (sldExtend w (leNat (bs.headD [])))).stackNext)

/-- SST (R341): d names the data. -/
def execSst (d a : Reg) (w : BitVec 2) (ls : Bool) (imm : Half) (s : State) : Out :=
  (let n := 2 ^ w.toNat
   match s.stackCheck ls (s.getA a + imm.signExtend 64) n true with
   | (.error c, t) => SAct.trap t c
   | (.ok p, t) => .ok (t.stackStore [(p, leBytes n (t.getA d).toNat)]).stackNext).stack

/-! ### Branches and jumps (R342) -/

/-- A conditional branch; an offset that is not a multiple of 8 is stack ILL. -/
def State.stackBranch (s : State) (take : Bool) (imm : Half) : Out :=
  s.stackLegal (field imm 0 3 != 0)
    (.ok (if take then s.setInstPc (s.inst.pc + imm.signExtend 64) else s.stackNext))

/-- SBEQ (R342). -/
def execSbeq (a b : Reg) (imm : Half) (s : State) : Out := s.stackBranch (s.getA a == s.getA b) imm

/-- SBNE (R342). -/
def execSbne (a b : Reg) (imm : Half) (s : State) : Out := s.stackBranch (s.getA a != s.getA b) imm

/-- SBLT (R342). -/
def execSblt (a b : Reg) (imm : Half) (s : State) : Out := s.stackBranch ((s.getA a).slt (s.getA b)) imm

/-- SBGE (R342). -/
def execSbge (a b : Reg) (imm : Half) (s : State) : Out := s.stackBranch (!(s.getA a).slt (s.getA b)) imm

/-- SJAL (R342). -/
def execSjal (d : Reg) (imm : Half) (s : State) : Out :=
  s.stackLegal (field imm 0 3 != 0)
    (.ok ((s.setA d (s.inst.pc + 8)).setInstPc (s.inst.pc + imm.signExtend 64)))

/-- SJR (R342). -/
def execSjr (d a : Reg) (imm : Half) (s : State) : Out :=
  (let t := s.getA a + imm.signExtend 64
   if field t 0 3 != 0 then SAct.trap s .align else .ok ((s.setA d (s.inst.pc + 8)).setInstPc t)).stack

/-! ### Vector accesses (R343) -/

/-- Lane offsets: o + 4i, or o + i × a[b]. -/
def vecOffsets (o step : Word) : List Word := stackLanes.map fun i => o + BitVec.ofNat 64 i * step

/-- A vector load. -/
def State.vecLoad (s : State) (d : WReg) (ls : Bool) (o step : Word) : Out :=
  (s.stackLoad ls 4 (vecOffsets o step) fun t bs =>
    .ok (t.setW d (bs.map fun b => BitVec.ofNat 32 (leNat b))).stackNext).stack

/-- A vector store; of lanes that write one byte the highest-numbered comes last. -/
def State.vecStore (s : State) (d : WReg) (ls : Bool) (o step : Word) : Out :=
  (match s.stackChecks ls 4 true (vecOffsets o step) with
   | (.error c, t) => SAct.trap t c
   | (.ok ps, t) => .ok (t.stackStore (ps.zip ((t.getW d).map fun (x : Half) => leBytes 4 x.toNat))).stackNext).stack

/-- VLD (R343). -/
def execVld (d : WReg) (a : Reg) (ls : Bool) (imm : Half) (s : State) : Out :=
  s.vecLoad d ls (s.getA a + imm.signExtend 64) 4

/-- VST (R343). -/
def execVst (d : WReg) (a : Reg) (ls : Bool) (imm : Half) (s : State) : Out :=
  s.vecStore d ls (s.getA a + imm.signExtend 64) 4

/-- VLDS (R343). -/
def execVlds (d : WReg) (a b : Reg) (ls : Bool) (imm : Half) (s : State) : Out :=
  s.vecLoad d ls (s.getA a + imm.signExtend 64) (s.getA b)

/-- VSTS (R343). -/
def execVsts (d : WReg) (a b : Reg) (ls : Bool) (imm : Half) (s : State) : Out :=
  s.vecStore d ls (s.getA a + imm.signExtend 64) (s.getA b)

/-- VSPLAT (R343). -/
def execVsplat (d : WReg) (a : Reg) (s : State) : Out :=
  (SAct.ok (s.setW d (List.replicate 16 ((s.getA a).setWidth 32))).stackNext).stack

/-! ### Vector arithmetic (R344) -/

/-- A two-operand vector operation, lane by lane. -/
def State.vecOp (s : State) (bad : Bool) (d a b : WReg) (f : Nat → Nat → Nat) : Out :=
  s.stackLegal bad
    (.ok (s.setW d (List.zipWith (fun x y => BitVec.ofNat 32 (f x.toNat y.toNat)) (s.getW a) (s.getW b))).stackNext)

/-- MOD values that R344 does not list. -/
def vecBad (s32 : Bool) (rnd : BitVec 3) (ftz : Bool) : Bool := decide (4 < rnd.toNat) || (s32 && (rnd != 0 || ftz))

/-- VADD (R344). -/
def execVadd (d a b : WReg) (s32 : Bool) (rnd : BitVec 3) (ftz : Bool) (s : State) : Out :=
  s.vecOp (vecBad s32 rnd ftz) d a b (if s32 then fun x y => x + y else Fmt.f32.add rnd.toNat false ftz)

/-- VSUB (R344). -/
def execVsub (d a b : WReg) (s32 : Bool) (rnd : BitVec 3) (ftz : Bool) (s : State) : Out :=
  s.vecOp (vecBad s32 rnd ftz) d a b (if s32 then fun x y => x + (2 ^ 32 - y) else Fmt.f32.sub rnd.toNat false ftz)

/-- VMUL (R344). -/
def execVmul (d a b : WReg) (s32 : Bool) (rnd : BitVec 3) (ftz : Bool) (s : State) : Out :=
  s.vecOp (vecBad s32 rnd ftz) d a b (if s32 then fun x y => x * y else Fmt.f32.mul rnd.toNat false ftz)

/-- VFMA (R344). -/
def execVfma (d a b : WReg) (rnd : BitVec 3) (ftz : Bool) (s : State) : Out :=
  s.stackLegal (vecBad false rnd ftz)
    (.ok (s.setW d (stackLanes.map fun i =>
      BitVec.ofNat 32 (Fmt.f32.fma rnd.toNat false ftz ((s.getW a).getD i 0).toNat ((s.getW b).getD i 0).toNat
        ((s.getW d).getD i 0).toNat))).stackNext)

/-- The smaller or the larger of two s32 values. -/
def minMax32 (isMax : Bool) (x y : Nat) : Nat := if (toInt true 32 x < toInt true 32 y) != isMax then x else y

/-- VMIN (R344). -/
def execVmin (d a b : WReg) (s32 ftz : Bool) (s : State) : Out :=
  s.vecOp (vecBad s32 0 ftz) d a b (if s32 then minMax32 false else Fmt.f32.minMax false ftz)

/-- VMAX (R344). -/
def execVmax (d a b : WReg) (s32 ftz : Bool) (s : State) : Out :=
  s.vecOp (vecBad s32 0 ftz) d a b (if s32 then minMax32 true else Fmt.f32.minMax true ftz)

/-! ### Conversions (R345) -/

/-- A 16-bit value put in a half of a lane. -/
def putHalf (hi : Bool) (old : Half) (x : Nat) : Half :=
  BitVec.ofNat 32 (if hi then x * 2 ^ 16 + old.toNat % 2 ^ 16 else old.toNat / 2 ^ 16 * 2 ^ 16 + x)

/-- vcvt of one lane by its code: a, and the lane's old value of the destination. -/
def vcvtLane (code : Nat) (m : Nat) (ftz : Bool) (a old : Half) : Half :=
  let half (f : Fmt) (hi : Bool) : Half :=
    BitVec.ofNat 32 (f.convert .f32 0 false ftz (element 16 (if hi then 1 else 0) a.toNat))
  match code with
  | 0 => BitVec.ofInt 32 ((Fmt.f32.value (Fmt.f32.flush ftz a.toNat)).toIntClamped m true 32)
  | 1 => BitVec.ofNat 32 (Fmt.f32.ofNum m false (Num.ofInt a.toInt))
  | 2 => half .bf16 false
  | 3 => half .bf16 true
  | 4 => putHalf false old (Fmt.f32.convert .bf16 m false ftz a.toNat)
  | 5 => putHalf true old (Fmt.f32.convert .bf16 m false ftz a.toNat)
  | 6 => half .f16 false
  | 7 => half .f16 true
  | 8 => putHalf false old (Fmt.f32.convert .f16 m false ftz a.toNat)
  | _ => putHalf true old (Fmt.f32.convert .f16 m false ftz a.toNat)

/-- VCVT (R345). -/
def execVcvt (d a : WReg) (code : BitVec 4) (rnd : BitVec 3) (ftz : Bool) (s : State) : Out :=
  s.stackLegal
    (decide (9 < code.toNat) || decide (4 < rnd.toNat)
      || ((code == 2 || code == 3 || code == 6 || code == 7) && rnd != 0))
    (.ok (s.setW d (List.zipWith (fun x old => vcvtLane code.toNat rnd.toNat ftz x old) (s.getW a) (s.getW d))).stackNext)

/-! ### Bank accumulators (R346) -/

/-- A lane's value added to an accumulator (R142). -/
def accAdd (acc : Word) (x : Num) : Word := extBits (extAdd (extValue acc) x)

/-- An accumulator register rebuilt lane by lane. -/
def State.accLanes (s : State) (d : WReg) (f : Nat → Word → Word) : Out :=
  (SAct.ok (s.setBa d (stackLanes.map fun i => f i ((s.getBa d).getD i 0))).stackNext).stack

/-- A lane of a w register, and an element of it as a value (R129). -/
def State.laneF32 (s : State) (a : WReg) (i : Nat) : Num := Fmt.f32.value ((s.getW a).getD i 0).toNat

def State.laneBf16 (s : State) (a : WReg) (i k : Nat) : Num := Fmt.bf16.value (element 16 k ((s.getW a).getD i 0).toNat)

/-- VBACC_F32 (R346). -/
def execVbaccF32 (d a : WReg) (s : State) : Out := s.accLanes d fun i acc => accAdd acc (s.laneF32 a i)

/-- VBACC_MUL_F32 (R346): the product rounded once to 40 bits. -/
def execVbaccMulF32 (d a b : WReg) (s : State) : Out :=
  s.accLanes d fun i acc => accAdd acc (extRound (Num.mul (s.laneF32 a i) (s.laneF32 b i)))

/-- VBACC_MUL_BF16 (R346): two exact products, each addition rounded. -/
def execVbaccMulBf16 (d a b : WReg) (s : State) : Out :=
  s.accLanes d fun i acc =>
    accAdd (accAdd acc (Num.mul (s.laneBf16 a i 0) (s.laneBf16 b i 0))) (Num.mul (s.laneBf16 a i 1) (s.laneBf16 b i 1))

/-- VBRD (R346). -/
def execVbrd (d a : WReg) (s : State) : Out := (SAct.ok (s.setW d ((s.getBa a).map extRead)).stackNext).stack

/-- VBCLR (R346). -/
def execVbclr (d : WReg) (s : State) : Out := (SAct.ok (s.setBa d (List.replicate 16 0)).stackNext).stack

/-- node(l, 2^n) of R219 over the lanes of an accumulator, every lane participating. -/
def accNode (ba : List Word) : Nat → Nat → Word
  | 0, l => ba.getD l 0
  | n + 1, l => accAdd (accNode ba n l) (extValue (accNode ba n (l + 2 ^ n)))

/-- VHSUM (R346). -/
def execVhsum (d : Reg) (a : WReg) (s : State) : Out :=
  s.stackResult d ((extRead (accNode (s.getBa a) 4 0)).setWidth 64)

/-! ### Mailboxes (R347, R348) -/

/-- The wake register of a mailbox (R347). -/
def Mailbox.wake (m : Mailbox) : Word :=
  word [(flag m.full, 31), (m.rcvd.toNat, 16), (m.sstack, 8), (m.score, 0)]

/-- Base die and mailbox number of a selector; none where another bit is set. -/
def selector (x : Word) : Option (Nat × Nat) :=
  if field x 6 2 != 0 || field x 11 53 != 0 then none else some (field x 8 3, field x 0 6)

def Instance.box (x : Instance) (i : Nat) : Mailbox := x.mail.getD i Mailbox.empty

/-- Message delivery (R348): the mailbox filled, whatever state the instance is in. -/
def Instance.deliver (x : Instance) (i : Nat) (msg : List Half) (die core : Nat) : Instance :=
  { x with mail := setNth x.mail i fun m => { m with full := true, msg := msg, sstack := die, score := core } }

/-- MSEND (R348). -/
def execMsend (a : Reg) (b : WReg) (s : State) : Out :=
  (match selector (s.getA a) with
   | none => SAct.trap s .seg
   | some (die, n) =>
     match s.instanceOf s.inst.task die (n / 4) with
     | none => .trap s .prot
     | some x =>
       if x.state == InstState.ended then .trap s .prot
       else if (x.box (n % 4)).full then .wait s
       else
         let die' := s.inst.die
         let core' := s.inst.core
         let msg := s.getW b
         .ok (s.updInst s.inst.task die (n / 4) fun x => x.deliver (n % 4) msg die' core').stackNext).stack

/-- A mailbox of the issuing core by its selector: SEG, or PROT for another core's (R348). -/
def State.ownBox (s : State) (x : Word) : Except Cause Nat :=
  match selector x with
  | none => .error .seg
  | some (die, n) => if die == s.inst.die && n / 4 == s.inst.core then .ok (n % 4) else .error .prot

/-- MRECV (R348). -/
def execMrecv (d : WReg) (a : Reg) (s : State) : Out :=
  (match s.ownBox (s.getA a) with
   | .error c => SAct.trap s c
   | .ok i =>
     let m := s.inst.box i
     if !m.full then .wait s
     else
       let s := { s with inst := { s.inst with mail := s.inst.mail.set i { m with full := false, rcvd := m.rcvd + 1 } } }
       .ok (s.setW d m.msg).stackNext).stack

/-- MWAIT (R348). -/
def execMwait (d a : Reg) (s : State) : Out :=
  (let x := s.getA a
   if field x 4 60 != 0 then SAct.trap s .seg
   else
     let full := (List.range 4).filter fun i => x.getLsbD i && (s.inst.box i).full
     if full.isEmpty && x != 0 then .wait s
     else .ok (s.setA d (BitVec.ofNat 64 (sumNat (full.map fun i => 2 ^ i)))).stackNext).stack

/-- MPOLL (R348). -/
def execMpoll (d a : Reg) (s : State) : Out :=
  (match s.ownBox (s.getA a) with
   | .error c => SAct.trap s c
   | .ok i => .ok (s.setA d (s.inst.box i).wake).stackNext).stack

/-! ### Control, flags and special registers (R349, R350) -/

/-- SFENCE (R337, R349): every earlier access of the instance has performed. -/
def execSfence (s : State) : Out := (SAct.ok s.stackNext).stack

/-- SFLAG (R349): at the line's L2 home. -/
def execSflag (a b : Reg) (add : Bool) (s : State) : Out :=
  (let x := s.getA b
   match s.stackCheck false (s.getA a) 8 true with
   | (.error c, t) => SAct.trap t c
   | (.ok (.sram _), t) => .trap t .seg
   | (.ok (.phys pa), t) =>
     if add && (t.badSector true pa 8).isSome then .trap (t.logStack (.phys pa)) .ue
     else
       .ok (t.writeHomeBytes pa (leBytes 8 ((if add then t.homeVal pa 8 + x.toNat else x.toNat) % 2 ^ 64))).stackNext).stack

/-- SHALT (R334, R349): the instance ends; the task completes with its last one. -/
def execShalt (s : State) : Out :=
  .next
    (State.settleTask (State.updTask { s with inst := { s.inst with state := InstState.ended } } s.inst.task fun t =>
      { t with ended := t.ended + 1, failedCount := if t.state == .failing then t.failedCount - 1 else t.failedCount,
               state := if t.ended + 1 == t.count then .finishing else t.state }) s.inst.task)

/-- SYIELD (R338, R349): it asks for a pre-emption where a waiting one of equal or higher priority is queued. -/
def execSyield (s : State) : Out :=
  let yields : Bool := match s.nextInst s.inst.die s.inst.core with
    | some y => decide (s.inst.prio ≤ y.prio)
    | none => false
  (SAct.ok (State.stackNext { s with inst := { s.inst with yielded := yields } })).stack

/-- The stack special register of a number (R350). -/
def State.readSc (s : State) (n : Nat) : Word :=
  match n with
  | 0x000 => BitVec.ofNat 64 s.inst.die
  | 0x001 => BitVec.ofNat 64 s.inst.core
  | 0x002 => BitVec.ofNat 64 s.inst.rank
  | 0x003 =>
    match s.myTask with
    | some t => BitVec.ofNat 64 t.count
    | none => 0
  | 0x004 =>
    match s.myTask with
    | some t => t.desc.param
    | none => 0
  | 0x005 => BitVec.ofNat 64 (4 * s.inst.core)
  | 0x010 => BitVec.ofNat 64 s.stackCycle
  | 0x011 => s.heartbeat
  | _ => s.inst.scratch

/-- SCSRR (R349, R350). -/
def execScsrr (d : Reg) (n : BitVec 12) (s : State) : Out :=
  s.stackLegal (!scsrListed n.toNat) (.ok (s.setA d (s.readSc n.toNat)).stackNext)

/-- SCSRW (R349, R350): SC_SCRATCH alone can be written. -/
def execScsrw (n : BitVec 12) (a : Reg) (s : State) : Out :=
  s.stackLegal (n != 0x020) (.ok (State.stackNext { s with inst := { s.inst with scratch := s.getA a } }))

end Sys2Proof.Machine
end

