-- ==== Sys2Proof/Machine/Crews.lean ====
section
/-! DEFINITION. Crews on their cores: admission and start (R75 to R78, R86, R234), grants and deadlock (R100 to R104),
pre-emption, save and restore (R235 to R237, R258, R359 to R365), and contexts that become FAULTED (R38, R39). -/

namespace Sys2Proof.Machine

open Sys2Proof

/-! ### What a core has free (R76, R236) -/

/-- Gang slots of a core that no gang or shadow holds, the crews of a list left out. -/
def State.slotTaken (s : State) (core : Nat) (out : List Nat) (slot : Nat) : Bool :=
  (s.residentGangs core).any fun g =>
    !out.contains g.ref.crew && (g.slot == slot || g.shadow.any fun x => x.slot == slot)

/-- The free slots of a scheduler, in ascending order. -/
def State.freeSlots (s : State) (core : Nat) (out taken : List Nat) (sched : Nat) : List Nat :=
  ((List.range 8).map fun i => 8 * sched + i).filter fun x => !taken.contains x && !s.slotTaken core out x

/-- Slots for n gangs one after another, and for their shadows (R76), with the last scheduler of the rotation. -/
def State.dealSlots (s : State) (core : Nat) (out : List Nat) (mordant : Bool) :
    Nat → Nat → List Nat → Option (List (Nat × Option Nat) × Nat)
  | 0, rot, _ => some ([], rot)
  | n + 1, rot, taken =>
    let need := if mordant then 2 else 1
    match findBy (fun k => decide (need ≤ (s.freeSlots core out taken k).length))
        ((List.range 4).map fun i => (rot + 1 + i) % 4) with
    | none => none
    | some k =>
      let l := s.freeSlots core out taken k
      let a := l.headD 0
      let b := if mordant then some (l.getD 1 0) else none
      match s.dealSlots core out mordant n k (a :: (b.toList ++ taken)) with
      | some (rest, r) => some ((a, b) :: rest, r)
      | none => none

/-- Units that go to the head of the grant queue, and to those behind it in turn, before they count towards admission
(R101), out of `free`; those of a racq are in the backlog already. -/
def State.grantFirst (s : State) : Nat → List Grant → Nat
  | _, [] => 0
  | free, x :: rest =>
    let n := match s.gang x.gang with
      | some g => g.cost x.n
      | none => 0
    if n ≤ free then (if x.racq then 0 else n) + s.grantFirst (free - n) rest else 0

/-- POOL_FREE minus the racq backlog and what the grant queue takes first, the crews of a list left out (R76, R101). -/
def State.unitsFree (s : State) (core : Nat) (out : List Nat) : Nat :=
  let used := sumNat (((s.residentGangs core).filter fun g => !out.contains g.ref.crew).map Gang.held)
  let waiting := (s.core core).grants.filter fun x => !out.contains x.gang.crew
  let backlog := sumNat ((waiting.filter (·.racq)).map fun x =>
    match s.gang x.gang with
    | some g => g.cost x.n
    | none => 0)
  256 - used - backlog - s.grantFirst (256 - used) waiting

/-- Whether a site of a core is free, the crews of a list left out (R234, R236). -/
def State.siteFreeBut (s : State) (core : Nat) (out : List Nat) (site : Nat) : Bool :=
  !(s.crews.any fun c => c.core == core && !out.contains c.id
      && c.pages.any fun p => p.site == site && p.state != .absent && p.state != .backed)

def LaunchRec.sites (d : LaunchRec) : Nat := d.banks + (d.scratch + 3) / 4

/-- Whether a crew passes R76, and R236 if it is saved, were the crews of a list released. -/
def State.passes (s : State) (c : Crew) (out : List Nat) : Bool :=
  match s.kernel c.kernel with
  | none => false
  | some k =>
    if c.state == .saved then
      (s.crewGangs c.id).all (fun g =>
        !s.slotTaken c.core out g.slot && g.shadow.all fun x => !s.slotTaken c.core out x.slot)
      && decide (sumNat ((s.crewGangs c.id).map Gang.held) ≤ s.unitsFree c.core out)
      && c.pages.all fun p => s.siteFreeBut c.core (c.id :: out) p.site
    else
      let units := k.desc.gangs * k.desc.prologue * (if k.desc.mordant then 2 else 1)
      (s.dealSlots c.core out k.desc.mordant k.desc.gangs (s.core c.core).rot []).isSome
      && decide (units ≤ s.unitsFree c.core out)
      && decide (k.desc.sites ≤ ((List.range 16).filter fun x => s.siteFreeBut c.core out x).length)

/-- Whether the distributor of a core's cluster may admit a crew now (R77: one per 4 cycles). -/
def State.distributorReady (s : State) (core : Nat) : Bool :=
  s.cores.all fun c => coreCluster c.id != coreCluster core || decide (c.admitAt ≤ s.cycle)

/-- The head of a core's queue. -/
def State.headOf (s : State) (core : Nat) : Option Crew := ((s.core core).queue.head?).bind s.crew

/-- Whether every page of a crew has a covered slot (R359, R364). -/
def State.pagesCovered (s : State) (c : Crew) : Bool :=
  match (s.kernel c.kernel).bind fun k => s.ctx k.asid with
  | some x => c.pages.all fun p => x.covers (x.pageSlot c.core p.site) (44 * kib)
  | none => false

/-! ### Admission and start (R76, R86, R234) -/

/-- Bits of a gang's slot number (R42). -/
def State.slotNumber (s : State) (core slot : Nat) : Nat := (coreCluster core * 128 + s.coreRank core) * 32 + slot

/-- The segments of a gang at its start (R42). -/
def State.startSegs (s : State) (d : LaunchRec) (core slot : Nat) : Segs :=
  { g := { base := 0, limit := 0x200000000000000 }, s := { base := 0, limit := BitVec.ofNat 64 (d.scratch * 8192) },
    p := { base := 0, limit := 0x8000000 }, c := { base := d.constBase, limit := BitVec.ofNat 64 d.constLimit },
    l := { base := d.localBase + BitVec.ofNat 64 (s.slotNumber core slot * 32 * d.localBytes),
           limit := BitVec.ofNat 64 d.localBytes } }

/-- A gang as its crew starts (R78, R86, R371); its units are given after. -/
def State.newGang (s : State) (d : LaunchRec) (vec : Word) (crew core idx : Nat) (slot : Nat × Option Nat) : Gang :=
  let segs := s.startSegs d core slot.1
  { Gang.empty with
    ref := { crew := crew, idx := idx }, core := core, slot := slot.1, status := .run, pc := d.code,
    segs := segs, lBase := segs.l.base, trapVec := vec &&& ~~~(3#64), dbgUndo := d.debug, dbgLaunch := d.debug,
    shadow := slot.2.map fun x => { slot := x, equal := false }, laneAge := s.cycle, scalarAge := s.cycle }

/-- The pages of a crew as it starts: compute banks, then storage banks, at the lowest free sites (R234). -/
def State.newPages (s : State) (x : Ctx) (d : LaunchRec) (core : Nat) : List Page :=
  let sites := ((List.range 16).filter fun p => s.siteFreeBut core [] p).take d.sites
  ((List.range sites.length).zip sites).map fun p => Page.fresh p.2 (decide (p.1 < d.banks)) (x.pageSlot core p.2)

/-- A crew leaves its core's queue; the distributor is busy for 4 cycles (R77). -/
def State.takeHead (s : State) (core rot : Nat) : State :=
  s.updCore core fun c => { c with queue := c.queue.drop 1, rot := rot, admitAt := s.cycle + 4 }

/-- A crew of a kernel counted admitted; the last one makes the kernel RUNNING (R80). -/
def State.countAdmitted (s : State) (serial : Nat) : State :=
  s.updKernel serial fun k =>
    { k with unadmitted := k.unadmitted - 1,
             state := if k.unadmitted ≤ 1 && k.state == .placing then .running else k.state }

/-- The shadow of a Mordant gang as its crew starts (R380): the state of its leader, in its own slot. -/
def Gang.startShadow (g : Gang) : Option Gang :=
  g.shadow.map fun x => { g with slot := x.slot, shadow := none, units := [] }

/-- A new crew takes its resources and is STARTING (R86). -/
def State.admitCrew (s : State) (c : Crew) (k : Kernel) (x : Ctx) (slots : List (Nat × Option Nat)) (rot : Nat) : State :=
  let pages := s.newPages x k.desc c.core
  let gangs := ((List.range slots.length).zip slots).map fun p => s.newGang k.desc x.trapVec c.id c.core p.1 p.2
  let s := (s.takeHead c.core rot).countAdmitted k.serial
  let s := { s with lastStart := s.lastStart + 1, gangs := gangs.foldl (fun l g => putAside g l) s.gangs }
  let s := s.updCrew c.id fun c =>
    { c with state := .starting, started := s.lastStart, pages := pages, barriers := crewBarriers k.desc.gangs }
  let s := gangs.foldl (fun (s : State) g => s.giveUnits g.ref k.desc.prologue) s
  { s with shadows := s.shadows ++ (s.crewGangs c.id).filterMap Gang.startShadow }

/-- CREW_ADMIT (R76, R77, R86). -/
def execCrewAdmit (core : Nat) (s : State) : Out :=
  .next
    (match s.headOf core with
     | none => s
     | some c =>
       match s.kernel c.kernel with
       | none => s
       | some k =>
         match s.ctx k.asid, s.dealSlots core [] k.desc.mordant k.desc.gangs (s.core core).rot [] with
         | some x, some (slots, rot) =>
           if c.state == .waiting && s.passes c [] && s.distributorReady core then s.admitCrew c k x slots rot else s
         | _, _ => s)

/-- A delivery held for a crew written into its pages (R250). -/
def State.writeBuffered (s : State) (c : Crew) (banks : Nat) (b : Buffered) : State :=
  let cells := ((List.range b.data.length).zip b.data).map fun x =>
    (Place.bank c.id (scratchHandle banks (b.dst + x.1)) (scratchByte (b.dst + x.1)), x.2)
  let s := s.writePlaces cells
  s.poisonPlaces (((cells.map (·.1)).zip (List.range cells.length)).filterMap fun (x : Place × Nat) =>
    if b.poison.contains (x.2 / 32) then some x.1 else none)

def Buffered.isFor (b : Buffered) (c : Crew) : Bool :=
  b.kernel == c.kernel && b.cluster == coreCluster c.core && b.stage == c.stage && b.rank == c.rank

/-- A STARTING crew runs (R86): buffered multicasts written and the acquire of R78, if it has not run before. -/
def State.wakeCrew (s : State) (id : Nat) : State :=
  match s.crew id with
  | none => s
  | some c =>
    if c.begun then s.updCrew id fun c => { c with state := .running }
    else
      let banks := match s.kernel c.kernel with
        | some k => k.desc.banks
        | none => 0
      let s := (s.multicast.filter fun b => b.isFor c).foldl (fun (s : State) b => s.writeBuffered c banks b) s
      let s := { s with multicast := s.multicast.filter fun b => !b.isFor c }
      (s.l1Flush c.core).updCrew id fun c => { c with state := .running, begun := true }

/-- CREW_WAKE_DONE (R78, R86, R250). -/
def execCrewWakeDone (id : Nat) (s : State) : Out :=
  .next
    (match s.crew id with
     | some c => if c.state == .starting then s.wakeCrew id else s
     | none => s)

/-! ### Grants and deadlock (R100 to R104) -/

/-- GRANT (R100, R101): the head of the grant queue, once POOL_FREE suffices. -/
def execGrant (core : Nat) (s : State) : Out :=
  .next
    (match (s.core core).grants.head? with
     | none => s
     | some x =>
       match s.gang x.gang with
       | none => s
       | some g =>
         if s.poolFree core < g.cost x.n then s
         else
           let s := s.updCore core fun c => { c with grants := c.grants.drop 1 }
           s.onGang x.gang fun t =>
             let u := t.giveUnits x.gang x.n
             let u := (u.setK x.kd (BitVec.ofNat 64 u.g.allot)).advance
             u.retire t false .write)

/-- The condition of R102 for a core. -/
def State.stuck (s : State) (core : Nat) : Bool :=
  let q := (s.core core).grants
  match q.head? with
  | none => false
  | some x =>
    (match s.gang x.gang with
     | some g => decide (s.poolFree core < g.cost x.n)
     | none => false)
    && (s.residentGangs core).all fun g =>
      (q.any fun y => y.gang == g.ref) || g.status == .ended
        || (g.status == .run && g.level == .u &&
            (match g.wait with
             | some (.barrier _ _) => true
             | some (.arrived _ _) => true
             | _ => false))

/-- Since when each core's condition of R102 has held. -/
def State.watch (s : State) : State :=
  if s.cores.all fun c => c.grants.isEmpty && c.stuckSince.isNone then s
  else
    { s with cores := s.cores.map fun c =>
        { c with stuckSince := if s.stuck c.id then some (c.stuckSince.getD s.cycle) else none } }

/-- DEADLOCK (R102): every gang of the queue takes the trap at its rgrow or racq, with no effect. -/
def execDeadlock (core : Nat) (s : State) : Out :=
  .next
    (match (s.core core).stuckSince with
     | none => s
     | some t =>
       if t + 1024 ≤ s.cycle && s.stuck core then
         (s.core core).grants.foldl (fun (s : State) x =>
           s.onGang x.gang fun u =>
             if u.g.wait == some .grant then u.takeTrap false .deadlock (BitVec.ofNat 64 x.n) else u)
           (s.updCore core fun c => { c with stuckSince := none })
       else s)

/-- REGBANK_POWER_GATE (R104). -/
def execRegbankPowerGate (core bank : Nat) (s : State) : Out :=
  .next
    (if bank < 16 && s.bankFree core bank == 16 && !(s.core core).gated.contains bank then
       s.updCore core fun c => { c with gated := insertBy id bank c.gated }
     else s)

/-! ### Pre-emption (R359 to R362) -/

/-- A gang stops issue as at a trap; its undo log is cleared (R353, R360). -/
def State.stopGang (s : State) (r : GangRef) : State :=
  s.onGang r fun t =>
    let u := t.stopStreams
    { u with g := { u.g with undo := [], stepOne := none } }

/-- A resident crew pre-empted (R359, R360): issue stops, step mode ends. What the shadows of a Mordant crew have still
to take from their queues they take before the swap (R382). -/
def State.preemptCrew (s : State) (id : Nat) : State :=
  match s.crew id with
  | none => s
  | some c =>
    let s := if c.state == .starting then s.wakeCrew id else s
    let s := (s.crewGangs id).foldl (fun (s : State) g => s.stopGang g.ref) s
    s.updCrew id fun c =>
      { c with state := .stopping, stopAt := s.cycle, drainAt := s.cycle + s.cp.drain, pages := c.pages.map Page.endStep }

/-- The lists of k elements of a list, in the order in which the list gives them. -/
def combos {α : Type} : List α → Nat → List (List α)
  | _, 0 => [[]]
  | [], _ + 1 => []
  | x :: xs, k + 1 => (combos xs k).map (fun l => x :: l) ++ combos xs (k + 1)

/-- The candidates of R359, in their order. -/
def State.candidates (s : State) (h : Crew) : List Nat :=
  let l := s.crews.filter fun c =>
    c.core == h.core && c.state == .running && decide (c.prio < h.prio)
      && !((s.crewGangs c.id).any fun g => g.status == .halted) && s.pagesCovered c
  (sortBy (fun c => c.prio * 2 ^ 64 + (2 ^ 64 - 1 - c.started)) l).map Crew.id

/-- Crews of a core that are on their way out already. -/
def State.leaving (s : State) (core : Nat) : List Nat :=
  (s.crews.filter fun c => c.core == core && (c.state == .stopping || c.state == .saved)).map Crew.id

/-- PREEMPT (R359): the first smallest set of candidates whose release lets the head of the queue pass. -/
def execPreempt (core : Nat) (s : State) : Out :=
  .next
    (match s.headOf core with
     | none => s
     | some h =>
       let out := (s.leaving core).filter fun x => x != h.id
       if s.passes h out then s
       else
         let cand := s.candidates h
         let sets := (List.range cand.length).flatMap fun k => combos cand (k + 1)
         match findBy (fun l => s.passes h (l ++ out)) sets with
         | some l => l.foldl State.preemptCrew s
         | none => s)

/-! ### Saving (R360 to R364) -/

/-- Gangs and units that a crew brings into the shadow bank (R362). -/
def State.shadowLoad (s : State) (id : Nat) : Nat × Nat :=
  let l := s.crewGangs id
  (sumNat (l.map fun g => if g.shadow.isSome then 2 else 1), sumNat (l.map Gang.held))

/-- Whether the shadow bank has room for a crew beside what it still holds (R362). -/
def State.shadowRoom (s : State) (core id : Nat) : Bool :=
  let held := id :: (s.core core).shadowBank
  decide (sumNat (held.map fun c => (s.shadowLoad c).1) ≤ 32)
    && decide (sumNat (held.map fun c => (s.shadowLoad c).2) ≤ 256)

/-- Whether a bank operation of the lane stream waits at a port (R296). -/
def BankOp.ofLanes (o : BankOp) : Bool :=
  match o.act with
  | .cpr _ _ _ _ _ _ => true
  | .cpw _ _ _ _ _ => true
  | _ => false

/-- Whether what the crew's lanes have issued is complete and written (R360), and the shadows of its gangs have consumed
their queues (R382). -/
def State.lanesQuiet (s : State) (c : Crew) : Bool :=
  ((s.crewGangs c.id).all fun g => g.pend.isEmpty && g.trail.isEmpty) && c.pages.all fun p => !(p.port.any BankOp.ofLanes)

/-- SHADOW_SWAP_DONE (R362): the crew is SAVED, its slots and units are free, and its pages unpin (R360). -/
def execShadowSwapDone (id : Nat) (s : State) : Out :=
  .next
    (match s.crew id with
     | none => s
     | some c =>
       if c.state == .stopping && decide (c.stopAt + 96 ≤ s.cycle) && s.lanesQuiet c && s.shadowRoom c.core id then
         let s := (s.updCore c.core fun x => { x with shadowBank := x.shadowBank ++ [id] }).updCrew id fun c =>
           { c with state := .saved, swapped := true }
         (if s.ctxActive (s.asidOf id) then s.enqueueCrew id else s).settleAll
       else s)

/-- A copy squashed (R258): what it had still to write is given up, and its place at the ports of banks. -/
def State.squash (s : State) (id : Nat) : State :=
  let mine (o : BankOp) : Bool :=
    match o.act with
    | .copy x _ => s.copies.any fun c => c.id == x && c.gang.crew == id
    | _ => false
  { s with
    copies := s.copies.map fun x =>
      if x.gang.crew == id then { x with squashed := true, work := none, lines := [], lost := [] } else x,
    crews := s.crews.map fun c => { c with pages := c.pages.map fun p => { p with port := p.port.filter fun o => !mine o } } }

/-- COPY_DRAIN_LIMIT (R258): copies that have not landed are squashed. -/
def execCopyDrainLimit (id : Nat) (s : State) : Out :=
  .next
    (match s.crew id with
     | none => s
     | some c =>
       if (c.state == .stopping || c.state == .saved) && decide (c.drainAt ≤ s.cycle) then
         (s.squash id).settleAll
       else s)

/-- A dirty line of a page written to its backing, its poison marks with it (R235, R376). -/
def State.backLine (s : State) (p : Page) (l : Nat) : State :=
  let s := s.writeHomeBytes (p.backing + 128 * l) (p.cells.readBytes (128 * l) 128)
  (p.poison.filter fun r => r / 4 == l).foldl (fun (s : State) r => s.markPoison (p.backing + 32 * r) true) s

/-- The lines of a page below `upTo` that are not written back yet, written to its backing in ascending order (R235). -/
def State.backLines (s : State) (id h upTo : Nat) : State :=
  match s.page id h with
  | none => s
  | some p =>
    let s := ((List.range 256).filter fun l => decide (p.moved ≤ l ∧ l < upTo) && p.dirty.contains l).foldl
      (fun (s : State) l => s.backLine p l) s
    s.updPage id h fun p => { p with moved := max p.moved (min upTo 256), dirty := p.dirty.filter fun l => decide (upTo ≤ l) }

/-- PAGE_WRITEBACK_DONE (R235): every dirty line is at its backing, and the periphery behind it (R364); the page is BACKED
and its site free. -/
def execPageWritebackDone (id h : Nat) (s : State) : Out :=
  .next
    (match s.page id h with
     | none => s
     | some p =>
       if p.state == .unpinning then
         let s := s.backLines id h 256
         let s := match s.ctx (s.asidOf id) with
           | some x => s.savePeriphery x p.backing
           | none => s
         s.updPage id h fun p => { p with state := .backed, cells := [], poison := [], dirty := [], moved := 0 }
       else s)

/-! ### Contexts that fault (R38, R39) -/

/-- CP state fields of the descriptor (R31): state and fault_cause. -/
def State.writeCtxState (s : State) (desc code : Nat) : State := s.writeHomeBytes (desc + 0x60) (leBytes 4 code)

def CtxState.code : CtxState → Nat
  | .created => 1
  | .active => 2
  | .quiescing => 3
  | .quiesced => 4
  | .faulted => 5

/-- A context put in a state, and the state field of its descriptor written (R31). -/
def State.setCtxState (s : State) (asid : Nat) (st : CtxState) : State :=
  match s.ctx asid with
  | some c => (s.updCtx asid fun c => { c with state := st }).writeCtxState c.desc st.code
  | none => s

/-- The crews of a context that have not ended, in the order in which a failure counts them (R79). -/
def State.liveCrews (s : State) (asid : Nat) : List Crew :=
  let l := s.crews.filter fun c => c.state != .failing && c.state != .done && s.asidOf c.id == asid
  sortBy (fun c =>
    match s.kernel c.kernel with
    | some k => (k.order * 2 ^ 16 + c.child k) * 2 ^ 64 + c.global k
    | none => 0) l

/-- What a fault record names (R39). -/
structure FaultInfo where
  kind : Nat
  cause : Cause
  address : Nat
  agents : Nat
  die : Nat
deriving DecidableEq, Repr

/-- The fault record (R39). -/
def State.faultRecord (s : State) (asid : Nat) (f : FaultInfo) (crews : List Crew) : List Byte :=
  let first := match crews.head? with
    | some c =>
      (match s.kernel c.kernel with
       | some k => (c.global k, k.recAddr)
       | none => (0xFFFFFFFF, 0))
    | none => (0xFFFFFFFF, 0)
  leBytes 1 f.kind ++ leBytes 1 f.cause.code ++ leBytes 2 asid ++ leBytes 4 crews.length ++ leBytes 8 f.address
    ++ leBytes 4 first.1 ++ leBytes 4 0 ++ leBytes 8 first.2 ++ leBytes 4 f.agents ++ leBytes 1 f.die ++ leBytes 3 0
    ++ leBytes 8 s.heartbeat.toNat ++ leBytes 16 0

/-- The command of the control port that a context was the subject of completes (R34). -/
def State.finishCommand (s : State) (code : Nat) : State := { s with cp := { s.cp with busy := false, code := code } }

/-- CONTEXT_FAULTED (R38, R39): the fault record, then fault_cause, then the state field; every crew of the context is
reported failed. A context already FAULTED writes nothing. -/
def State.faultCtx (s : State) (asid : Nat) (f : FaultInfo) : State :=
  match s.ctx asid with
  | none => s
  | some c =>
    if c.state == .faulted then s
    else
      let crews := s.liveCrews asid
      let s := s.writeHomeBytes c.faultRec (s.faultRecord asid f crews)
      let s := s.writeHomeBytes (c.desc + 0x64) (leBytes 4 f.cause.code)
      let s := crews.foldl (fun (s : State) x => s.failCrew x.id f.cause.code) (s.setCtxState asid .faulted)
      if c.state == .quiescing && !c.destroying then s.finishCommand 0 else s

/-- SAVE_ENGINE_WRITE (R362, R364): the register slot of the crew is written. An uncorrectable error faults a context
that is QUIESCING (R36), and otherwise, an ACTIVE context that is being destroyed included (log 79), stays in the saved
state. -/
def execSaveEngineWrite (id : Nat) (err : Option SaveError) (s : State) : Out :=
  .next
    (match s.crew id with
     | none => s
     | some c =>
       if !(s.core c.core).shadowBank.contains id then s
       else
         let asid := s.asidOf id
         let s := s.updCore c.core fun x => { x with shadowBank := x.shadowBank.filter fun y => y != id }
         match s.ctx asid with
         | none => s
         | some x =>
           let s := s.saveRegs x c.core
           match err with
           | some (.ue chunk) =>
             if x.state == .quiescing then
               s.faultCtx asid { kind := 0, cause := .ue, address := chunk, agents := 0, die := c.die }
             else s.updCrew id fun c => { c with saveBad := some chunk }
           | _ => s)

/-! ### Restoring (R236, R365) -/

/-- A restore that fails (R38). The fault record names the compute die of the crew as the place of the event (log 80). -/
def State.abortRestore (s : State) (c : Crew) (e : SaveError) : State :=
  match e with
  | .ue chunk => s.faultCtx (s.asidOf c.id) { kind := 1, cause := .ue, address := chunk, agents := 0, die := c.die }
  | .tag chunk => s.faultCtx (s.asidOf c.id) { kind := 2, cause := .prot, address := chunk, agents := 0, die := c.die }

/-- The bytes of a G side translated again, byte by byte, with the lines of MT 2 among them. -/
def State.replaceBytes (s : State) (die asid : Nat) (need : Need) :
    Nat → List Place → Except Cause (List Place × List Nat) × State
  | _, [] => (.ok ([], []), s)
  | va, _ :: rest =>
    match s.resolve die asid va need with
    | (.error (c, _), s) => (.error c, s)
    | (.ok (pa, mt), s) =>
      match s.replaceBytes die asid need (va + 1) rest with
      | (.ok (l, d), s) => (.ok (.phys pa :: l, if mt == 2 then addNat d (pa / 128) else d), s)
      | x => x

/-- One side of an item again: that of G translated, that of a page as it is. -/
def State.replaceSide (s : State) (die asid : Nat) (need : Need) (va : Nat) (ps : List Place) :
    Except Cause (List Place × List Nat) × State :=
  match ps.head? with
  | some (.phys _) => s.replaceBytes die asid need va ps
  | _ => (.ok (ps, []), s)

/-- Lane items with their G sides translated again, and the lines of MT 2 they write, or the first cause. -/
def State.replaceLanes (s : State) (die asid : Nat) :
    List ((Nat × List Place × List Place) × Nat) →
      Except Cause (List (Nat × List Place × List Place) × List Nat) × State
  | [] => (.ok ([], []), s)
  | ((i, a, b), va) :: rest =>
    match s.replaceSide die asid .read va a with
    | (.error c, s) => (.error c, s)
    | (.ok (a, _), s) =>
      match s.replaceSide die asid .write va b with
      | (.error c, s) => (.error c, s)
      | (.ok (b, d), s) =>
        match s.replaceLanes die asid rest with
        | (.ok (l, e), s) => (.ok ((i, a, b) :: l, d ++ e), s)
        | x => x

/-- The sources of a transposing copy translated again, or the first cause. -/
def State.replaceRuns (s : State) (die asid : Nat) :
    List ((Nat × List Place × Nat × Nat × BitVec 9) × Nat) →
      Except Cause (List (Nat × List Place × Nat × Nat × BitVec 9)) × State
  | [] => (.ok [], s)
  | ((h, a, tail), va) :: rest =>
    match s.replaceSide die asid .read va a with
    | (.error c, s) => (.error c, s)
    | (.ok (a, _), s) =>
      match s.replaceRuns die asid rest with
      | (.ok l, s) => (.ok ((h, a, tail) :: l), s)
      | x => x

/-- What a squashed copy does when it is issued again, from its lane operands (R258), and the lines of MT 2 it writes. -/
def State.replayAct (s : State) (die asid : Nat) : CopyAct → Except Cause (CopyAct × List Nat) × State
  | .lanes items vas size s2g bar =>
    match s.replaceLanes die asid (items.zip vas) with
    | (.ok (l, d), s) => (.ok (.lanes l vas size s2g bar, d), s)
    | (.error c, s) => (.error c, s)
  | .transpose items vas run e scale bar =>
    match s.replaceRuns die asid (items.zip vas) with
    | (.ok l, s) => (.ok (.transpose l vas run e scale bar, []), s)
    | (.error c, s) => (.error c, s)
  | .multicast src bytes dst bar stage all _ _ _ => (.ok (.multicast src bytes dst bar stage all all [] [], []), s)

/-- A squashed copy issued again (R258). One whose G side no longer translates fails its crew (log 21). -/
def State.replayCopy (s : State) (c : CopyOp) : State :=
  match s.crew c.gang.crew with
  | none => s
  | some x =>
    match s.replayAct (coreDie x.core) (s.asidOf x.id) c.act with
    | (.ok (act, direct), s) =>
      let used := match act with
        | .lanes _ vas size _ _ => if c.used.isEmpty then [] else s.usedPages (coreDie x.core) (s.asidOf x.id) vas size
        | .transpose _ vas run e2m1 _ _ =>
          if c.used.isEmpty then []
          else s.usedPages (coreDie x.core) (s.asidOf x.id) vas (if e2m1 then run / 2 else run)
        | .multicast _ _ _ _ _ _ _ _ _ => []
      s.updCopy c.id fun y =>
        { y with squashed := false, replayed := true, delivered := 0, dropped := 0, act := act, direct := direct, used := used }
    | (.error e, s) => s.failCrew x.id e.code

/-- Units of a restored gang taken back (R104). -/
def State.retakeUnits (s : State) (r : GangRef) : State :=
  match s.gang r with
  | none => s
  | some g =>
    let s := s.updGang r fun g => { g with units := [] }
    let u := takeUnits (g.cost g.allot) (s.bankFree g.core) (s.core g.core).gated
    (s.updGang r fun g => { g with units := u.1 }).updCore g.core fun c => { c with gated := u.2 }

/-- A saved crew taken back to its core, where it is STARTING (R86): its copies are issued first (R258, R365), and its
pages refill (R235). -/
def State.restoreCrew (s : State) (c : Crew) : State :=
  let s := s.takeHead c.core (s.core c.core).rot
  let s := { s with lastStart := s.lastStart + 1 }
  let s := (s.crewGangs c.id).foldl (fun (s : State) (g : Gang) => s.updGang g.ref fun g => { g with units := [] }) s
  let s := s.updCrew c.id fun c =>
    { c with state := .starting, swapped := false, started := s.lastStart,
             pages := c.pages.map fun (p : Page) => { p with state := .refilling, moved := 0 } }
  let s := (s.crewGangs c.id).foldl (fun (s : State) g => s.retakeUnits g.ref) s
  (s.copies.filter fun x => x.gang.crew == c.id && x.squashed).foldl State.replayCopy s

/-- What keeps a saved crew from being restored (R38, R365): an error met when it was saved, one that the engine meets
now, or one that its register slot holds. -/
def State.restoreBad (s : State) (c : Crew) (err : Option SaveError) : Option SaveError :=
  match c.saveBad, err, s.ctx (s.asidOf c.id) with
  | some chunk, _, _ => some (.ue chunk)
  | none, some e, _ => some e
  | none, none, some x => s.checkRegs x c.core
  | none, none, none => none

/-- CREW_RESTORE (R236, R365): every tag is checked before anything is installed. -/
def execCrewRestore (id : Nat) (err : Option SaveError) (s : State) : Out :=
  .next
    (match s.crew id with
     | none => s
     | some c =>
       if c.state == .saved && (s.core c.core).queue.head? == some id && !(s.core c.core).shadowBank.contains id
           && (c.pages.all fun p => p.state == .backed) && s.passes c [] && s.distributorReady c.core then
         match s.restoreBad c err with
         | some e => s.abortRestore c e
         | none => s.restoreCrew c
       else s)

/-- A line of a page read back from its backing (R235): its bytes, and its rows that arrive poisoned, one whose check value
does not match among them, which is logged (R376, R377). -/
def State.refillLine (s : State) (id h l : Nat) : State :=
  match s.page id h with
  | none => s
  | some p =>
    let pa := p.backing + 128 * l
    let rows := (List.range 4).filter fun i => s.homePoison (pa + 32 * i) || s.checkFails (pa + 32 * i)
    let s := (rows.filter fun i => !s.homePoison (pa + 32 * i)).foldl
      (fun (t : State) i => t.logSector 3 (pa + 32 * i) (t.asidOf id) 0xFFFFFFFF) s
    s.updPage id h fun p =>
      { p with cells := p.cells.writeBytes (128 * l) (s.homeBytes pa 128), poison := rows.foldl (fun q i => addNat q (4 * l + i)) p.poison,
               moved := l + 1 }

/-- The lines of a page below `upTo` that are not refilled yet, refilled in ascending order (R235). -/
def State.refillLines (s : State) (id h upTo : Nat) : State :=
  match s.page id h with
  | none => s
  | some p =>
    ((List.range (min upTo 256)).filter fun l => decide (p.moved ≤ l)).foldl (fun (s : State) l => s.refillLine id h l) s

/-- What the column periphery of a page meets as it is read back (R365). -/
def State.refillBad (s : State) (c : Crew) (p : Page) (err : Option SaveError) : Option SaveError :=
  match err, s.ctx (s.asidOf c.id) with
  | some e, _ => some e
  | none, some x => s.checkPeriphery x p.backing
  | none, none => none

/-- PAGE_REFILL_DONE (R235, R365): the page is PINNED again. -/
def execPageRefillDone (id h : Nat) (err : Option SaveError) (s : State) : Out :=
  .next
    (match s.crew id, s.page id h with
     | some c, some p =>
       if p.state != .refilling then s
       else
         match s.refillBad c p err with
         | some e => s.abortRestore c e
         | none => (s.refillLines id h 256).updPage id h fun p => { p with state := .pinned, moved := 0 }
     | _, _ => s)

/-- Lines of a page that is on its way to or from its backing are written back or refilled, some of them (R235, R237). -/
def State.moveLines (s : State) (id h n : Nat) : State :=
  match s.page id h with
  | none => s
  | some p =>
    match p.state with
    | .unpinning => s.backLines id h (p.moved + n)
    | .refilling => s.refillLines id h (p.moved + n)
    | _ => s

end Sys2Proof.Machine
end

