-- ==== Sys2Proof/Machine/Queues.lean ====
section
/-! DEFINITION. Queues and their commands (R51 to R65): doorbells, fetching, arbitration, the five commands and what
completes them. -/

namespace Sys2Proof.Machine

open Sys2Proof

/-! ### Fetching (R53 to R55, R65) -/

/-- Whether a queue fetches (R65). -/
def QueueState.fetches (q : QueueState) : Bool := q == .idle || q == .active || q == .blocked

/-- n bytes at a physical address as the command processor reads them; none where R65 makes the read fail. -/
def State.cpPhys (s : State) (pa n : Nat) : Option (List Byte) :=
  if (List.range n).all fun i => s.covered (pa + i) && !s.homePoison (pa + i) then some (s.homeBytes pa n) else none

/-- A read of the command processor that fails, in the error log where it met poisoned data (R378, R384). -/
def State.cpFail (s : State) (asid pa n : Nat) : State :=
  match findBy (fun a => s.homePoison a) (sectors pa n) with
  | some a => s.logSector 2 a asid 0xFFFFFFFF
  | none => s

/-- The ring slot of a command (R53). -/
def Queue.slot (q : Queue) (i : Nat) : Nat := q.ringBase + 64 * (i % 2 ^ q.ringLog2)

/-- The command at ridx as it is fetched (R54). -/
def Queue.newCmd (q : Queue) (b : List Byte) : Cmd :=
  { index := q.ridx, bytes := b, started := false, suspended := false, copied := 0, hurt := false }

/-- Commands fetched one after another, n of them, each with ridx written (R54); an unreadable one puts the queue in
ERROR (R65). -/
def State.fetchCommands (s : State) (asid n : Nat) : Nat → State
  | 0 => s
  | k + 1 =>
    match s.queue asid n with
    | none => s
    | some q =>
      match s.cpPhys (q.slot q.ridx) 64 with
      | none => (s.cpFail asid (q.slot q.ridx) 64).queueError asid n 4 q.ridx
      | some b =>
        let s := s.updQueue asid n fun q =>
          { q with ridx := q.ridx + 1,
                   cmds := q.cmds ++ [q.newCmd b] }
        State.fetchCommands (s.writeHomeBytes (s.queueEntry asid n + 0x18) (leBytes 8 (q.ridx + 1))) asid n k

/-- The write index of a queue read, and every command it covers fetched (R53, R54, R65). -/
def State.fetchQueue (s : State) (asid n : Nat) : State :=
  match s.queue asid n with
  | none => s
  | some q =>
    if !q.state.fetches then s
    else
      match s.cpPhys q.widxAddr 8 with
      | none => (s.cpFail asid q.widxAddr 8).queueError asid n 4 q.ridx
      | some b =>
        let w := leNat b
        if decide (w < q.ridx) || decide (q.ridx + 2 ^ q.ringLog2 < w) then s.queueError asid n 3 q.ridx
        else (s.fetchCommands asid n (w - q.ridx)).refreshQueue asid n

/-- A store of host U mode to a port faults in the host core (R33, R402); any other performs. -/
def State.hostPort (s : State) (lvl : HostLevel) (t : State) : State :=
  if lvl == .u then { s with reply := .fault } else t

/-- The write index of a queue read: a doorbell is answered by it only where it finds commands (R55). -/
def State.readIndex (s : State) (asid n : Nat) : State :=
  let before := match s.queue asid n with
    | some q => q.ridx
    | none => 0
  (s.fetchQueue asid n).updQueue asid n fun q => if q.ridx == before then q else { q with rung := false }

/-- The write of CPQ_DOORBELL (R55). -/
def State.doorbell (s : State) (value : Word) : State :=
  let asid := field value 16 12
  let n := field value 0 6
  match s.ctx asid with
  | some c =>
    if s.ctxActive asid && decide (n < c.queueCount) then
      (s.updQueue asid n fun q => { q with rung := true }).readIndex asid n
    else s
  | none => s

/-- DOORBELL (R55). -/
def execDoorbell (lvl : HostLevel) (value : Word) (s : State) : Out := .next (s.hostPort lvl (s.doorbell value))

/-- WIDX_POLL (R55): the write index read again, of an IDLE queue, or of one whose doorbell came before its write index. -/
def execWidxPoll (asid n : Nat) (s : State) : Out :=
  .next
    (match s.queue asid n with
     | some q => if s.ctxActive asid && (q.state == .idle || q.rung) then s.readIndex asid n else s
     | none => s)

/-! ### Commands (R56 to R58) -/

/-- Whether a list of bytes is all zero. -/
def zeros (b : List Byte) : Bool := b.all fun x => x == 0

/-- The body of a command keeps R57. -/
def Cmd.bodyOk (c : Cmd) : Bool :=
  let a := c.fieldAt 0x18 8
  match c.op with
  | 1 => a % 128 == 0 && zeros (c.bytes.drop 0x20)
  | 2 => decide (1 ≤ c.fieldAt 0x28 8 ∧ c.fieldAt 0x28 8 ≤ 2 ^ 40) && zeros (c.bytes.drop 0x30)
  | 3 => a % 64 == 0 && zeros (c.bytes.drop 0x20)
  | 4 => a % 8 == 0 && decide (c.fieldAt 0x28 1 ≤ 1) && zeros (c.bytes.drop 0x29)
  | 5 => a % 8 == 0 && decide (c.fieldAt 0x28 1 ≤ 1) && zeros (c.bytes.drop 0x29)
  | _ => false

/-- Whether a queue type accepts an op (R58). -/
def kindAccepts (kind op : Nat) : Bool := op == 4 || op == 5 || (decide (kind < 3) && op == kind + 1)

/-- Whether a command keeps R56 to R58. -/
def Cmd.legal (c : Cmd) (kind : Nat) : Bool :=
  decide (c.fieldAt 1 1 < 4) && c.fieldAt 2 2 == 0 && c.fieldAt 8 8 % 16 == 0 && c.bodyOk && kindAccepts kind c.op

/-! ### Arbitration (R60, R64) -/

/-- The command that a queue can start now (R60). -/
def Queue.startable (q : Queue) : Option Cmd :=
  if q.state.fetches then (findBy (fun (c : Cmd) => !c.started) q.cmds).filter q.canStart else none

/-- Every queue with a command that can start, as (priority, asid × 64 + queue) (R64). -/
def State.startables (s : State) : List (Nat × Nat) :=
  s.ctxs.flatMap fun c =>
    if s.ctxActive c.asid then
      (c.queues.filter fun q => q.startable.isSome).map fun q => (q.prio, c.asid * 64 + q.num)
    else []

/-- The queue whose command starts first (R64): the highest priority, and round robin among equals, which begins at the
lowest (asid, queue) and keeps its position priority by priority (log 76). -/
def State.arbitrate (s : State) : Option (Nat × Nat) :=
  let l := s.startables
  let top := (l.map Prod.fst).foldl max 0
  let l := sortBy (fun (x : Nat) => x) ((l.filter fun x => x.1 == top).map Prod.snd)
  let last := match findBy (fun (r : Nat × Nat) => r.1 == top) s.rr with
    | some r => r.2 + 1
    | none => 0
  match findBy (fun (x : Nat) => decide (last ≤ x)) l with
  | some x => some (top, x)
  | none => l.head?.map fun x => (top, x)

/-- The round robin's position after a start. -/
def State.turnTaken (s : State) (p : Nat × Nat) : State :=
  { s with rr := p :: s.rr.filter fun r => r.1 != p.1 }

/-! ### What each command does -/

/-- The status of a command whose record cannot be read (R58). -/
def recordFault (c : Cause) : Nat := if c == .ue then 7 else 3

/-- A started LAUNCH (R60, R67, R80). -/
def State.runLaunch (s : State) (asid n : Nat) (q : Queue) (c : Cmd) : State :=
  let va := c.fieldAt 0x18 8
  match s.cpRead asid va 128 with
  | (.error (e, _), s) => s.completeCommand asid n c.index (recordFault e) 0
  | (.ok raw, s) =>
    let serial := s.kernelSerial + 1
    let d := launchRec raw
    State.startGrid { s with kernelSerial := serial } serial asid q.prio va raw [(d.param, d.completion)]
      (some (.command asid n c.index))

/-- A started STACKTASK (R41, R332). -/
def State.runStackTask (s : State) (asid n : Nat) (q : Queue) (c : Cmd) : State :=
  if !s.feature asid 9 then s.completeCommand asid n c.index 4 0
  else
    match s.cpRead asid (c.fieldAt 0x18 8) 64 with
    | (.error (e, _), s) => s.completeCommand asid n c.index (recordFault e) 0
    | (.ok raw, s) => (s.submitTask asid q.prio raw (.command asid n c.index)).2

/-- One evaluation of a started WAIT (R62). -/
def State.evalWait (s : State) (asid n : Nat) (c : Cmd) : State :=
  match s.cpRead asid (c.fieldAt 0x18 8) 8 with
  | (.error (e, _), s) => s.completeCommand asid n c.index 1 e.code
  | (.ok b, s) =>
    let v := leNat b
    let t := c.fieldAt 0x20 8
    if (if c.fieldAt 0x28 1 == 0 then decide (t ≤ v) else v == t) then s.completeCommand asid n c.index 0 0
    else s.refreshQueue asid n

/-- A started SIGNAL (R63). -/
def State.runSignal (s : State) (asid n : Nat) (c : Cmd) : State :=
  let va := c.fieldAt 0x18 8
  let v := c.fieldAt 0x20 8
  match s.cpResolve asid va 8 .write with
  | (.error (e, _), s) => s.completeCommand asid n c.index 1 e.code
  | (.ok pas, s) =>
    if c.fieldAt 0x28 1 == 0 then (s.writeHome (pas.zip (leBytes 8 v))).completeCommand asid n c.index 0 0
    else
      match findBy (fun a => s.homePoison a) pas with
      | some a => (s.logSector 2 a asid 0xFFFFFFFF).completeCommand asid n c.index 1 Cause.ue.code
      | none =>
      let old := leNat (pas.map s.homeByte)
      (s.writeHome (pas.zip (leBytes 8 ((old + v) % 2 ^ 64)))).completeCommand asid n c.index 0 0

/-- The arbiter starts the command of a queue (R58, R60, R61, R64): one that breaks R56 to R58 completes BADCMD, one
that SKIPFAIL holds back completes SKIPPED, and any other runs. Nothing happens unless the arbiter's choice is that
queue and its command is of the kind named (`op`), or of none. -/
def State.startCommand (s : State) (asid n op : Nat) : State :=
  match s.queue asid n, s.arbitrate with
  | some q, some p =>
    match q.startable with
    | none => s
    | some c =>
      if p.2 != asid * 64 + n || (c.legal q.kind && c.op != op) then s
      else
        let s := s.turnTaken p
        if !c.legal q.kind then s.completeCommand asid n c.index 2 0
        else if c.skipFail && q.failed && op != 5 then s.completeCommand asid n c.index 5 0
        else
          let s := (s.updQueue asid n fun q =>
            { q with cmds := updBy (fun (x : Cmd) => x.index == c.index) (fun x => { x with started := true }) q.cmds }).refreshQueue
              asid n
          match op with
          | 1 => s.runLaunch asid n q c
          | 2 => s
          | 3 => s.runStackTask asid n q c
          | 4 => s.evalWait asid n c
          | _ => s.runSignal asid n c
  | _, _ => s

/-- LAUNCH (R60, R64, R67). -/
def execLaunch (asid n : Nat) (s : State) : Out := .next (s.startCommand asid n 1)

/-- COPY (R58, R60, R64): the copy starts; COPY_COMMAND_DONE moves its bytes. -/
def execCopy (asid n : Nat) (s : State) : Out := .next (s.startCommand asid n 2)

/-- STACKTASK (R60, R64, R332). -/
def execStacktask (asid n : Nat) (s : State) : Out := .next (s.startCommand asid n 3)

/-- WAIT (R60, R62, R64). -/
def execWait (asid n : Nat) (s : State) : Out := .next (s.startCommand asid n 4)

/-- SIGNAL (R60, R61, R63, R64). -/
def execSignal (asid n : Nat) (s : State) : Out := .next (s.startCommand asid n 5)

/-! ### What completes a command -/

/-- A started command of a queue, not complete, that its context lets run: in a queue that is in ERROR too (R65), but not
in a context that is FAULTED (log 77). -/
def State.startedCmd (s : State) (asid n index op : Nat) : Option Cmd :=
  match s.queue asid n with
  | none => none
  | some q =>
    if s.ctxActive asid && q.state != .halted then
      findBy (fun (c : Cmd) => c.index == index && c.started && !c.suspended && c.op == op) q.cmds
    else none

/-- WAIT_EVAL (R62). -/
def execWaitEval (asid n index : Nat) (s : State) : Out :=
  .next
    (match s.startedCmd asid n index 4 with
     | some c => s.evalWait asid n c
     | none => s)

/-- The check value that a sector carries, where it is not that of its bytes (R377). -/
def State.carriedCheck (s : State) (pa : Nat) : Option (BitVec 16) :=
  match s.placeOf pa with
  | some p => (findBy (fun (c : Nat × BitVec 16) => c.1 == p / 32) s.checks).map Prod.snd
  | none => none

/-- A whole sector that a copy has moved takes the check value with it (R377). -/
def State.carryCheck (s : State) (dst : Nat) (v : Option (BitVec 16)) : State :=
  match v, s.placeOf dst with
  | some v, some p => { s with checks := (p / 32, v) :: s.checks.filter fun (c : Nat × BitVec 16) => c.1 != p / 32 }
  | _, _ => s

/-- n bytes moved from one physical address to another, neither range crossing a page, with the poison of its sectors and
the check values of those moved whole (R376, R377); the poison met is logged. A sector moved in part has its check value
tested, and is poisoned where that fails. -/
def State.movePiece (s : State) (asid pa pb n : Nat) : Bool × State :=
  let whole := if pa % 32 == pb % 32 then (sectors pa n).filter fun a => decide (pa ≤ a ∧ a + 32 ≤ pa + n) else []
  let bad := (List.range n).filter fun i =>
    s.homePoison (pa + i) || (!whole.contains ((pa + i) / 32 * 32) && s.checkFails (pa + i))
  let carried := whole.map fun a => (a, s.carriedCheck a)
  let s := match bad.head? with
    | some i => s.logSector (if s.homePoison (pa + i) then 2 else 3) (pa + i) asid 0xFFFFFFFF
    | none => s
  let s := s.writeHomeBytes pb (s.homeBytes pa n)
  let s := carried.foldl (fun (s : State) x => s.carryCheck (pb + (x.1 - pa)) x.2) s
  (!bad.isEmpty, bad.foldl (fun (s : State) i => s.markPoison (pb + i) true) s)

/-- At most `len` bytes of a COPY from source src to destination dst, a piece at a time so that no piece crosses a 4 KiB
boundary of either, in ascending order, each as it is read (R58, R59, R383): the first fault, the bytes moved, and whether a
destination sector was written poisoned. -/
def State.copyBytes (s : State) (asid : Nat) : Nat → Nat → Nat → Nat → Nat → Bool → (Option Cause × Nat × Bool) × State
  | 0, _, _, _, moved, bad => ((none, moved, bad), s)
  | fuel + 1, src, dst, len, moved, bad =>
    if len == 0 then ((none, moved, bad), s)
    else
      let n := min len (min (4096 - src % 4096) (4096 - dst % 4096))
      match s.resolve harbourAgent asid src .read with
      | (.error (c, _), s) => ((some c, moved, bad), s)
      | (.ok (pa, _), s) =>
        match s.resolve harbourAgent asid dst .write with
        | (.error (c, _), s) => ((some c, moved, bad), s)
        | (.ok (pb, _), s) =>
          let r := s.movePiece asid pa pb n
          r.2.copyBytes asid fuel (src + n) (dst + n) (len - n) (moved + n) (bad || r.1)

/-- The next bytes of a started COPY moved (R58, R59): it goes on from what it has written, and fails at the first
fault. The cause of one that has written poison is UE (R383). -/
def State.copyOn (s : State) (asid n index bytes : Nat) : State :=
  match s.startedCmd asid n index 2 with
  | none => s
  | some c =>
    let k := min bytes (c.fieldAt 0x28 8 - c.copied)
    match s.copyBytes asid (k / 2048 + 3) (c.fieldAt 0x18 8 + c.copied) (c.fieldAt 0x20 8 + c.copied) k c.copied c.hurt with
    | ((e, moved, bad), s) =>
      let s := s.updQueue asid n fun q =>
        { q with cmds := updBy (fun (x : Cmd) => x.index == index) (fun x => { x with copied := moved, hurt := bad }) q.cmds }
      match e with
      | some e => s.completeCommand asid n index 1 (if bad then Cause.ue else e).code
      | none => s

/-- COPY_COMMAND_DONE (R58, R59): the last bytes move and the command completes. -/
def execCopyCommandDone (asid n index : Nat) (s : State) : Out :=
  .next
    (match s.startedCmd asid n index 2 with
     | none => s
     | some c =>
       let s := s.copyOn asid n index (c.fieldAt 0x28 8)
       match s.startedCmd asid n index 2 with
       | none => s
       | some c => s.completeCommand asid n index (if c.hurt then 1 else 0) (if c.hurt then Cause.ue.code else 0))

end Sys2Proof.Machine
end

