-- ==== Sys2Proof/Machine/Rings.lean ====
section
/-! DEFINITION. Queue entries (R51, R52), and Causeway rings with their descriptors (R395, R396, R398): registration,
states, fetching, and the completion of a descriptor. -/

namespace Sys2Proof.Machine

open Sys2Proof

/-! ### Queue entries (R51, R52) -/

/-- A queue as its entry gives it, or its error (R52): 4 UE, 1 BADENTRY, 2 FEATURE. `ring` is true for the entry of a
Causeway ring, whose type must be 0 (R395). -/
def State.readEntry (s : State) (pa num ceil : Nat) (ring stack : Bool) : Except Nat Queue :=
  match s.cpPhys pa 64 with
  | none => .error 4
  | some b =>
    let x := leNat b
    let q : Queue :=
      { num := num, ringBase := bytesAt x 0 8, ringLog2 := bytesAt x 8 1, kind := bytesAt x 9 1,
        prio := min (bytesAt x 0xA 1) ceil, widxAddr := bytesAt x 0x10 8, ridx := 0, state := .off, error := 0,
        errorIdx := 0, cmds := [], failed := false, rung := false }
    if q.ringBase % 4096 != 0 || q.widxAddr % 8 != 0 || decide (q.ringLog2 < 4 ∨ 16 < q.ringLog2)
        || decide ((if ring then 0 else 2) < q.kind) || bytesAt x 0xB 5 != 0 || bytesAt x 0x30 16 != 0 then .error 1
    else if q.kind == 2 && !stack then .error 2
    else .ok q

/-- The queue that an entry read again makes of a HALTED one (R65): it keeps ridx and its commands, and what was
suspended continues. -/
def Queue.reopen (old q : Queue) : Queue :=
  { q with ridx := old.ridx, errorIdx := old.errorIdx, failed := old.failed,
           cmds := old.cmds.map fun (c : Cmd) => { c with suspended := false } }

/-! ### Causeway rings -/

def State.ring (s : State) (asid land : Nat) : Option Ring :=
  findBy (fun (r : Ring) => r.asid == asid && r.land == land) s.rings

def State.updRing (s : State) (asid land : Nat) (f : Queue → Queue) : State :=
  { s with rings := updBy (fun (r : Ring) => r.asid == asid && r.land == land) (fun r => { r with q := f r.q }) s.rings }

/-- A ring put in a state, and the state field of its entry written (R65). -/
def State.setRingState (s : State) (asid land : Nat) (st : QueueState) : State :=
  match s.ring asid land with
  | none => s
  | some r =>
    if r.q.state == st then s
    else (s.updRing asid land fun q => { q with state := st }).writeHomeBytes (r.entry + 0x20) (leBytes 4 st.code)

/-- QUEUE_ERROR for a ring (R65). -/
def State.ringError (s : State) (asid land err idx : Nat) : State :=
  match s.ring asid land with
  | none => s
  | some r =>
    (((s.setRingState asid land .error).updRing asid land fun q => { q with error := err, errorIdx := idx }).writeHomeBytes
      (r.entry + 0x24) (leBytes 4 err)).writeHomeBytes (r.entry + 0x28) (leBytes 8 idx)

/-- The descriptor of a ring that can start (R60, R395): the first not started, with fewer than 16 before it. Descriptors
have neither BARRIER nor SKIPFAIL. -/
def Queue.nextDesc (q : Queue) : Option Cmd :=
  if q.state.fetches && decide ((q.cmds.filter fun (c : Cmd) => c.started).length < 16) then
    findBy (fun (c : Cmd) => !c.started) q.cmds
  else none

/-- The ring's state while it fetches (R65). -/
def State.refreshRing (s : State) (asid land : Nat) : State :=
  match s.ring asid land with
  | none => s
  | some r =>
    if r.q.state.fetches then
      s.setRingState asid land
        (if r.q.cmds.isEmpty then .idle
         else if (r.q.cmds.any fun (c : Cmd) => !c.started) && r.q.nextDesc.isNone then .blocked else .active)
    else s

/-- The descriptor of a ring started (R60). -/
def State.startDesc (s : State) (asid land index : Nat) : State :=
  (s.updRing asid land fun q =>
    { q with cmds := updBy (fun (c : Cmd) => c.index == index) (fun c => { c with started := true }) q.cmds }).refreshRing
    asid land

/-- The ring of a landing die whose descriptor starts first (R64, R395): the highest priority, and round robin by asid
among equals, which begins at the lowest asid (log 76). -/
def State.arbitrateRings (s : State) (land : Nat) : Option (Nat × Nat) :=
  let l := (s.rings.filter fun (r : Ring) => r.land == land && s.ctxActive r.asid && r.q.nextDesc.isSome).map
    fun (r : Ring) => (r.q.prio, r.asid)
  let top := (l.map Prod.fst).foldl max 0
  let l := sortBy (fun (x : Nat) => x) ((l.filter fun x => x.1 == top).map Prod.snd)
  let key := 256 * (land + 1) + top
  let last := match findBy (fun (r : Nat × Nat) => r.1 == key) s.rr with
    | some r => r.2 + 1
    | none => 0
  match findBy (fun (x : Nat) => decide (last ≤ x)) l with
  | some x => some (key, x)
  | none => l.head?.map fun x => (key, x)

/-- A ring opened as its context becomes ACTIVE, or as it is registered (R51, R52, R65, R395). -/
def State.openRing (s : State) (asid land : Nat) : State :=
  match s.ring asid land, s.ctx asid with
  | some r, some c =>
    (match s.readEntry r.entry 0 c.prioCeil true false with
     | .error e =>
       ((((if e == 4 then s.cpFail asid r.entry 64 else s).setRingState asid land .error).updRing asid land fun q => { q with error := e }).writeHomeBytes
         (r.entry + 0x24) (leBytes 4 e))
     | .ok q =>
       let fresh := r.q.state == .off
       let s := s.updRing asid land fun old => if fresh then q else { Queue.reopen old q with state := old.state }
       let s := if fresh then s.writeHomeBytes (r.entry + 0x18) (leBytes 8 0)
         else if r.q.error != 0 then s.writeHomeBytes (r.entry + 0x24) (leBytes 4 0) else s
       s.setRingState asid land .idle)
  | _, _ => s

/-- Descriptors fetched one after another (R54). -/
def State.fetchDescriptors (s : State) (asid land : Nat) : Nat → State
  | 0 => s
  | k + 1 =>
    match s.ring asid land with
    | none => s
    | some r =>
      match s.cpPhys (r.q.slot r.q.ridx) 64 with
      | none => (s.cpFail asid (r.q.slot r.q.ridx) 64).ringError asid land 4 r.q.ridx
      | some b =>
        let s := s.updRing asid land fun q =>
          { q with ridx := q.ridx + 1,
                   cmds := q.cmds ++ [q.newCmd b] }
        State.fetchDescriptors (s.writeHomeBytes (r.entry + 0x18) (leBytes 8 (r.q.ridx + 1))) asid land k

/-- The write index of a ring read, and its descriptors fetched (R53, R54, R65). -/
def State.fetchRing (s : State) (asid land : Nat) : State :=
  match s.ring asid land with
  | none => s
  | some r =>
    if !r.q.state.fetches then s
    else
      match s.cpPhys r.q.widxAddr 8 with
      | none => (s.cpFail asid r.q.widxAddr 8).ringError asid land 4 r.q.ridx
      | some b =>
        let w := leNat b
        if decide (w < r.q.ridx) || decide (r.q.ridx + 2 ^ r.q.ringLog2 < w) then s.ringError asid land 3 r.q.ridx
        else (s.fetchDescriptors asid land (w - r.q.ridx)).refreshRing asid land

/-! ### Descriptors (R396, R398) -/

def Cmd.dtype (c : Cmd) : Nat := c.fieldAt 1 1
def Cmd.group (c : Cmd) : Nat := c.fieldAt 2 1
def Cmd.flowNum (c : Cmd) : Nat := c.fieldAt 4 2
def Cmd.srcVa (c : Cmd) : Nat := c.fieldAt 8 8
def Cmd.dstVa (c : Cmd) : Nat := c.fieldAt 0x10 8
def Cmd.size (c : Cmd) : Nat := c.fieldAt 0x18 8

/-- R396 for a descriptor of a ring of a landing die. -/
def Cmd.descLegal (c : Cmd) (land : Nat) : Bool :=
  decide (1 ≤ c.op ∧ c.op ≤ 3 ∧ c.dtype ≤ 4) && (c.op != 3 || c.dtype != 0)
    && decide (3 * land ≤ c.group ∧ c.group ≤ 3 * land + 2) && decide (c.fieldAt 3 1 < 2)
    && decide (c.flowNum ≤ 4095) && c.fieldAt 6 2 == 0
    && c.srcVa % 32 == 0 && c.dstVa % 32 == 0 && (c.op != 2 || c.srcVa == 0) && (c.op != 1 || c.dstVa == 0)
    && decide (32 ≤ c.size ∧ c.size ≤ 2 ^ 40) && c.size % 32 == 0 && c.fieldAt 0x20 8 % 16 == 0
    && zeros (c.bytes.drop 0x30)

/-- The completion block written, status and counts first, then the flag (R397, R398); none where it cannot be. -/
def State.writeBlock (s : State) (asid : Nat) (c : Cmd) (status cause nocheck first : Nat) : Option State :=
  let va := c.fieldAt 0x20 8
  let body := leBytes 1 status ++ leBytes 1 cause ++ leBytes 2 (min 65535 nocheck) ++ leBytes 4 first
  match s.cpResolve asid va 16 .write with
  | (.error _, _) => none
  | (.ok pas, s) =>
    let adds := c.fieldAt 3 1 % 2 == 1
    if adds && (pas.take 8).any s.homePoison then none
    else
      let s := s.writeHome ((pas.drop 8).zip body)
      let old := if adds then leNat ((pas.take 8).map s.homeByte) else 0
      some (s.writeHome ((pas.take 8).zip (leBytes 8 ((old + c.fieldAt 0x28 8) % 2 ^ 64))))

/-- A descriptor completes (R398). A block that cannot be written puts the ring in ERROR, as a done block does its
queue (R59, R395). -/
def State.completeDesc (s : State) (asid land index status cause : Nat) : State :=
  match s.ring asid land with
  | none => s
  | some r =>
    match findBy (fun (c : Cmd) => c.index == index) r.q.cmds with
    | none => s
    | some c =>
      let rx := findBy (fun (x : Rx) => x.asid == asid && x.land == land && x.index == index) s.rxs
      let n := match rx with
        | some x => x.nocheck
        | none => 0
      let first := match rx with
        | some x => x.firstNocheck.getD 0xFFFFFFFF
        | none => 0xFFFFFFFF
      let s := { s with rxs := s.rxs.filter fun (x : Rx) => !(x.asid == asid && x.land == land && x.index == index) }
      let s := s.updRing asid land fun q =>
        { q with cmds := dropBy (fun (c : Cmd) => c.index == index) q.cmds, failed := q.failed || status != 0 }
      let va := c.fieldAt 0x20 8
      if va == 0 || va % 16 != 0 then s.refreshRing asid land
      else
        match s.writeBlock asid c status cause n first with
        | some s => s.refreshRing asid land
        | none => s.ringError asid land 4 index

/-- Every outstanding descriptor of a ring ended with ABORTED (R65, R395, R398). -/
def State.abortRing (s : State) (asid land : Nat) : State :=
  match s.ring asid land with
  | none => s
  | some r => r.q.cmds.foldl (fun (s : State) (c : Cmd) => s.completeDesc asid land c.index 6 0) s

end Sys2Proof.Machine
end

