-- ==== Sys2Proof/Machine/Contexts.lean ====
section
/-! DEFINITION. The context control port (R33 to R35, R413), the context states (R36, R37), translation invalidation by
host and gang (R48 to R50), and the saving of stack instances (R333, R338, R364). -/

namespace Sys2Proof.Machine

open Sys2Proof

/-! ### Stack instances saved (R333, R338) -/

/-- Whether a task is failing (R334). -/
def State.taskFailing (s : State) (serial : Nat) : Bool :=
  match s.task serial with
  | some t => t.state == .failing
  | none => false

/-- Whether an instance may be saved: one of a LOCAL task needs its slot covered (R364). -/
def State.canSave (s : State) (x : Instance) : Bool :=
  match s.task x.task with
  | none => true
  | some t =>
    match s.ctx t.asid with
    | none => true
    | some c => !t.desc.loc || c.covers (c.stackSlot x.die x.core) (132 * kib)

/-- An instance saved: its record holds its registers, mailboxes and local SRAM; the slot of a LOCAL one is written
(R338, R364). `order` is its place in the queue. -/
def State.saveInstance (s : State) (x : Instance) (order : Nat) : State :=
  let s := match s.task x.task with
    | none => s
    | some t =>
      match s.ctx t.asid with
      | none => s
      | some c => if t.desc.loc then s.saveSram c x.die x.core else s
  s.updInst x.task x.die x.core fun z => { z.save with order := order }

/-- STACK_PREEMPT (R333, R338): a running instance is saved for a waiting one of strictly higher priority, or, after
its syield, of equal priority, behind which it goes. -/
def execStackPreempt (die core : Nat) (s : State) : Out :=
  .next
    (match s.runningOn die core, s.nextInst die core with
     | some x, some y =>
       if s.canSave x && !s.taskFailing x.task && (decide (x.prio < y.prio) || (x.yielded && x.prio == y.prio)) then
         let r := s.fresh
         r.2.saveInstance x (if x.prio == y.prio then r.1 else x.order)
       else s
     | _, _ => s)

/-! ### The context descriptor (R31, R35) -/

/-- A context as its descriptor gives it; `old` keeps what CREATE recorded. -/
def ctxOf (desc : Nat) (b : List Byte) (key : BitVec 128) : Ctx :=
  let x := leNat b
  { desc := desc, asid := bytesAt x 0 2, state := .created, destroying := false, prioCeil := bytesAt x 2 1,
    dieMask := bytesAt x 3 1, ptRoot := bytesAt x 8 8, queueTable := bytesAt x 0x10 8, queueCount := bytesAt x 0x18 1,
    saveBase := bytesAt x 0x20 8, saveSize := bytesAt x 0x28 8, trapVec := BitVec.ofNat 64 (bytesAt x 0x30 8),
    faultRec := bytesAt x 0x38 8, featEn := (List.range 4).map fun i => BitVec.ofNat 64 (bytesAt x (0x40 + 8 * i) 8),
    key := key, queues := [] }

/-- BADDESC of R35, but for the comparisons with what CREATE or ENABLE read. -/
def badDesc (b : List Byte) : Bool :=
  let x := leNat b
  bytesAt x 8 8 % 4096 != 0 || bytesAt x 0x10 8 % 64 != 0 || bytesAt x 0x20 8 % (2 * mib) != 0 || bytesAt x 4 4 != 0
    || bytesAt x 0x19 7 != 0 || bytesAt x 0x68 24 != 0 || bytesAt x 0 2 == 0 || decide (4095 < bytesAt x 0 2)
    || bytesAt x 3 1 == 0 || bytesAt x 0x18 1 == 0 || decide (64 < bytesAt x 0x18 1) || decide (7 < bytesAt x 2 1)

/-- A feature set with a bit that FEAT_CAP does not have (R35). -/
def overCap (f : List Word) : Bool := (List.range 4).any fun i => f.getD i 0 &&& ~~~(featCap i) != 0

/-- A feature set that clears a bit of an earlier one (R37). -/
def clearsBit (old new : List Word) : Bool := (List.range 4).any fun i => old.getD i 0 &&& ~~~(new.getD i 0) != 0

def State.activeCount (s : State) : Nat := (s.ctxs.filter fun c => c.state == .active).length

/-- The context that a descriptor address names (R413). -/
def State.ctxAt (s : State) (desc : Nat) : Option Ctx := findBy (fun (c : Ctx) => c.desc == desc) s.ctxs

/-! ### Opening queues (R51, R52, R65) -/

/-- A queue of a context becoming ACTIVE: its entry is read. One that was HALTED keeps ridx and its commands. -/
def State.openQueue (s : State) (asid n : Nat) : State :=
  match s.ctx asid with
  | none => s
  | some c =>
    let e := c.queueTable + 64 * n
    let old := s.queue asid n
    match s.readEntry e n c.prioCeil false (s.feature asid 9) with
    | .error err =>
      let s := if err == 4 then s.cpFail asid e 64 else s
      let s :=
        if old.isSome then s
        else
          s.updCtx asid fun c =>
            { c with queues := c.queues ++ [{ num := n, ringBase := 0, ringLog2 := 0, kind := 0, prio := 0, widxAddr := 0,
                                              ridx := 0, state := .off, error := 0, errorIdx := 0, cmds := [],
                                              failed := false, rung := false }] }
      ((s.setQueueState asid n .error).updQueue asid n fun q =>
          { q with error := err, cmds := q.cmds.map fun (c : Cmd) => { c with suspended := false } }).writeHomeBytes (e + 0x24)
        (leBytes 4 err)
    | .ok q =>
      match old with
      | none =>
        ((s.updCtx asid fun c => { c with queues := c.queues ++ [q] }).writeHomeBytes (e + 0x18)
          (leBytes 8 0)).setQueueState asid n .idle
      | some o =>
        let s := s.updQueue asid n fun o => { Queue.reopen o q with state := o.state }
        (if o.error != 0 then s.writeHomeBytes (e + 0x24) (leBytes 4 0) else s).setQueueState asid n .idle

/-- Every queue and every ring of a context opened. -/
def State.openAll (s : State) (asid count : Nat) : State :=
  let s := (List.range count).foldl (fun (s : State) n => s.openQueue asid n) s
  (s.rings.filter fun (r : Ring) => r.asid == asid).foldl (fun (s : State) r => s.openRing asid r.land) s

/-! ### Work that is ended (R65, R80, R334) -/

/-- A kernel ended by DESTROY, or with its queue (R80): crews dropped, every child not yet reported ABORTED. -/
def State.abortKernel (s : State) (serial : Nat) : State :=
  match s.kernel serial with
  | none => s
  | some k =>
    let s := ((s.crews.filter fun c => c.kernel == serial).map Crew.id).foldl (fun (s : State) id => s.crewDone id false) s
    let s := { s with multicast := s.multicast.filter fun b => b.kernel != serial,
                      mxs := s.mxs.filter fun m => (s.crew m.gang.crew).isSome }
    let s := ((List.range k.children.length).filter fun j =>
        match k.children[j]? with
        | some c => !c.reported
        | none => false).foldl (fun (s : State) j => s.reportChild k j .aborted) s
    { s with kernels := dropBy (fun (x : Kernel) => x.serial == serial) s.kernels }

/-- The children of an open aggregate ABORTED (R80, R82). -/
def State.abortAggregate (s : State) (a : Aggregate) : State :=
  let s : State := { s with aggregates := dropBy (fun (x : Aggregate) => x.id == a.id) s.aggregates }
  a.children.foldl (fun (s : State) p =>
    s.writeCompletion a.asid
      { param := p.1, completion := p.2, completed := 0, deadLanes := 0, failList := 0, ended := 0,
        fails := [], reported := true } .aborted) s

/-- A task ended without a flag (R334, R335). -/
def State.dropTask (s : State) (serial : Nat) : State :=
  { s with tasks := dropBy (fun (t : Task) => t.serial == serial) s.tasks,
           insts := s.insts.filter fun x => x.task != serial,
           inst := if s.inst.task == serial then Instance.empty else s.inst }

/-- Every command of a queue that is not complete ends ABORTED, and what it started with it (R65). -/
def State.abortQueue (s : State) (asid n : Nat) : State :=
  let s := ((s.kernels.filter fun k =>
      match k.owner with
      | some (.command a q _) => a == asid && q == n
      | _ => false).map Kernel.serial).foldl State.abortKernel s
  let s := ((s.tasks.filter fun t =>
      match t.owner with
      | .command a q _ => a == asid && q == n
      | _ => false).map Task.serial).foldl State.dropTask s
  match s.queue asid n with
  | none => s
  | some q =>
    (q.cmds.foldl (fun (s : State) (c : Cmd) => s.completeCommand asid n c.index 6 0) s).setQueueState asid n .off

/-! ### QUIESCE (R36, R80, R333, R335) -/

/-- A resident crew of a context that is quiesced (R359, R364): pre-empted, or ended where a page slot is not
covered. -/
def State.quiesceCrew (s : State) (id : Nat) : State :=
  match s.crew id with
  | none => s
  | some c =>
    if !(c.state == .starting || c.state == .running) then s
    else if s.pagesCovered c then s.preemptCrew id
    else (if c.state == .starting then s.wakeCrew id else s).failCrew id Cause.seg.code

/-- A running stack instance of a context that is quiesced (R338, R364); one of a failing task ends (R334). -/
def State.quiesceInstance (s : State) (x : Instance) : State :=
  if s.taskFailing x.task then s.endInstances x.task
  else if s.canSave x then s.saveInstance x x.order else s.failTask x.task x.rank Cause.seg.code false

/-- The actions of QUIESCE (R36): fetching stops, and every queue and ring is HALTED; started COPYs are suspended;
kernels and tasks are SUSPENDED; every resident crew and running instance is saved. -/
def State.quiesceActs (s : State) (asid : Nat) : State :=
  match s.ctx asid with
  | none => s
  | some c =>
    let s := (c.queues.filter fun q => q.state != .off).foldl (fun (s : State) q =>
      (s.setQueueState asid q.num .halted).updQueue asid q.num fun q =>
        { q with cmds := q.cmds.map fun (x : Cmd) => { x with suspended := x.started && x.op == 2 } }) s
    let s := (s.rings.filter fun (r : Ring) => r.asid == asid && r.q.state != .off).foldl
      (fun (s : State) r => s.setRingState asid r.land .halted) s
    let s : State := { s with kernels := s.kernels.map fun (k : Kernel) =>
      if k.asid == asid && k.state != KernelState.done then { k with state := KernelState.suspended } else k }
    let ids := (s.crews.filter fun (x : Crew) => s.asidOf x.id == asid).map Crew.id
    let s : State := { s with cores := s.cores.map fun (x : Core) =>
      { x with queue := x.queue.filter fun i => !ids.contains i } }
    let s := ids.foldl State.quiesceCrew s
    let run := s.allInsts.filter fun x =>
      x.state == .running &&
        (match s.task x.task with
         | some t => t.asid == asid
         | none => false)
    let s := run.foldl State.quiesceInstance s
    { s with tasks := s.tasks.map fun (t : Task) =>
        if t.asid == asid && (t.state == .flushing || t.state == .running) then
          { t with before := t.state, state := TaskState.suspended }
        else t }

/-- Whether every save of a context is done (R36): no crew of it is on a core or ending, no save is under way, and every
page of its saved crews is BACKED. -/
def State.quiesceReady (s : State) (asid : Nat) : Bool :=
  s.crews.all fun c =>
    s.asidOf c.id != asid || c.state == .waiting
      || (c.state == .saved && !(s.core c.core).shadowBank.contains c.id && c.pages.all fun p => p.state == .backed)

/-! ### DESTROY (R36, R65, R80, R334) -/

/-- The DESTROY actions: unfinished work fails item by item, and the context is FREE. -/
def State.destroyActs (s : State) (asid : Nat) : State :=
  match s.ctx asid with
  | none => s
  | some c =>
    let s := ((s.kernels.filter fun k => k.asid == asid).map Kernel.serial).foldl State.abortKernel s
    let s := (s.aggregates.filter fun a => a.asid == asid).foldl State.abortAggregate s
    let s := ((s.tasks.filter fun t => t.asid == asid).map Task.serial).foldl State.dropTask s
    let s := (c.queues.map Queue.num).foldl (fun (s : State) n => s.abortQueue asid n) s
    let s := (s.rings.filter fun (r : Ring) => r.asid == asid).foldl (fun (s : State) r =>
      (s.abortRing asid r.land).setRingState asid r.land .off) s
    let s := { s with rings := s.rings.filter fun (r : Ring) => r.asid != asid,
                      ctxs := dropBy (fun (x : Ctx) => x.asid == asid) s.ctxs }
    (s.writeCtxState c.desc 0).finishCommand 0

/-! ### The commands (R33 to R37) -/

/-- CREATE (R36, R413). -/
def State.cpCreate (s : State) (desc : Nat) : State :=
  if (s.ctxAt desc).isSome then s.finishCommand 1
  else
    match s.cpPhys desc 128 with
    | none => (s.cpFail 0 desc 128).finishCommand 2
    | some b =>
      if badDesc b then s.finishCommand 2
      else
        let c := ctxOf desc b (Config.tagKey s.creates)
        if (s.ctx c.asid).isSome then s.finishCommand 6
        else (State.writeCtxState { s with ctxs := s.ctxs ++ [c], creates := s.creates + 1 } desc 1).finishCommand 0

/-- The code with which ENABLE, or RESUME, of a context refuses its descriptor (R35, R37). -/
def State.enableCode (s : State) (c : Ctx) (b : List Byte) (again : Bool) : Nat :=
  let d := ctxOf c.desc b c.key
  if badDesc b || d.asid != c.asid then 2
  else if again && (d.dieMask != c.dieMask || d.saveBase != c.saveBase || d.saveSize != c.saveSize) then 2
  else if overCap d.featEn || (again && clearsBit c.featEn d.featEn) then 3
  else if d.saveSize < 80 * mib * d.dies then 4
  else if 64 ≤ s.activeCount then 5
  else 0

/-- ENABLE (R31, R36). -/
def State.cpEnable (s : State) (c : Ctx) : State :=
  if c.state != .created then s.finishCommand 1
  else
    match s.cpPhys c.desc 128 with
    | none => (s.cpFail c.asid c.desc 128).finishCommand 2
    | some b =>
      let code := s.enableCode c b false
      if code != 0 then s.finishCommand code
      else
        let d := ctxOf c.desc b c.key
        let s := (s.updCtx c.asid fun _ => d).setCtxState c.asid .active
        (s.openAll c.asid d.queueCount).finishCommand 0

/-- The kernels, tasks and crews of a context that continue at RESUME (R37, R80, R333, R335). -/
def State.resumeWork (s : State) (asid : Nat) : State :=
  let s : State := { s with
    kernels := s.kernels.map fun (k : Kernel) =>
      if k.asid == asid && k.state == .suspended then
        { k with state := if k.unadmitted == 0 then KernelState.running else .placing }
      else k,
    tasks := s.tasks.map fun (t : Task) => if t.asid == asid && t.state == .suspended then { t with state := t.before } else t }
  ((s.crews.filter fun c =>
      s.asidOf c.id == asid && (c.state == .waiting || c.state == .saved) && s.coreCount (coreCluster c.core) != 0).map
    Crew.id).foldl State.enqueueCrew s

/-- Every started WAIT of a context evaluated (R65). -/
def State.reviewWaits (s : State) (asid : Nat) : State :=
  match s.ctx asid with
  | none => s
  | some c =>
    c.queues.foldl (fun (s : State) q =>
      if q.state == .error then s
      else
        (q.cmds.filter fun (x : Cmd) => x.started && x.op == 4).foldl (fun (s : State) x => s.evalWait asid q.num x) s) s

/-- RESUME (R37, R65). -/
def State.cpResume (s : State) (c : Ctx) : State :=
  if c.state != .quiesced then s.finishCommand 1
  else
    match s.cpPhys c.desc 128 with
    | none => (s.cpFail c.asid c.desc 128).finishCommand 2
    | some b =>
      let code := s.enableCode c b true
      if code != 0 then s.finishCommand code
      else
        let d := ctxOf c.desc b c.key
        let asid := c.asid
        let s := s.updCtx asid fun c =>
          { c with ptRoot := d.ptRoot, queueCount := d.queueCount, prioCeil := d.prioCeil, trapVec := d.trapVec,
                   faultRec := d.faultRec, featEn := d.featEn }
        let s := (List.range 17).foldl (fun (s : State) a => s.invalidate a asid true 0) s
        -- queues at or beyond the new count turn OFF, in the table that holds their entries
        let s := ((c.queues.map Queue.num).filter fun n => decide (d.queueCount ≤ n)).foldl
          (fun (s : State) n => s.abortQueue asid n) s
        let s := s.updCtx asid fun c =>
          { c with queueTable := d.queueTable, queues := c.queues.filter fun q => decide (q.num < d.queueCount) }
        let s := (s.openAll asid d.queueCount).setCtxState asid .active
        ((s.resumeWork asid).reviewWaits asid).finishCommand 0

/-- QUIESCE (R36): it completes at QUIESCE_DONE. -/
def State.cpQuiesce (s : State) (c : Ctx) : State :=
  if c.state != .active then s.finishCommand 1
  else
    ({ s.setCtxState c.asid .quiescing with cp := { (s.setCtxState c.asid .quiescing).cp with busy := true } } : State).quiesceActs
      c.asid

/-- DESTROY (R36): at once where nothing of the context is under way; else it completes at QUIESCE_DONE, and an ACTIVE
context stays ACTIVE until it is FREE. -/
def State.cpDestroy (s : State) (c : Ctx) : State :=
  let mark (s : State) : State :=
    { s.updCtx c.asid (fun c => { c with destroying := true }) with cp := { s.cp with busy := true } }
  match c.state with
  | .quiescing => s.finishCommand 1
  | .active => (mark s).quiesceActs c.asid
  | _ => if s.quiesceReady c.asid then s.destroyActs c.asid else mark s

/-- An accepted write of CPCTL_CMD: its operation on the descriptor it names (R33, R35, R413). -/
def State.cpRun (s : State) (desc op : Nat) : State :=
  if op == 1 then s.cpCreate desc
  else if op == 0 || 5 < op then s.finishCommand 7
  else
    match s.ctxAt desc with
    | none => s.finishCommand 1
    | some c =>
      match op with
      | 2 => s.cpEnable c
      | 3 => s.cpQuiesce c
      | 4 => s.cpResume c
      | _ => s.cpDestroy c

/-- The asid that CPCTL_STATUS reports for a command (R33, R413): the recorded one; for CREATE the one it reads; a free
value where the descriptor names no context (log 7). -/
def State.cpAsid (s : State) (desc op : Nat) : Nat :=
  match s.ctxAt desc with
  | some c => c.asid
  | none => if op == 1 && (s.cpPhys desc 2).isSome then s.homeVal desc 2 else field (s.freeVal desc) 0 16

/-- A write of CPCTL_CMD (R33, R34). -/
def State.cpctl (s : State) (lvl : HostLevel) (value : Word) (op : Nat) : State :=
  s.hostPort lvl
    (if s.cp.busy then { s with cp := { s.cp with overrun := true } }
     else
       let desc := value &&& ~~~(127#64)
       let a := s.cpAsid desc.toNat op
       let s : State := { s with cp := { s.cp with desc := desc, op := BitVec.ofNat 4 op, asid := a } }
       s.cpRun desc.toNat op)

/-- CREATE (R33, R36, R413). -/
def execCreate (lvl : HostLevel) (desc : Word) (s : State) : Out := .next (s.cpctl lvl desc 1)

/-- ENABLE (R33, R36). -/
def execEnable (lvl : HostLevel) (desc : Word) (s : State) : Out := .next (s.cpctl lvl desc 2)

/-- QUIESCE (R33, R36). -/
def execQuiesce (lvl : HostLevel) (desc : Word) (s : State) : Out := .next (s.cpctl lvl desc 3)

/-- RESUME (R33, R36, R37). -/
def execResume (lvl : HostLevel) (desc : Word) (s : State) : Out := .next (s.cpctl lvl desc 4)

/-- DESTROY (R33, R36). -/
def execDestroy (lvl : HostLevel) (desc : Word) (s : State) : Out := .next (s.cpctl lvl desc 5)

/-- CPCTL_BADOP (R33, R35): a write of CPCTL_CMD with the operation in its bits 3:0. -/
def execCpctlBadop (lvl : HostLevel) (value : Word) (s : State) : Out := .next (s.cpctl lvl value (field value 0 4))

/-- QUIESCE_DONE (R34, R36): the last save is done; the QUIESCE completes, or the DESTROY goes on. -/
def execQuiesceDone (asid : Nat) (s : State) : Out :=
  .next
    (match s.ctx asid with
     | none => s
     | some c =>
       if !s.quiesceReady asid then s
       else if c.destroying then s.destroyActs asid
       else if c.state == .quiescing then (s.setCtxState asid .quiesced).finishCommand 0
       else s)

/-! ### Translation invalidation (R48 to R50) -/

/-- A write of CPTLBI_CMD (R50). -/
def State.cptlbi (s : State) (lvl : HostLevel) (asid : BitVec 12) (all : Bool) : State :=
  s.hostPort lvl
    (if s.cp.tlbiBusy then { s with cp := { s.cp with tlbiOverrun := true } }
     else
       let s : State := { s with cp := { s.cp with tlbiAsid := asid, tlbiMode := all } }
       if (asid == 0 && lvl == .s) || (asid != 0 && (s.ctx asid.toNat).isNone) then
         { s with cp := { s.cp with tlbiCode := 1 } }
       else
         let r := s.broadcast asid.toNat all s.cp.tlbiVa.toNat none
         { r.2 with cp := { r.2.cp with tlbiBusy := true } })

/-- CPTLBI_PAGE (R50). -/
def execCptlbiPage (lvl : HostLevel) (asid : BitVec 12) (s : State) : Out := .next (s.cptlbi lvl asid false)

/-- CPTLBI_ALL (R50). -/
def execCptlbiAll (lvl : HostLevel) (asid : BitVec 12) (s : State) : Out := .next (s.cptlbi lvl asid true)

/-- Whether a copy still to land was accepted on a die with a translation that an invalidation matches (R48). -/
def State.copyUses (s : State) (t : Tlbi) (die : Nat) (c : CopyOp) : Bool :=
  !c.squashed && s.asidOf c.gang.crew == t.asid
    && (match s.crew c.gang.crew with
        | some x => x.die == die
        | none => false)
    && c.used.any fun p => t.all || decide (p.1 ≤ t.va ∧ t.va < p.1 + p.2)

/-- Whether an agent can acknowledge an invalidation (R48, R49): it handles them in order, and what it accepted under an
old translation has been performed. -/
def State.mayAck (s : State) (t : Tlbi) (agent : Nat) : Bool :=
  decide (agent < 17) && !t.acked.contains agent
    && (s.tlbis.all fun (x : Tlbi) => decide (t.id ≤ x.id) || x.acked.contains agent)
    && !(s.copies.any fun c => s.copyUses t agent c)

/-- TLBI_ACK (R48 to R50): one of the 17 agents; the last completes an invalidation of CPTLBI. -/
def execTlbiAck (id agent : Nat) (s : State) : Out :=
  .next
    (match findBy (fun (t : Tlbi) => t.id == id) s.tlbis with
     | none => s
     | some t =>
       if !s.mayAck t agent then s
       else
         let s := s.invalidate agent t.asid t.all t.va
         let t := { t with acked := t.acked ++ [agent] }
         if t.port && t.acked.length == 17 then
           { s with tlbis := dropBy (fun (x : Tlbi) => x.id == id) s.tlbis,
                    cp := { s.cp with tlbiBusy := false, tlbiCode := 0 } }
         else { s with tlbis := updBy (fun (x : Tlbi) => x.id == id) (fun _ => t) s.tlbis })

/-- The gang that waits in a ktlbi whose time has run out takes UE, with the agents that have not acknowledged in TRAP_INFO
(R49); its crew fails with its context. -/
def State.tlbiTrap (s : State) (t : Tlbi) (mask : BitVec 17) : State :=
  match t.gang with
  | none => s
  | some r =>
    s.onGang r fun u =>
      if u.g.wait == some (.tlbi t.id) then { u with g := u.g.recordTrap false .ue (mask.setWidth 64) } else u

/-- TLBI_TIMEOUT (R49, R50): 1,000,000 cycles without 17 acknowledgements. -/
def execTlbiTimeout (id : Nat) (s : State) : Out :=
  .next
    (match findBy (fun (t : Tlbi) => t.id == id) s.tlbis with
     | none => s
     | some t =>
       if t.failed.isSome || t.acked.length == 17 || decide (s.cycle < t.start + 1000000) then s
       else
         let m := t.missing
         let s :=
           if t.port then
             { s with tlbis := dropBy (fun (x : Tlbi) => x.id == id) s.tlbis,
                      cp := { s.cp with tlbiBusy := false, tlbiCode := 2, tlbiMissing := m } }
           else { s with tlbis := updBy (fun (x : Tlbi) => x.id == id) (fun x => { x with failed := some m }) s.tlbis }
         if s.ctxActive t.asid then
           (s.tlbiTrap t m).faultCtx t.asid { kind := 3, cause := .ue, address := 0, agents := m.toNat, die := 20 }
         else s)

end Sys2Proof.Machine
end

