-- ==== Sys2Proof/Machine/Fetch.lean ====
section
/-! DEFINITION. Fetching instruction words (R109, R230, R336), and what a word that cannot be fetched or that is illegal
raises (R8, R109, R120, R121). -/

namespace Sys2Proof.Machine

open Sys2Proof

/-! ### Bytes of an instruction word -/

/-- The fetch fault of a cause at an address. -/
def fetchFault (c : Cause) (va level : Nat) : FetchFault :=
  match c with
  | .seg => .seg (BitVec.ofNat 64 va)
  | .align => .align (BitVec.ofNat 64 va)
  | .prot => .prot (BitVec.ofNat 64 va)
  | .ue => .ue (BitVec.ofNat 64 va)
  | _ => .xlat (BitVec.ofNat 64 va) level

/-- The physical addresses of n pieces of 4 bytes from va, each fetched with permission X. -/
def State.fetchPieces (s : State) (agent asid va : Nat) : Nat → Except FetchFault (List Nat) × State
  | 0 => (.ok [], s)
  | n + 1 =>
    match s.resolve agent asid va .fetch with
    | (.error (c, level), s) => (.error (fetchFault c va level), s)
    | (.ok (pa, _), s) =>
      match s.fetchPieces agent asid (va + 4) n with
      | (.ok l, s) => (.ok (pa :: (pa + 1) :: (pa + 2) :: (pa + 3) :: l), s)
      | x => x

/-! ### The scalar and lane streams -/

/-- A word of n bytes at offset o of G, as its home holds it now (R109). -/
def State.fetchHome (s : State) (o n : Nat) : Except FetchFault Nat × State :=
  let va := segVa s.g.segs.g o
  match s.fetchPieces (coreDie s.g.core) s.myAsid va (n / 4) with
  | (.error f, s) => (.error f, s)
  | (.ok pas, s) =>
    match findBy (fun a => s.homePoison a) pas with
    | some a => (.error (.ue (BitVec.ofNat 64 va)), s.logConsumed false (.phys a))
    | none => (.ok (leNat (pas.map s.homeByte)), s)

/-- A word put into the core's instruction cache (R230). -/
def State.keepCode (s : State) (va len bits : Nat) : State :=
  let asid := s.myAsid
  s.updCore s.g.core fun c =>
    { c with code := { asid := asid, va := va, len := len, bits := bits } ::
               c.code.filter fun w => !(w.asid == asid && w.va == va && w.len == len) }

/-- A word fetched through G: one that the core's instruction cache holds, or, by the device's choice, the word as its
home holds it now (R109, R230). -/
def State.fetchG (s : State) (o n : Nat) : Except FetchFault Nat × State :=
  if s.g.segs.g.limit.toNat < o + n then (.error (.seg (BitVec.ofNat 64 o)), s)
  else if o % 4 != 0 then (.error (.align (BitVec.ofNat 64 o)), s)
  else
    let va := segVa s.g.segs.g o
    let asid := s.myAsid
    let kept := findBy (fun (w : CodeWord) => w.asid == asid && w.va == va && w.len == n) (s.core s.g.core).code
    match kept with
    | some w =>
      if s.choose 7 va then (.ok w.bits, s)
      else
        match s.fetchHome o n with
        | (.ok x, s) => (.ok x, if x == w.bits then s else s.keepCode va n x)
        | r => r
    | none =>
      match s.fetchHome o n with
      | (.ok x, s) => (.ok x, s.keepCode va n x)
      | r => r

/-- The scalar word at pc (R109). -/
def State.fetchScalar (s : State) : Except FetchFault Nat × State := s.fetchG s.g.pc.toNat 4

/-- The address of a lane word (R89, R109). -/
def State.laneAddr (s : State) (idx : BitVec 24) : Nat :=
  match s.kernelOf s.g.ref.crew with
  | some k => (k.desc.laneCode.toNat + 12 * idx.toNat) % 2 ^ 64
  | none => 0

/-- The lane word that the issuing slot names (R89, R109). -/
def State.fetchLane (s : State) : Except FetchFault Nat × State := s.fetchG (s.laneAddr s.g.slotNow.pc) 12

/-- The word that the issuing slot names, if it reads a latch whose chain is not broken (R107). -/
def State.chained (s : State) : Option (LaneOp × LaneF) :=
  if s.g.lane.running && s.g.slotNow.runs && (s.g.latches.any (·.valid) || s.g.pend.any fun p => p.latch.isSome) then
    match s.fetchLane.1 with
    | .error _ => none
    | .ok w =>
      match decodeLane (BitVec.ofNat 96 w) with
      | .error _ => none
      | .ok i =>
        i.lane?.filter fun x => (laneLatches x.1 x.2).any fun l => s.g.latchReady l || s.g.latchPending l
  else none

/-- A chained word that another operand holds, or a latch still to be written (R107, R198). -/
def State.chainHeld (s : State) : Bool :=
  s.chained.any fun x => s.g.reserved x.1 x.2 || (laneLatches x.1 x.2).any fun l => s.g.latchPending l

/-- Whether a chained word has been held for 4 cycles after the one in which it was to issue (R107). -/
def State.chainLate (s : State) : Bool := decide (s.g.laneAge + 4 ≤ s.cycle) && s.chainHeld

/-! ### Stack cores -/

/-- The word at the pc of the instance whose turn it is, from DRAM (R109, R231, R336). A base die that has lost its link
fails it with UE (R387). -/
def State.fetchStack (s : State) : Except FetchFault Nat × State :=
  let va := s.inst.pc.toNat
  if s.lostLinks.contains (.base s.inst.die) then (.error (.ue s.inst.pc), s)
  else if decide (2 ^ 57 ≤ va) then (.error (.xlat s.inst.pc 0), s)
  else if va % 8 != 0 then (.error (.align s.inst.pc), s)
  else
    match s.fetchPieces s.stackAgent s.stackAsid va 2 with
    | (.error f, s) => (.error f, s)
    | (.ok pas, s) =>
      let ps := pas.map SPlace.phys
      let s := s.stackTouch ps
      match findBy (fun p => s.stackBad p) ps with
      | some p => (.error (.ue s.inst.pc), s.logStack p)
      | none => (.ok (leNat (pas.map s.stackByte)), s)

/-! ### What they raise -/

/-- The cause of a fetch fault, its TRAP_INFO in the scalar stream, which only XLAT fills (R356), and its level. -/
def fetchCause : FetchFault → Cause × Word × Nat
  | .seg _ => (.seg, 0, 0)
  | .align _ => (.align, 0, 0)
  | .xlat va level => (.xlat, xlatInfo va.toNat level, level)
  | .prot _ => (.prot, 0, 0)
  | .ue _ => (.ue, 0, 0)

/-- INSTRUCTION_FETCH_FAULT (R109, R336, R356): in the instruction that would have been fetched. -/
def execInstructionFetchFault (st : Stream) (why : FetchFault) (s : State) : Out :=
  let c := fetchCause why
  match st with
  | .scalar => if s.g.status == .absent then .next s else .next (s.takeTrap false c.1 c.2.1)
  | .lane =>
    if s.g.status == .absent then .next s
    else .next (s.takeTrap true c.1 (s.g.laneInfo c.2.2 s.g.slotNow.pc s.g.active))
  | .stack => if s.inst.state == .running then .next (s.stackTrap c.1) else .next s

/-- ILLEGAL_INSTRUCTION (R8, R120, R121): a word with no meaning raises ILL in its stream. -/
def execIllegalInstruction (st : Stream) (s : State) : Out :=
  match st with
  | .scalar => if s.g.status == .absent then .next s else .next (s.takeTrap false .ill 0)
  | .lane =>
    if s.g.status == .absent then .next s else .next (s.takeTrap true .ill (s.g.laneInfo 0 s.g.slotNow.pc 0))
  | .stack => if s.inst.state == .running then .next (s.stackTrap .ill) else .next s

end Sys2Proof.Machine
end

