-- ==== Sys2Proof/Machine/Engines.lean ====
section
/-! DEFINITION. What completes the work of a gang: waits that end (R87, R127), blocks that start (R88, R91), loads, stores
and engine replies that return (R159, R198, R214, R254), and the heartbeat (R270). An
event whose condition does not hold leaves the state as it is. -/

namespace Sys2Proof.Machine

open Sys2Proof

/-! ### Waits and the lane stream -/

/-- Whether what a gang waits for has come about (R87, R127). A grant is GRANT's alone, and the completion of a phase
releases the gangs that wait for it itself (R322). -/
def State.waitOver (s : State) : Wait → Bool
  | .laneIdle => s.g.laneIdle
  | .laneSpace => decide (s.g.lane.queue.length < 4)
  | .stores => s.g.ust == 0
  | .loads => s.g.loadsBack
  | .drain => s.g.ust == 0 && s.g.ifc.isEmpty
  | .counter p n => decide (s.g.ifcOf p ≤ n)
  | .batchSpace => decide (s.g.batchGap < 15)
  | .batchGap n => decide (s.g.batchGap ≤ n)
  | .kendBatches => s.g.sealed == s.g.batchDone
  | .kendCounters => s.g.ifcOf .cp == 0 && s.g.ifcOf .mx == 0 && s.g.ifcOf .xf == 0 && s.g.ifcOf .fx == 0
  | .loadsAndStores bd => s.g.loadsBack && s.g.ust == 0 && !(bd && s.g.ifcOf .bd != 0)
  | .tick t => decide (t < s.heartbeat.toNat)
  | .tlbi id =>
    match findBy (fun (t : Tlbi) => t.id == id) s.tlbis with
    | some t => t.failed.isSome || t.acked.length == 17
    | none => true
  | .barrier _ _ => false
  | .arrived _ _ => false
  | .passed none => s.g.loadsBack
  | .passed (some _) => true
  | .bankOps ids => !s.opsLeft ids
  | .grant => false
  | .children _ => decide (s.childCount s.myAsid < 4096)
  | .bdSpace _ => decide (s.g.ifcOf .bd < 63)

/-- Waits that the instruction itself inspects when it goes on: what it has obtained before stays with it. -/
def Wait.carries : Wait → Bool
  | .tick _ => true
  | .tlbi _ => true
  | .arrived _ _ => true
  | .passed _ => true
  | .children _ => true
  | .bdSpace _ => true
  | .bankOps _ => true
  | .grant => true
  | _ => false

/-- WAIT_END (R87, R127, R152): the awaited condition holds, and the gang's instruction issues again. -/
def execWaitEnd (r : GangRef) (s : State) : Out :=
  .next (s.onGang r fun t =>
    match t.g.wait with
    | none => t
    | some w => if t.waitOver w && !w.carries then { t with g := { t.g with wait := none } } else t)

/-- KYIELD_EXPIRE (R169): the 32 cycles have passed. -/
def execKyieldExpire (r : GangRef) (s : State) : Out :=
  .next (s.onGang r fun t => if t.g.yieldUntil ≤ t.cycle then { t with g := { t.g with yieldUntil := 0 } } else t)

/-- The chain of a gang broken if its chained instruction has waited 4 cycles for another operand (R107). -/
def State.lateBreak (s : State) (r : GangRef) : State :=
  s.onGang r fun t => if t.chainLate then { t with g := t.g.breakChain } else t

/-- CHAIN_BREAK (R107): every latch is cleared. -/
def execChainBreak (r : GangRef) (s : State) : Out := .next (s.lateBreak r)

/-- Whether a gang has a latch that is valid, or will be. -/
def Gang.usesLatches (g : Gang) : Bool := (g.latches.any fun l => l.valid) || g.pend.any fun p => p.latch.isSome

/-- Cycles of both clock domains pass (R26, R27), and the chains whose 4 cycles end meanwhile break (R107). -/
def State.elapse (s : State) (n m : Nat) : State :=
  let t := { s with cycle := s.cycle + n, stackCycle := s.stackCycle + m }
  (t.allGangs.filter Gang.usesLatches).foldl (fun (u : State) g => u.lateBreak g.ref) t

/-- A lane block as it starts (R88, R91). -/
def Gang.startBlock (g : Gang) (b : Block) (rest : List Block) : Gang :=
  { g with lane := { queue := rest, running := true, snap := b.snap,
                     s0 := slotAt b.idx (~~~g.dead) none, s1 := Slot.empty, depth := 0, cur := false,
                     chainHead := b.idx, enqueued := g.lane.enqueued } }

/-- LANE_BLOCK_START (R88, R91). -/
def execLaneBlockStart (r : GangRef) (s : State) : Out :=
  .next (s.onGang r fun t =>
    match t.g.lane.queue with
    | b :: rest =>
      if t.g.lane.running || t.g.level == .k || t.g.status != .run then t
      else { t with g := (t.g.startBlock b rest).tell .start }
    | [] => t)

/-! ### Loads, stores and replies -/

/-- What a pending instruction of the gang writes back: the lanes its data kills are dead first (R197). -/
def State.writeBack_ (s : State) (p : Pend) : State :=
  let g := { s.g with pend := dropBy (fun (x : Pend) => x.id == p.id) s.g.pend, dead := s.g.dead ||| p.dead }
  State.giveBack { s with g := g } p p.writes fun i =>
    match p.latch with
    | some x => x.2.getD i 0
    | none => 0

/-- The gang's oldest pending instruction of a kind. -/
def Gang.oldest (g : Gang) (k : PendKind) : Option Pend := findBy (fun (p : Pend) => p.kind == k) g.pend

/-- LOAD_RETURN (R197, R198). -/
def execLoadReturn (r : GangRef) (id : Nat) (s : State) : Out :=
  .next (s.onGang r fun t =>
    match findBy (fun (p : Pend) => p.id == id && p.kind == .load) t.g.pend with
    | some p => t.writeBack_ p
    | none => t)

/-- STORE_ACK (R159, R196, R268): UST falls by one. -/
def execStoreAck (r : GangRef) (s : State) : Out :=
  .next ((s.onGang r fun t => { t with g := { t.g with ust := t.g.ust - 1 } }).settleCrew r.crew)

/-- SMM_COMPLETE (R214). -/
def execSmmComplete (r : GangRef) (s : State) : Out :=
  .next (s.onGang r fun t =>
    match t.g.oldest .smm with
    | some p => t.writeBack_ p
    | none => t)

/-- XFM_REPLY (R238, R254): the registers are written and IFC_XF falls. -/
def execXfmReply (r : GangRef) (s : State) : Out :=
  .next (s.onGang r fun t =>
    match t.g.oldest .xfm with
    | some p =>
      let u := t.writeBack_ p
      { u with g := u.g.lower .xf p.id }
    | none => t)

/-- HEARTBEAT_TICK (R27, R270). -/
def execHeartbeatTick (s : State) : Out :=
  .next (if s.nextTick ≤ s.cycle then
    { s with heartbeat := s.heartbeat + 1, nextTick := s.nextTick + s.hbPeriod } else s)

end Sys2Proof.Machine
end

