-- ==== Sys2Proof/Machine/Regions.lean ====
section
/-! DEFINITION. Rewriting the region table (R222, R223, R226, R227). -/

namespace Sys2Proof.Machine

open Sys2Proof

/-- Whether an entry is in use (R223). -/
def rgnUsed (e : RgnEntry) : Bool := e.mode.toNat % 4 != 0

/-- R222 and R223 for an entry in use, overlaps apart. -/
def rgnLegal (e : RgnEntry) : Bool :=
  let unit := match e.mode.toNat % 4 with
    | 1 => 2 ^ 30
    | 2 => 2 ^ 27
    | _ => 2 ^ 21
  let n := e.size.toNat * 2 ^ 20
  let foot := match e.mode.toNat % 4 with
    | 1 => n / 512
    | 2 => n / 64
    | _ => n
  e.base.toNat % unit == 0 && n != 0 && n % unit == 0 && decide (e.base.toNat + n ≤ 2 ^ 52)
    && decide (e.pcOff.toNat ≤ 511 ∧ e.pcOff.toNat * 2 ^ 21 + foot ≤ 2 ^ 30)
    && (e.mode.toNat % 4 == 3 || e.mode.toNat / 4 == 0)
    && decide (e.stack.toNat < 8) && (e.mode.toNat % 4 != 1 || e.stack == 0)

/-- Whether two ranges share a byte. -/
def rangesMeet (a n b m : Nat) : Bool := decide (a < b + m ∧ b < a + n)

def entriesMeet (x y : RgnEntry) : Bool := rangesMeet x.base.toNat (rgnBytes x) y.base.toNat (rgnBytes y)

/-- Whether entry i of a table is valid or unused (R223). -/
def entryOk (t : List RgnEntry) (i : Nat) : Bool :=
  match t[i]? with
  | none => true
  | some e =>
    !rgnUsed e ||
      (rgnLegal e && !rangesMeet e.base.toNat (rgnBytes e) (2 ^ 36 - 2 ^ 20) (2 ^ 20)
        && (List.range t.length).all fun j =>
          match t[j]? with
          | some y => j == i || !rgnUsed y || !entriesMeet e y
          | none => true)

/-- The first entry in use that is invalid. -/
def firstBad (t : List RgnEntry) : Option Nat := findBy (fun i => !entryOk t i) (List.range t.length)

/-- Whether an address lies in a changed range (R227). -/
def inChanged (active stage : List RgnEntry) (pa : Nat) : Bool :=
  (active.zip stage).any fun x => x.1 != x.2 && (rgnCovers x.1 pa || rgnCovers x.2 pa)

/-- Step 1 of a commit: L2 lines of the changed ranges written back and invalidated, every L1 invalidated. -/
def State.rgnFlush (s : State) (stage : List RgnEntry) : State :=
  let lines := (s.l2.map Line.num).filter fun n => inChanged s.rgn.active stage (n * 128)
  let s := lines.foldl (fun (s : State) n => s.writeBack n) s
  { s with cores := s.cores.map fun (c : Core) => ({ c with l1 := [] } : Core) }

/-- A write of 1 to RGNCTL.COMMIT (R226, R227): refused with its code, or begun. -/
def State.rgnCommit (s : State) : State :=
  if s.rgn.busy then s
  else
    match firstBad s.rgn.stage with
    | some i => { s with rgn := { s.rgn with code := 1, badIdx := i } }
    | none =>
      if s.ctxs.any fun c => c.state == .active then { s with rgn := { s.rgn with code := 2 } }
      else
        let t := s.rgnFlush s.rgn.stage
        { t with rgn := { t.rgn with busy := true } }

/-- Steps 2 and 3 of a commit: every agent has the staged table. A line that a host store has dirtied in a changed range
meanwhile is written back to its old or its new target, by the device's choice. -/
def State.rgnFinish (s : State) : State :=
  let lines := (s.l2.map Line.num).filter fun n => inChanged s.rgn.active s.rgn.stage (n * 128)
  let old := lines.filter fun n => s.choose 8 n
  let s := old.foldl (fun (s : State) n => s.writeBack n) s
  let s := { s with rgn := { s.rgn with active := s.rgn.stage, gen := s.rgn.gen + 1, code := 0, busy := false } }
  (lines.filter fun n => !old.contains n).foldl (fun (s : State) n => s.writeBack n) s

/-- An access of a host level to a port that only machine mode may touch (R226, R402). -/
def State.machineOnly (s : State) (lvl : HostLevel) (t : State) : State :=
  if lvl == .m then t else { s with reply := .fault }

/-- REGION_COMMIT (R226, R227). -/
def execRegionCommit (lvl : HostLevel) (s : State) : Out := .next (s.machineOnly lvl s.rgnCommit)

/-- REGION_COMMIT_DONE (R227). -/
def execRegionCommitDone (s : State) : Out := .next (if s.rgn.busy then s.rgnFinish else s)

end Sys2Proof.Machine
end

