-- ==== Sys2Proof/Machine/Debug.lean ====
section
/-! DEFINITION. The debug port (R257, R372 to R374). -/

namespace Sys2Proof.Machine

open Sys2Proof

/-- The core that DBGSEL names. -/
def dbgCore (sel : Word) : Nat := (field sel 0 3 * 2 + field sel 3 1) * 128 + field sel 4 7

/-- The gangs that DBGSEL selects: resident, not ENDED (R373). -/
def State.selected (s : State) : List Gang :=
  let sel := s.dbg.sel
  (s.residentGangs (dbgCore sel)).filter fun g =>
    g.status != .ended && (sel.getLsbD 16 || g.slot == 8 * field sel 11 2 + field sel 13 3)

def State.dbgCode (s : State) (code : Nat) : State := { s with dbg := { s.dbg with code := code } }

/-- Each selected gang in turn. -/
def State.eachSelected (s : State) (f : State → State) : State :=
  s.selected.foldl (fun (s : State) g => s.onGang g.ref f) s

/-! ### HALT, RESUME and STEP (R374) -/

/-- The gang whose turn it is halts at its boundary, with the precision of a trap (R353, R374), once what its lanes have
issued is written (R214, R254, R296). -/
def State.haltGang (s : State) : State :=
  if s.g.status == .halted then s
  else
    let s := s.stopStreams
    { s with g := s.g.halt }

/-- The gang is released: a trap that it halted at is delivered, or not, first (R355, R374). -/
def State.releaseGang (s : State) (step : Option Stream) : State :=
  if s.g.status != .halted && !s.g.haltDue then s
  else
    let trap := s.g.haltTrap
    let s := { s with g := { s.g with status := .run, haltDue := false } }
    let s := if trap then s.deliverHalted else s
    if s.g.status == .run then { s with g := { s.g with stepOne := step } } else s

/-- bstep.step for the owner gang on the handle in DBGDATA (R285, R374). -/
def State.bankStep (s : State) : State :=
  let h := field s.dbg.data 0 4
  match s.page s.g.ref.crew h with
  | some p => if p.owner == some s.g.ref then s.stepHead h p else s
  | none => s

/-! ### BACK (R372) -/

/-- The newest entry of the gang's undo log undone: memory on the st path, registers, the stream's position.
The memory type of what was stored is not kept: the line is left in DRAM (R229). -/
def State.undoOne (s : State) : State :=
  match s.g.undo with
  | [] => s
  | e :: rest =>
    let s := if e.mem.isEmpty then s else s.gangWrite s.g.ref.crew s.g.core true 2 e.mem
    let s := match e.period with
      | some n => { s with hbPeriod := n }
      | none => s
    let d := e.dbg.getD (s.g.dbgHaltTrap, s.g.dbgHaltBrk, s.g.dbgUndo)
    let w := e.wb.getD (s.g.win, s.g.res)
    let g := { s.g with undo := rest, segs := e.segs.getD s.g.segs, lptBase := e.lptBase.getD s.g.lptBase, dbgHaltTrap := d.1,
                        dbgHaltBrk := d.2.1, dbgUndo := d.2.2, win := w.1, res := w.2 }
    let g := e.k.foldl (fun (g : Gang) x => { g with k := g.k.set x.1 x.2 }) g
    let g := e.v.foldl (fun (g : Gang) x => g.setSlot x.1 x.2.1 x.2.2) g
    let g := e.q.foldl (fun (g : Gang) x => { g with q := g.q.set x.1 x.2 }) g
    let sr (n : Nat) (d : Word) : Word := match findBy (fun (x : Nat × Word) => x.1 == n) e.sr with
      | some x => x.2
      | none => d
    let g := { g with trapCause := sr 0x060 g.trapCause, trapPc := sr 0x061 g.trapPc, trapInfo := sr 0x062 g.trapInfo,
                      trapVec := sr 0x063 g.trapVec }
    let g :=
      if e.lane then
        { g with lane := if e.slot then { g.lane with s1 := { g.lane.s1 with pc := e.index } }
                         else { g.lane with s0 := { g.lane.s0 with pc := e.index } } }
      else { g with pc := e.pc }
    { s with g := g }

/-- BACK: refused with NOUNDO at an empty log and with FENCE at a fence entry of any selected gang. -/
def State.dbgBack (s : State) : State :=
  let l := s.selected
  if l.any fun g => g.undo.isEmpty then s.dbgCode 3
  else if l.any fun g => (g.undo.head?).any UndoEntry.fence then s.dbgCode 4
  else (s.eachSelected State.undoOne).dbgCode 0

/-! ### READ and WRITE (R373) -/

/-- The register that a selector names in the gang whose turn it is: its value, or none where it names none. -/
def State.dbgGet (s : State) (sel : Nat) : Option Word :=
  match sel / 2 ^ 14 with
  | 0 => some (s.getK (BitVec.ofNat 5 sel))
  | 1 => if srnListed (sel % 1024) then some (s.readSr (sel % 1024)) else none
  | 2 => if sel % 64 < s.g.window then some ((s.g.getV (sel / 256 % 32) (sel % 64)).setWidth 64) else none
  | _ => some ((s.g.getQ (sel % 8)).setWidth 64)

/-- The register written; one that is RO at K is left as it is. -/
def State.dbgPut (s : State) (sel : Nat) (x : Word) : State :=
  match sel / 2 ^ 14 with
  | 0 => s.setK (BitVec.ofNat 5 sel) x
  | 1 => if srnWritable (sel % 1024) then s.writeSr (sel % 1024) x else s
  | 2 =>
    if sel % 64 < s.g.window then
      { s with g := s.g.setSlot (s.g.slotOf (sel % 64)) (sel / 256 % 32) (x.setWidth 32) }
    else s
  | _ => { s with g := s.g.setQ (sel % 8) (BitVec.allOnes 32) (x.setWidth 32) }

/-- READ: DBGDATA takes the register of the first selected gang. A selector of no register completes BADOP. -/
def State.dbgRead (s : State) (sel : Nat) : State :=
  match s.selected.head? with
  | none => s.dbgCode 2
  | some g =>
    match (s.bring g.ref).dbgGet sel with
    | some x => { s with dbg := { s.dbg with data := x, code := 0 } }
    | none => s.dbgCode 5

/-- WRITE: the register of every selected gang, and of its shadow, takes DBGDATA. -/
def State.dbgWrite (s : State) (sel : Nat) : State :=
  match s.selected.head? with
  | none => s.dbgCode 2
  | some g =>
    if ((s.bring g.ref).dbgGet sel).isNone then s.dbgCode 5
    else (s.eachSelected fun t => (t.dbgPut sel t.dbg.data).onShadow t.g.ref fun u => u.dbgPut sel u.dbg.data).dbgCode 0

/-! ### CQUIESCE (R257) -/

/-- Whether every counter of the selected halted gangs is 0, IFC_BD apart. -/
def State.countersZero (s : State) : Bool :=
  s.selected.all fun g => g.status != .halted || (g.ust == 0 && g.ifc.all fun e => e.path == .bd)

/-- A CQUIESCE under way completes once its counters are 0. -/
def State.watchDebug (s : State) : State :=
  if s.dbg.busy && s.countersZero then { s with dbg := { s.dbg with busy := false, code := 0 } } else s

/-! ### The commands -/

/-- A write of DBGCMD (R373, R374). One made while BUSY is 1 is discarded. -/
def State.debugCmd (s : State) (lvl : HostLevel) (cmd : Word) : State :=
  s.hostPort lvl
    (if s.dbg.busy then s
     else
       let s := { s with dbg := { s.dbg with cmd := cmd &&& 0xFFFF003F } }
       let op := field cmd 0 4
       let sel := field cmd 16 16
       if op == 0 || decide (9 < op) || (op == 3 && field cmd 4 2 == 3) then s.dbgCode 5
       else if s.selected.isEmpty then s.dbgCode 2
       else if (op == 3 || op == 4 || op == 8 || op == 9) && s.selected.any (fun g => g.status != .halted) then s.dbgCode 1
       else
         match op with
         | 1 => (s.eachSelected State.haltGang).dbgCode 0
         | 2 => (s.eachSelected fun t => t.releaseGang none).dbgCode 0
         | 3 =>
           (match field cmd 4 2 with
            | 0 => s.eachSelected fun t => t.releaseGang (some .scalar)
            | 1 => s.eachSelected fun t => t.releaseGang (some .lane)
            | _ => s.eachSelected State.bankStep).dbgCode 0
         | 4 => s.dbgBack
         | 5 => State.watchDebug { s with dbg := { s.dbg with busy := true } }
         | 6 => (s.eachSelected fun t => { t with g := { t.g with dbgHaltBrk := true } }).dbgCode 0
         | 7 => (s.eachSelected fun t => { t with g := { t.g with dbgHaltBrk := false } }).dbgCode 0
         | 8 => s.dbgRead sel
         | _ => s.dbgWrite sel)

/-- A DBGCMD word. -/
def dbgWord (op stream sel : Nat) : Word := word [(op, 0), (stream, 4), (sel, 16)]

/-- DEBUG_HALT (R374). -/
def execDebugHalt (lvl : HostLevel) (s : State) : Out := .next (s.debugCmd lvl (dbgWord 1 0 0))

/-- DEBUG_RESUME (R374). -/
def execDebugResume (lvl : HostLevel) (s : State) : Out := .next (s.debugCmd lvl (dbgWord 2 0 0))

/-- DEBUG_STEP (R374). -/
def execDebugStep (lvl : HostLevel) (stream : BitVec 2) (s : State) : Out :=
  .next (s.debugCmd lvl (dbgWord 3 stream.toNat 0))

/-- DEBUG_BACK (R372, R373). -/
def execDebugBack (lvl : HostLevel) (s : State) : Out := .next (s.debugCmd lvl (dbgWord 4 0 0))

/-- DEBUG_CQUIESCE (R257, R374). -/
def execDebugCquiesce (lvl : HostLevel) (s : State) : Out := .next (s.debugCmd lvl (dbgWord 5 0 0))

/-- DEBUG_ARMBRK (R374). -/
def execDebugArmbrk (lvl : HostLevel) (s : State) : Out := .next (s.debugCmd lvl (dbgWord 6 0 0))

/-- DEBUG_DISARMBRK (R374). -/
def execDebugDisarmbrk (lvl : HostLevel) (s : State) : Out := .next (s.debugCmd lvl (dbgWord 7 0 0))

/-- DEBUG_READ (R373). -/
def execDebugRead (lvl : HostLevel) (sel : BitVec 16) (s : State) : Out := .next (s.debugCmd lvl (dbgWord 8 0 sel.toNat))

/-- DEBUG_WRITE (R373). -/
def execDebugWrite (lvl : HostLevel) (sel : BitVec 16) (s : State) : Out := .next (s.debugCmd lvl (dbgWord 9 0 sel.toNat))

/-- DEBUG_BADOP (R373). -/
def execDebugBadop (lvl : HostLevel) (op : BitVec 4) (s : State) : Out := .next (s.debugCmd lvl (dbgWord op.toNat 0 0))

end Sys2Proof.Machine
end

