-- ==== Sys2Proof/Machine/Link.lean ====
section
/-! DEFINITION. Links (R386 to R400): UCIe modules, Causeway ports, flits and flows, and the Causeway descriptors. -/

namespace Sys2Proof.Machine

open Sys2Proof

/-! ### Ports (R388 to R390) -/

/-- A port carries flits only in UP and DEGRADED (R390). -/
def PortState.usable (p : PortState) : Bool := p == .up || p == .degraded

/-- The codes of CWPSTAT.STATE (R389). -/
def PortState.code : PortState → Nat
  | .down => 0
  | .training => 1
  | .up => 2
  | .degraded => 3
  | .retrain => 4
  | .fenced => 5

def State.port (s : State) (n : Nat) : Option CwPort := findBy (fun (p : CwPort) => p.num == n) s.ports

def State.updPort (s : State) (n : Nat) (f : CwPort → CwPort) : State :=
  { s with ports := updBy (fun (p : CwPort) => p.num == n) f s.ports }

/-- The ports of a group that carry flits, lowest number first (R388, R390). -/
def State.usablePorts (s : State) (group : Nat) : List Nat :=
  (s.ports.filter fun (p : CwPort) => p.num / 3 == group && p.state.usable).map CwPort.num

/-- The 256 bytes of a flit (R391): flow, kind, flags, seq, c0, c1, length, dtype, a zero byte, ack, and the payload
filled up with zero bytes. -/
def Flit.image (x : Flit) : List Byte :=
  leBytes 2 x.flow ++ leBytes 1 x.kind ++ leBytes 1 (flag x.poison + 2 * flag x.nocheck + 4 * flag x.last)
    ++ leBytes 4 x.seq.toNat ++ leBytes 8 x.c0.toNat ++ leBytes 8 x.c1.toNat ++ leBytes 2 x.payload.length
    ++ leBytes 1 x.dtype ++ leBytes 1 0 ++ leBytes 4 x.ack.toNat ++ x.payload
    ++ List.replicate (224 - x.payload.length) 0

/-- R391 for a flit: a flow below 4,096, a kind of the table, 32 to 224 payload bytes in whole sectors, and checksums and
a chunk type in a collective chunk alone. -/
def Flit.legal (x : Flit) : Bool :=
  decide (x.flow < 4096 ∧ x.kind ≤ 4 ∧ 32 ≤ x.payload.length ∧ x.payload.length ≤ 224) && x.payload.length % 32 == 0
    && (if x.kind == 1 then decide (1 ≤ x.dtype ∧ x.dtype ≤ 4) else x.dtype == 0 && x.c0 == 0 && x.c1 == 0)

/-- The flit that 256 bytes hold; none where they break R391. -/
def flitOf (b : List Byte) : Option Flit :=
  let n := leNat b
  let flags := bytesAt n 3 1
  let x : Flit :=
    { flow := bytesAt n 0 2, kind := bytesAt n 2 1, poison := flags.testBit 0, nocheck := flags.testBit 1,
      last := flags.testBit 2, seq := BitVec.ofNat 32 (bytesAt n 4 4), c0 := BitVec.ofNat 64 (bytesAt n 8 8),
      c1 := BitVec.ofNat 64 (bytesAt n 0x10 8), dtype := bytesAt n 0x1A 1, ack := BitVec.ofNat 32 (bytesAt n 0x1C 4),
      payload := (b.drop 0x20).take (bytesAt n 0x18 2) }
  if b.length != 256 || decide (8 ≤ flags) || bytesAt n 0x1B 1 != 0 || decide (224 < bytesAt n 0x18 2) || !Flit.legal x then none
  else some x

/-- Flits put on the wire of a port. -/
def State.transmit (s : State) (port : Nat) (fs : List Flit) : State :=
  s.updPort port fun p => { p with tx := p.tx ++ fs.map Machine.Flit.image }

/-! ### Flows (R392, R394) -/

def Flow.is (f : Flow) (group num : Nat) : Bool := f.group == group && f.num == num

def State.flow (s : State) (group num : Nat) : Option Flow := findBy (fun (f : Flow) => f.is group num) s.flows

def State.updFlow (s : State) (group num : Nat) (f : Flow → Flow) : State :=
  { s with flows := updBy (fun (x : Flow) => x.is group num) f s.flows }

/-- A flow as it starts: sequence numbers from 0 (R392). -/
def Flow.fresh (group num : Nat) (home : Option Nat) : Flow :=
  { group := group, num := num, home := home, nextSeq := 0, unacked := [], expect := 0, window := [], inbox := [],
    acked := 0xFFFFFFFF, refused := none, fails := 0, discard := false }

/-- A flow at its first use: bound round-robin over the group's usable ports (R394). -/
def State.openFlow (s : State) (group num : Nat) : State :=
  if (s.flow group num).isSome then s
  else
    let ports := s.usablePorts group
    let n := (s.flows.filter fun (f : Flow) => f.group == group).length
    { s with flows := s.flows ++ [Flow.fresh group num ports[n % ports.length]?] }

/-- A flow rebound to the lowest usable port of its group, and every unacknowledged flit sent again on it, oldest first;
with no such port it stalls (R394). -/
def State.rebind (s : State) (f : Flow) : State :=
  let home := (s.usablePorts f.group).head?
  let s := s.updFlow f.group f.num fun x => { x with home := home }
  match home with
  | some p => s.transmit p f.unacked
  | none => s

/-- The flows whose home port a port is, rebound (R394). -/
def State.moveFlows (s : State) (port : Nat) : State :=
  (s.flows.filter fun (f : Flow) => f.home == some port).foldl State.rebind s

/-- The stalled flows of a group that has a usable port again (R394). -/
def State.wakeFlows (s : State) (group : Nat) : State :=
  (s.flows.filter fun (f : Flow) => f.group == group && f.home.isNone).foldl State.rebind s

/-- Whether a descriptor or a flow uses a group. -/
def State.groupUsed (s : State) (group : Nat) : Bool :=
  (s.flows.any fun (f : Flow) => f.group == group)
    || s.rings.any fun (r : Ring) => r.land == group / 3 && r.q.cmds.any fun (c : Cmd) => c.group == group

/-- The groups in use with no usable port, and since when (R394). -/
def State.noteStalls (s : State) : State :=
  { s with stalls := ((List.range 12).filter fun g => s.groupUsed g && (s.usablePorts g).isEmpty).map fun g =>
      (findBy (fun (x : Nat × Nat) => x.1 == g) s.stalls).getD (g, s.cycle) }

/-- A port enters a state (R389, R390): its flows move when it leaves UP or DEGRADED, and stalled flows of its group use
it once it carries flits. -/
def State.enterPort (s : State) (n : Nat) (st : PortState) (cause : Option Nat) (lanes : BitVec 4) : State :=
  let s := s.updPort n fun p => { p with state := st, since := s.cycle, lanes := lanes, cause := cause.getD p.cause }
  (if st.usable then s.wakeFlows (n / 3) else s.moveFlows n).noteStalls

def lanesUp (lanes : BitVec 4) : Nat := popcount 4 lanes.toNat

/-- UP with 4 lanes, DEGRADED with 2 or 3 (R390). -/
def State.portRuns (s : State) (n : Nat) (lanes : BitVec 4) : State :=
  s.enterPort n (if lanesUp lanes == 4 then .up else .degraded) none lanes

/-- A write of CWPCTL (R389, R390). -/
def State.cwpctl (s : State) (n : Nat) (enable fence : Bool) : State :=
  match s.port n with
  | none => s
  | some p =>
    let s := s.updPort n fun p => { p with enable := enable, fence := fence }
    if fence then (if p.state == .fenced then s else s.enterPort n .fenced (some 4) 0)
    else if !enable then (if p.state == .down then s else s.enterPort n .down none 0)
    else if p.state == .down then (s.updPort n fun p => { p with peer := none }).enterPort n .training none 0
    else s

/-- CWPCTL_ENABLE (R390): ENABLE written, FENCE as it is. -/
def execCwpctlEnable (lvl : HostLevel) (n : Nat) (on : Bool) (s : State) : Out :=
  .next (s.hostPort lvl (s.cwpctl n on ((s.port n).any CwPort.fence)))

/-- CWPCTL_FENCE (R390): FENCE written, ENABLE as it is. -/
def execCwpctlFence (lvl : HostLevel) (n : Nat) (on : Bool) (s : State) : Out :=
  .next (s.hostPort lvl (s.cwpctl n ((s.port n).any CwPort.enable) on))

/-- Whether a peer differs from that of a usable port of the same group (R388). -/
def State.miswired (s : State) (n : Nat) (peer : Word × Nat) : Bool :=
  s.ports.any fun (p : CwPort) => p.num / 3 == n / 3 && p.num != n && p.state.usable && p.peer != some peer

/-- The cycles of 10 ms (R26, R390). -/
def trainLimit : Nat := 10000000

/-- PORT_TRAINING_DONE (R388, R390). -/
def execPortTrainingDone (n : Nat) (lanes : BitVec 4) (peerSerial : Word) (peerGroup : Nat) (s : State) : Out :=
  .next
    (match s.port n with
     | none => s
     | some p =>
       if p.state != .training || decide (p.since + trainLimit ≤ s.cycle) then s
       else
         let t := s.updPort n fun p => { p with peer := some (peerSerial, peerGroup) }
         if lanesUp lanes < 2 then s.enterPort n .fenced (some 1) 0
         else if s.miswired n (peerSerial, peerGroup) then t.enterPort n .fenced (some 2) 0
         else t.portRuns n lanes)

/-- PORT_TRAINING_TIMEOUT (R390): 10 ms pass, or fewer than 2 lanes are left. -/
def execPortTrainingTimeout (n : Nat) (lanes : BitVec 4) (s : State) : Out :=
  .next
    (match s.port n with
     | none => s
     | some p =>
       if p.state == .training && (decide (p.since + trainLimit ≤ s.cycle) || decide (lanesUp lanes < 2)) then
         s.enterPort n .fenced (some 1) 0
       else s)

/-- RETRAIN_TRIGGER (R390): a lane is lost, or more than 16 link-CRC replays came within 1,000,000 cycles. -/
def execRetrainTrigger (n : Nat) (_lanes : BitVec 4) (s : State) : Out :=
  .next
    (match s.port n with
     | none => s
     | some p =>
       if p.state.usable then
         (s.updPort n fun p => { p with retrains := min 65535 (p.retrains + 1) }).enterPort n .retrain none 0
       else s)

/-- RETRAIN_DONE (R390). -/
def execRetrainDone (n : Nat) (lanes : BitVec 4) (s : State) : Out :=
  .next
    (match s.port n with
     | none => s
     | some p =>
       if p.state == .retrain && decide (s.cycle ≤ p.since + 50000) && decide (2 ≤ lanesUp lanes) then s.portRuns n lanes
       else s)

/-- RETRAIN_TIMEOUT (R390). -/
def execRetrainTimeout (n : Nat) (lanes : BitVec 4) (s : State) : Out :=
  .next
    (match s.port n with
     | none => s
     | some p =>
       if p.state == .retrain && (decide (p.since + 50000 ≤ s.cycle) || decide (lanesUp lanes < 2)) then
         s.enterPort n .fenced (some 3) 0
       else s)

/-! ### Receiving (R391 to R393) -/

/-- Whether a cumulative acknowledgement covers a sequence number: ack names the last number it covers. -/
def seqCovered (ack seq : Half) : Bool := decide ((ack - seq).toNat < 2 ^ 31)

/-- The retransmit buffer without what an acknowledgement covers (R392). -/
def State.ackFlow (s : State) (group num : Nat) (ack : Half) : State :=
  s.updFlow group num fun f => { f with unacked := f.unacked.filter fun (x : Flit) => !seqCovered ack x.seq }

/-- A flit of the retransmit buffer sent again (R393, R400). -/
def State.resend (s : State) (group num : Nat) (seq : Half) : State :=
  match s.flow group num with
  | none => s
  | some f =>
    match f.home, findBy (fun (x : Flit) => x.seq == seq) f.unacked with
    | some p, some x => s.transmit p [x]
    | _, _ => s

/-- An acknowledgement (kind 2) or a negative acknowledgement (kind 3) of a flow. -/
def Flow.control (f : Flow) (kind : Nat) (seq : Half) : Flit :=
  { flow := f.num, kind := kind, poison := false, nocheck := false, last := false, seq := seq, c0 := 0, c1 := 0,
    dtype := 0, ack := f.acked, payload := List.replicate 32 0 }

def State.sendControl (s : State) (group num kind : Nat) (seq : Half) : State :=
  match s.flow group num with
  | none => s
  | some f =>
    match f.home with
    | some p => s.transmit p [f.control kind seq]
    | none => s

/-- The last sequence number of a flow that is delivered and, for a chunk, checked (R393). -/
def Flow.ackPoint (f : Flow) : Half :=
  match findBy (fun (x : Flit) => x.kind == 1) f.inbox with
  | some x => x.seq - 1
  | none => f.expect - 1

/-- A flow acknowledges what has become acknowledgeable. -/
def State.ackNow (s : State) (group num : Nat) : State :=
  match s.flow group num with
  | none => s
  | some f =>
    if f.ackPoint == f.acked then s
    else (s.updFlow group num fun f => { f with acked := f.ackPoint }).sendControl group num 2 0

/-- Flits in sequence order from the window to the inbox while the expected one is there (R393). -/
def Flow.deliver (f : Flow) : Nat → Flow
  | 0 => f
  | fuel + 1 =>
    match findBy (fun (x : Flit) => x.seq == f.expect) f.window with
    | none => f
    | some x =>
      Flow.deliver { f with window := dropBy (fun (y : Flit) => y.seq == f.expect) f.window, inbox := f.inbox ++ [x],
                            expect := f.expect + 1 } fuel

/-- Flits up to LAST dropped; whether LAST is still to come (R397). -/
def discardFlits : List Flit → List Flit × Bool
  | [] => ([], true)
  | x :: rest => if x.last then (rest, false) else discardFlits rest

def Flow.settle (f : Flow) : Flow :=
  if f.discard then { f with inbox := (discardFlits f.inbox).1, discard := (discardFlits f.inbox).2 } else f

/-- A data or chunk flit of a flow (R393, R400): stored, delivered, dropped, or in place of the chunk refused. -/
def State.acceptFlit (s : State) (group : Nat) (x : Flit) : State :=
  match s.flow group x.flow with
  | none => s
  | some f =>
    if f.refused == some x.seq && x.kind == 1 then
      s.updFlow group x.flow fun f => { f with inbox := x :: f.inbox.drop 1, refused := none }
    else
      let d := (x.seq - f.expect).toNat
      if d < 4096 then
        if f.window.any fun (y : Flit) => y.seq == x.seq then s
        else
          (s.updFlow group x.flow fun f =>
            (Flow.deliver { f with window := f.window ++ [x] } (f.window.length + 1)).settle).ackNow group x.flow
      else if 2 ^ 31 ≤ d then s.sendControl group x.flow 2 0
      else s.sendControl group x.flow 3 x.seq

/-- FLIT_RECEIVE (R391 to R393): the 256 bytes a port receives. A flit that breaks R391 is not taken. The
acknowledgement field of every kind counts, an idle flit's too. -/
def execFlitReceive (n : Nat) (image : List Byte) (s : State) : Out :=
  .next
    (if !((s.port n).any fun (p : CwPort) => p.state.usable) then s
     else
       match flitOf image with
       | none => s
       | some x =>
         let g := n / 3
         let t := (s.openFlow g x.flow).ackFlow g x.flow x.ack
         match x.kind with
         | 2 => t.noteStalls
         | 3 => (t.resend g x.flow x.seq).noteStalls
         | 4 => s.ackFlow g x.flow x.ack
         | _ => (t.acceptFlit g x).noteStalls)

/-- ACK_RECEIVE (R392). -/
def execAckReceive (n num : Nat) (ack : Half) (s : State) : Out :=
  .next (if (s.port n).any fun (p : CwPort) => p.state.usable then s.ackFlow (n / 3) num ack else s)

/-- NAK_RECEIVE (R393, R400). -/
def execNakReceive (n num : Nat) (seq : Half) (s : State) : Out :=
  .next (if (s.port n).any fun (p : CwPort) => p.state.usable then s.resend (n / 3) num seq else s)

/-- GROUP_STALL_TIMEOUT (R394): every descriptor that uses the group fails and the group's flows restart. -/
def execGroupStallTimeout (g : Nat) (s : State) : Out :=
  .next
    (match findBy (fun (x : Nat × Nat) => x.1 == g) s.stalls with
     | none => s
     | some x =>
       if decide (s.cycle < x.2 + 1000000) || !(s.usablePorts g).isEmpty then s
       else
         let s := s.rings.foldl (fun (s : State) (r : Ring) =>
           if r.land == g / 3 then
             (r.q.cmds.filter fun (c : Cmd) => c.group == g).foldl
               (fun (s : State) (c : Cmd) => s.completeDesc r.asid r.land c.index 1 Cause.ue.code) s
           else s) s
         State.noteStalls { s with flows := s.flows.filter fun (f : Flow) => f.group != g })

/-! ### Rings (R395) -/

/-- A write of CWRING (R395): a ring registered for a context and a landing die, or removed. -/
def State.cwringSet (s : State) (value : Word) : State :=
  let asid := field value 52 12
  let land := field value 0 2
  let entry := field value 6 46 * 64
  let s := s.abortRing asid land
  let s := { s with cwring := value &&& 0xFFFFFFFFFFFFFFC3,
                    rings := s.rings.filter fun (r : Ring) => !(r.asid == asid && r.land == land) }
  if entry == 0 || (s.ctx asid).isNone then s
  else
    let q : Queue :=
      { num := 0, ringBase := 0, ringLog2 := 0, kind := 0, prio := 0, widxAddr := 0, ridx := 0, state := .off, error := 0,
        errorIdx := 0, cmds := [], failed := false, rung := false }
    let s := { s with rings := s.rings ++ [({ asid := asid, land := land, entry := entry, q := q } : Ring)] }
    if s.ctxActive asid then s.openRing asid land else s

/-- CWRING_WRITE (R395). -/
def execCwringWrite (lvl : HostLevel) (value : Word) (s : State) : Out := .next (s.hostPort lvl (s.cwringSet value))

/-- CW_RING_POLL (R395). -/
def execCwRingPoll (asid land : Nat) (s : State) : Out :=
  .next (if s.ctxActive asid then (s.fetchRing asid land).noteStalls else s)

/-! ### Checksums (R399, R400) -/

/-- The bytes of an element of a chunk type (R396). -/
def chunkWidth (dtype : Nat) : Nat := if dtype == 2 then 8 else if dtype == 4 then 2 else 4

/-- The format of a floating chunk type. -/
def chunkFmt (dtype : Nat) : Fmt := if dtype == 4 then .bf16 else .f32

/-- The elements of a payload. -/
def chunkElems (dtype : Nat) (b : List Byte) : List Nat :=
  let w := chunkWidth dtype
  (List.range (b.length / w)).map fun i => leNat ((b.drop (w * i)).take w)

/-- C1 of integer elements, the first of them counted i. -/
def weighted : Nat → List Nat → Nat
  | _, [] => 0
  | i, x :: rest => i * x + weighted (i + 1) rest

/-- The sum of elements in binary64, in ascending order, each addition RNE; magnitudes only for C1. -/
def sum64 (f : Fmt) (abs : Bool) (xs : List Nat) : Nat :=
  xs.foldl (fun acc x =>
    let v := f.convert .f64 0 false false x
    Fmt.f64.add 0 false false acc (if abs then v % 2 ^ 63 else v)) 0

/-- C0 and C1 of a chunk (R399). -/
def checksums (dtype : Nat) (xs : List Nat) : Nat × Nat :=
  if dtype ≤ 2 then
    let m := 2 ^ (8 * chunkWidth dtype)
    (sumNat xs % m, weighted 1 xs % m)
  else (sum64 (chunkFmt dtype) false xs, sum64 (chunkFmt dtype) true xs)

/-- Whether an element is infinite or NaN. -/
def chunkWild (dtype x : Nat) : Bool :=
  if dtype ≤ 2 then false
  else
    match (chunkFmt dtype).value x with
    | .fin _ _ _ => false
    | _ => true

/-- z of RECVADD, element by element (R399). -/
def chunkAdd (dtype a b : Nat) : Nat :=
  if dtype ≤ 2 then (a + b) % 2 ^ (8 * chunkWidth dtype) else (chunkFmt dtype).add 0 false false a b

/-- The tolerance check of R400 for dtypes 3 and 4, in exact arithmetic. -/
def withinBound (dtype : Nat) (ca cb cz : Nat × Nat) : Bool :=
  let v (x : Nat) : Num := Fmt.f64.value x
  let diff := Num.add 0 (Num.add 0 (v cz.1) (Num.neg (v ca.1))) (Num.neg (v cb.1))
  let mag := match diff with
    | .fin _ m e => Num.fin false m e
    | x => x
  let bound := Num.add 0 (Num.mul (.fin false 1 (if dtype == 4 then -7 else -22)) (Num.add 0 (v ca.2) (v cb.2)))
    (.fin false 1 (-120))
  match Num.cmp mag bound with
  | some .gt => false
  | some _ => true
  | none => false

/-- The check of a RECVADD chunk (R400): a, b, z and the checksums carried. -/
def addCheck (dtype : Nat) (a b z : List Nat) (carried : Nat × Nat) : Bool :=
  let ca := checksums dtype a
  let cz := checksums dtype z
  checksums dtype b == carried &&
    (if dtype ≤ 2 then
       let m := 2 ^ (8 * chunkWidth dtype)
       cz.1 == (ca.1 + carried.1) % m && cz.2 == (ca.2 + carried.2) % m
     else withinBound dtype ca carried cz)

/-! ### Descriptors at work (R396 to R400) -/

/-- Which instruction acts on a descriptor: 1 SEND, 2 RECV, 3 RECVADD or an op that R396 does not list. -/
def Cmd.linkOp (c : Cmd) : Nat := if c.op == 1 then 1 else if c.op == 2 then 2 else 3

/-- Whether two descriptors use one direction of one flow. -/
def Cmd.sameFlow (a b : Cmd) : Bool := a.group == b.group && a.flowNum == b.flowNum && (a.op == 1) == (b.op == 1)

/-- The descriptors that no earlier one of their flow precedes (R397). -/
def headDescs (cmds : List Cmd) : List Cmd :=
  cmds.foldl (fun hs c => if hs.any fun (h : Cmd) => h.sameFlow c then hs else hs ++ [c]) []

def Rx.is (x : Rx) (asid land index : Nat) : Bool := x.asid == asid && x.land == land && x.index == index

/-- How far a descriptor has come. -/
def State.rx (s : State) (asid land index : Nat) : Rx :=
  (findBy (fun (x : Rx) => x.is asid land index) s.rxs).getD
    { asid := asid, land := land, index := index, taken := 0, chunk := 0, nocheck := 0, firstNocheck := none }

def State.putRx (s : State) (x : Rx) : State :=
  { s with rxs := x :: s.rxs.filter fun (y : Rx) => !y.is x.asid x.land x.index }

/-- Whether a descriptor of another ring is in the middle of a message of the same direction of the flow. -/
def State.flowTaken (s : State) (asid land : Nat) (c : Cmd) : Bool :=
  s.rings.any fun (r : Ring) => r.land == land && r.asid != asid &&
    r.q.cmds.any fun (d : Cmd) => d.sameFlow c && decide (0 < (s.rx r.asid r.land d.index).taken)

/-- The status and cause of a descriptor whose memory access fails (R398). -/
def descFault (c : Cause) : Nat × Nat := if c == .ue then (1, Cause.ue.code) else (3, 0)

/-- Bytes of a source read at their L2 homes, and whether any arrives poisoned or fails its check value (R377, R378). -/
def State.linkRead (s : State) (asid : Nat) (pas : List Nat) : List Byte × Bool × State :=
  let secs := (distinct (pas.map fun a => a / 32)).map fun x => x * 32
  let bad := secs.filter fun a => s.homePoison a || s.checkFails a
  let t := bad.foldl (fun (s : State) a => s.logSector (if s.homePoison a then 2 else 3) a asid 0xFFFFFFFF) s
  (pas.map s.homeByte, !bad.isEmpty, t)

/-- One flit of a SEND (R391, R392, R397, R399). None where the flow has no room or no port. -/
def State.sendFlit (s : State) (asid land : Nat) (c : Cmd) : Option State :=
  let s := s.openFlow c.group c.flowNum
  match s.flow c.group c.flowNum with
  | none => none
  | some f =>
    match f.home with
    | none => none
    | some p =>
      if decide (4096 ≤ f.unacked.length) || s.flowTaken asid land c then none
      else
        let rx := s.rx asid land c.index
        let n := min 224 (c.size - rx.taken)
        match s.cpResolve asid (c.srcVa + rx.taken) n .read with
        | (.error (e, _), s) => some (s.completeDesc asid land c.index (descFault e).1 (descFault e).2)
        | (.ok pas, s) =>
          let r := s.linkRead asid pas
          let xs := chunkElems c.dtype r.1
          let sums := if c.dtype == 0 then (0, 0) else checksums c.dtype xs
          let final := rx.taken + n == c.size
          let x : Flit :=
            { flow := c.flowNum, kind := if c.dtype == 0 then 0 else 1, poison := r.2.1,
              nocheck := c.dtype != 0 && xs.any (chunkWild c.dtype), last := final, seq := f.nextSeq,
              c0 := BitVec.ofNat 64 sums.1, c1 := BitVec.ofNat 64 sums.2, dtype := c.dtype, ack := f.acked, payload := r.1 }
          let s := (r.2.2.updFlow c.group c.flowNum fun f =>
            { f with nextSeq := f.nextSeq + 1, unacked := f.unacked ++ [x] }).transmit p [x]
          let s := s.putRx { rx with taken := rx.taken + n, chunk := rx.chunk + 1 }
          some (if final then s.completeDesc asid land c.index 0 0 else s)

/-- A receive ends in failure, and the flits of its message up to LAST are discarded (R397). -/
def State.failRecv (s : State) (asid land : Nat) (c : Cmd) (status cause : Nat) : State :=
  let s := s.updFlow c.group c.flowNum fun f =>
    Flow.settle { f with discard := true, refused := none, fails := 0 }
  (s.ackNow c.group c.flowNum).completeDesc asid land c.index status cause

/-- A flit taken off its flow and written at its destination (R376, R397, R399). -/
def State.takeFlit (s : State) (asid land : Nat) (c : Cmd) (rx : Rx) (x : Flit) (pas : List Nat) (bytes : List Byte)
    (bad wild : Bool) : State :=
  let s := s.writeHome (pas.zip bytes)
  let s := if bad then pas.foldl (fun (s : State) a => s.markPoison a true) s else s
  let s := (s.updFlow c.group c.flowNum fun f => { f with inbox := f.inbox.drop 1, fails := 0 }).ackNow c.group c.flowNum
  let s := s.putRx
    { rx with taken := rx.taken + bytes.length, chunk := rx.chunk + 1, nocheck := rx.nocheck + flag wild,
              firstNocheck := if wild && rx.firstNocheck.isNone then some rx.chunk else rx.firstNocheck }
  if x.last then s.completeDesc asid land c.index 0 0 else s

/-- A chunk that fails its check (R400): sent again, or, the third time, its destination poisoned and the descriptor
failed. -/
def State.refuseChunk (s : State) (asid land : Nat) (c : Cmd) (f : Flow) (x : Flit) (pas : List Nat) (bytes : List Byte) :
    State :=
  if f.fails + 1 < 3 then
    (s.updFlow c.group c.flowNum fun f => { f with fails := f.fails + 1, refused := some x.seq }).sendControl c.group
      c.flowNum 3 x.seq
  else
    let s := s.writeHome (pas.zip bytes)
    let s := pas.foldl (fun (s : State) a => s.markPoison a true) s
    let s := s.logError 3 9 (16 + land) asid (pas.headD 0) 0xFFFFFFFF
    s.failRecv asid land c 1 Cause.ue.code

/-- One flit of a RECV or RECVADD (R397 to R400). None where no flit is there to take. A chunk is checked unless an element
of it is infinite or NaN, whatever its NOCHECK flag says. -/
def State.recvFlit (s : State) (asid land : Nat) (c : Cmd) : Option State :=
  let s := s.openFlow c.group c.flowNum
  match s.flow c.group c.flowNum with
  | none => none
  | some f =>
    match f.inbox with
    | [] => none
    | x :: _ =>
      if f.refused.isSome || s.flowTaken asid land c then none
      else
        let rx := s.rx asid land c.index
        let n := x.payload.length
        let final := rx.taken + n == c.size
        if x.kind != (if c.dtype == 0 then 0 else 1) || x.dtype != c.dtype || decide (c.size < rx.taken + n)
            || x.last != final then
          some (s.failRecv asid land c 1 Cause.opnd.code)
        else
          match s.cpResolve asid (c.dstVa + rx.taken) n .write with
          | (.error (e, _), s) => some (s.failRecv asid land c (descFault e).1 (descFault e).2)
          | (.ok pas, s) =>
            let b := chunkElems c.dtype x.payload
            let carried := (x.c0.toNat, x.c1.toNat)
            if c.op == 2 then
              let wild := b.any (chunkWild c.dtype)
              if c.dtype == 0 || wild || checksums c.dtype b == carried then
                some (s.takeFlit asid land c rx x pas x.payload x.poison wild)
              else some (s.refuseChunk asid land c f x pas x.payload)
            else
              match s.cpResolve asid (c.srcVa + rx.taken) n .read with
              | (.error (e, _), s) => some (s.failRecv asid land c (descFault e).1 (descFault e).2)
              | (.ok src, s) =>
                let r := s.linkRead asid src
                let a := chunkElems c.dtype r.1
                let z := (a.zip b).map fun (y : Nat × Nat) => chunkAdd c.dtype y.1 y.2
                let bytes := z.flatMap fun y => leBytes (chunkWidth c.dtype) y
                let wild := (a ++ b ++ z).any (chunkWild c.dtype)
                if wild || addCheck c.dtype a b z carried then
                  some (r.2.2.takeFlit asid land c rx x pas bytes (x.poison || r.2.1) wild)
                else some (r.2.2.refuseChunk asid land c f x pas bytes)

/-- What a descriptor at the head of its flow does next (R396). -/
def State.linkGo (s : State) (asid land : Nat) (c : Cmd) : Option State :=
  if !c.descLegal land then some (s.completeDesc asid land c.index 2 0)
  else if (c.op == 3 || c.dtype != 0) && !s.feature asid 14 then some (s.completeDesc asid land c.index 4 0)
  else if c.op == 1 then s.sendFlit asid land c
  else s.recvFlit asid land c

/-- The started descriptors of a ring that an instruction acts on, each the first of its flow (R397). -/
def Queue.running (q : Queue) (op : Nat) : List Cmd :=
  (headDescs q.cmds).filter fun (c : Cmd) => c.started && c.linkOp == op

/-- A descriptor that the arbiter starts (R64, R395), and what it does first if it heads its flow. -/
def State.linkStart (s : State) (asid land op : Nat) (r : Ring) : State :=
  match s.arbitrateRings land, r.q.nextDesc with
  | some p, some c =>
    if p.2 == asid && c.linkOp == op then
      let t := (s.turnTaken p).startDesc asid land c.index
      if (headDescs r.q.cmds).any fun (d : Cmd) => d.index == c.index then
        (t.linkGo asid land { c with started := true }).getD t
      else t
    else s
  | _, _ => s

/-- One step of a ring's descriptors of the kind an instruction acts on (R395, R397): the first started one that can go
on, or else the start of the next one. A ring in ERROR starts none, and its started ones run to completion (R65). -/
def State.linkStep (s : State) (asid land op : Nat) : State :=
  match s.ring asid land with
  | none => s
  | some r =>
    if !s.ctxActive asid || !(r.q.state.fetches || r.q.state == .error) then s
    else
      ((((r.q.running op).findSome? fun (c : Cmd) => s.linkGo asid land c).getD (s.linkStart asid land op r))).noteStalls

/-- SEND (R391, R392, R396 to R399). -/
def execSend (asid land : Nat) (s : State) : Out := .next (s.linkStep asid land 1)

/-- RECV (R396 to R400). -/
def execRecv (asid land : Nat) (s : State) : Out := .next (s.linkStep asid land 2)

/-- RECVADD (R396 to R400). -/
def execRecvadd (asid land : Nat) (s : State) : Out := .next (s.linkStep asid land 3)

/-! ### UCIe (R386, R387) -/

/-- UCIE_REPAIR (R386): a replay and a repair in a die's module are logged alike and change nothing else. The record names the
logical lane and the physical lane that R21 gives it on that die. -/
def execUcieRepair (_work : UcieWork) (die : Nat) (logical : BitVec 6) (s : State) : Out :=
  .next (s.logError 0 9 die 0 (logical.toNat + 256 * ucieLane die logical.toNat) 0xFFFFFFFF)

/-- The asids of the contexts with a crew or a task on a compute die (R387). -/
def State.onDie (s : State) (die : Nat) : List Nat :=
  (s.ctxs.map Ctx.asid).filter fun asid =>
    (s.crews.any fun (c : Crew) => c.die == die && c.state != .done && s.asidOf c.id == asid)
      || s.allInsts.any fun (x : Instance) => x.die == die && x.state != .ended &&
        (match s.task x.task with
         | some t => t.asid == asid
         | none => false)

/-- The effects of a link without modules (R387). Ports of a landing die are reached only through a lost link once both
of its links are lost. -/
def State.loseLink (s : State) (link : UcieLink) : State :=
  let s := { s with lostLinks := s.lostLinks ++ [link] }
  match link with
  | .ring _ => s
  | .base d =>
    (s.allInsts.filter fun (x : Instance) => x.die == d && x.state != .ended).foldl
      (fun (s : State) (x : Instance) =>
        match s.task x.task with
        | some t => if t.state == .running then s.failTask x.task x.rank Cause.ue.code true else s
        | none => s) s
  | .landing d =>
    if s.lostLinks.contains (.landing (d / 2 * 2)) && s.lostLinks.contains (.landing (d / 2 * 2 + 1)) then
      (List.range 9).foldl (fun (s : State) i =>
        match s.port (9 * (d / 2) + i) with
        | some p => if p.state == .fenced then s else s.enterPort p.num .fenced (some 5) 0
        | none => s) s
    else s
  | .harbour d =>
    (s.onDie d).foldl (fun (s : State) asid =>
      s.faultCtx asid { kind := 4, cause := .ue, address := 0, agents := 0, die := d }) s

/-- The modules of a link that are lost. -/
def State.modulesLost (s : State) (link : UcieLink) : Nat :=
  (s.lostModules.filter fun (x : UcieLink × Nat) => x.1 == link).length

/-- UCIE_MODULE_LOSS (R16, R387): a module is taken out of its link, which runs on its remaining modules. The loss of the
last one is the loss of the link. -/
def execUcieModuleLoss (module : UcieLink × Nat) (s : State) : Out :=
  .next
    (if decide (module.1.modules ≤ module.2) || s.lostModules.contains module then s
     else
       let s := { s with lostModules := s.lostModules ++ [module] }
       if s.modulesLost module.1 == module.1.modules then s.loseLink module.1 else s)

end Sys2Proof.Machine
end

