-- ==== Sys2Proof/Machine/Manage.lean ====
section
/-! DEFINITION. Host and management (R375, R401 to R408): the harbour control block, host accesses, error reports, the
error log, power, boot, attestation and firmware. -/

namespace Sys2Proof.Machine

open Sys2Proof

/-! ### The error log (R384, R405) -/

/-- The 32 bytes of an error record, 8 at a time (R384). -/
def ErrorRecord.word (r : ErrorRecord) : Nat → Word
  | 0 => Machine.word [(r.kind, 0), (r.unit, 8), (r.die, 16), (r.asid, 32)]
  | 1 => r.addr
  | 2 => r.crew.setWidth 64
  | _ => r.tick

def ErrorRecord.bytes (r : ErrorRecord) : List Byte := (List.range 4).flatMap fun i => leBytes 8 (r.word i).toNat

/-- A read of ERRLOG_POP (R405). -/
def State.popLog (s : State) : Word × State :=
  match s.errlog.recs with
  | [] => (0, s)
  | r :: rest =>
    (r.word s.errlog.reads,
     if s.errlog.reads < 3 then { s with errlog := { s.errlog with reads := s.errlog.reads + 1 } }
     else { s with errlog := { s.errlog with recs := rest, head := (s.errlog.head + 1) % 4096, reads := 0 } })

/-- ERRLOG_CTL (R405). -/
def ErrLog.ctl (l : ErrLog) : Word := word [(l.recs.length, 0), (l.head, 16), (l.lost, 48)]

/-! ### Power (R407, R408) -/

/-- A write of PWRCTL (R407). -/
def State.setLimit (s : State) (value : Word) : State :=
  { s with pwr := { s.pwr with limit := max 600 (min 1800 (field value 0 12)) } }

/-- PWRSTAT (R407). -/
def Power.stat (p : Power) : Word := word [(p.power, 0), (p.level, 32), (p.tmax, 48)]

/-! ### The harbour control block (R402) -/

/-- The host physical base of the block. -/
def harbourBase : Nat := 0x0080000000000000

/-- The bytes that the block's ports take up, from its base. -/
def harbourSize : Nat := 0x30000

/-- Whether a level may touch an offset of the block (R402). -/
def portAllows (lvl : HostLevel) (o : Nat) (write : Bool) : Bool :=
  if o < 0x10000 then lvl != .u
  else if o < 0x20000 then lvl == .m
  else lvl == .m || (lvl == .s && !write)

/-- An entry of the region table as its two words (R222). -/
def rgnWord (e : RgnEntry) (hi : Bool) : Word :=
  if hi then word [(e.size.toNat, 0), (e.pcOff.toNat, 32), (e.mode.toNat, 48), (e.stack.toNat, 56)] else e.base

def rgnPut (e : RgnEntry) (hi : Bool) (x : Word) : RgnEntry :=
  if hi then
    { e with size := x.setWidth 32, pcOff := BitVec.ofNat 16 (field x 32 16), mode := BitVec.ofNat 8 (field x 48 8),
             stack := BitVec.ofNat 8 (field x 56 8) }
  else { e with base := x }

def rgnTableWord (t : List RgnEntry) (o : Nat) : Word := rgnWord (t.getD (o / 16) RgnEntry.unused) (o / 8 % 2 == 1)

/-- CWPCTL and CWPSTAT of a port (R389). -/
def CwPort.word (p : CwPort) (stat : Bool) : Word :=
  if stat then Machine.word [(p.state.code, 0), (p.cause, 16), (p.lanes.toNat, 24), (p.retrains, 48)]
  else Machine.word [(flag p.enable, 0), (flag p.fence, 1)]

/-- A read of a register of the block, at its offset (R33, R50, R55, R226, R361, R373, R389, R395, R405, R407). -/
def State.portRead (s : State) (o : Nat) : Word × State :=
  if o == 0 then (s.cp.desc ||| s.cp.op.setWidth 64, s)
  else if o == 0x08 then (word [(flag s.cp.busy, 0), (flag s.cp.overrun, 1), (s.cp.code, 8), (s.cp.asid, 16)], s)
  else if o == 0x18 then (BitVec.ofNat 64 s.cp.drain, s)
  else if o == 0x20 then (s.cp.tlbiVa, s)
  else if o == 0x28 then
    (word [(s.cp.tlbiAsid.toNat, 0), (flag s.cp.tlbiMode, 12), (flag s.cp.tlbiBusy, 13), (s.cp.tlbiCode, 40)], s)
  else if o == 0x30 then (word [(s.cp.tlbiMissing.toNat, 0), (flag s.cp.tlbiOverrun, 17)], s)
  else if o == 0x4000 then (s.dbg.sel, s)
  else if o == 0x4008 then (s.dbg.cmd, s)
  else if o == 0x4010 then (word [(flag s.dbg.busy, 0), (s.dbg.code, 8)], s)
  else if o == 0x4018 then (s.dbg.data, s)
  else if 0x8000 ≤ o ∧ o < 0x8240 then
    (match s.port ((o - 0x8000) / 16) with
     | some p => p.word (o / 8 % 2 == 1)
     | none => 0, s)
  else if o == 0x8400 then (s.cwring, s)
  else if o == 0x10000 then
    (word [(flag s.rgn.busy, 0), (s.rgn.code, 16), (s.rgn.badIdx, 32), (s.rgn.gen.toNat, 48)], s)
  else if 0x11000 ≤ o ∧ o < 0x11400 then (rgnTableWord s.rgn.stage (o - 0x11000), s)
  else if 0x12000 ≤ o ∧ o < 0x12400 then (rgnTableWord s.rgn.active (o - 0x12000), s)
  else if o == 0x20000 then (BitVec.ofNat 64 s.pwr.limit, s)
  else if o == 0x20008 then (s.pwr.stat, s)
  else if o == 0x20010 then (s.errlog.ctl, s)
  else if o == 0x20018 then s.popLog
  else (0, s)

/-- A write of a register of the block by a level that may touch it; a write of a read-only register, or of an offset
not listed, is ignored (R9, R402). -/
def State.portWrite (s : State) (lvl : HostLevel) (o : Nat) (x : Word) : State :=
  if o == 0 then s.cpctl lvl x (field x 0 4)
  else if o == 0x08 then (if x.getLsbD 1 then { s with cp := { s.cp with overrun := false } } else s)
  else if o == 0x10 then s.doorbell x
  else if o == 0x18 then { s with cp := { s.cp with drain := max 1000 (min 1000000 (field x 0 32)) } }
  else if o == 0x20 then { s with cp := { s.cp with tlbiVa := BitVec.ofNat 64 (field x 0 57) } }
  else if o == 0x28 then s.cptlbi lvl (BitVec.ofNat 12 (field x 0 12)) (x.getLsbD 12)
  else if o == 0x30 then (if x.getLsbD 17 then { s with cp := { s.cp with tlbiOverrun := false } } else s)
  else if o == 0x4000 then { s with dbg := { s.dbg with sel := BitVec.ofNat 64 (field x 0 17) } }
  else if o == 0x4008 then s.debugCmd lvl x
  else if o == 0x4018 then { s with dbg := { s.dbg with data := x } }
  else if 0x8000 ≤ o ∧ o < 0x8240 then
    (if o / 8 % 2 == 0 then s.cwpctl ((o - 0x8000) / 16) (x.getLsbD 0) (x.getLsbD 1) else s)
  else if o == 0x8400 then s.cwringSet x
  else if o == 0x10000 then (if x.getLsbD 1 then s.rgnCommit else s)
  else if 0x11000 ≤ o ∧ o < 0x11400 then
    { s with rgn := { s.rgn with stage := setNth s.rgn.stage ((o - 0x11000) / 16) fun e => rgnPut e (o / 8 % 2 == 1) x } }
  else if o == 0x20000 then s.setLimit x
  else s

/-- A host store of a register of the block (R402): an access fault from a level not permitted, or outside the block. -/
def State.blockStore (s : State) (lvl : HostLevel) (addr : Nat) (x : Word) : State :=
  let o := addr - harbourBase
  if decide (addr < harbourBase ∨ harbourSize ≤ o) || addr % 8 != 0 || !portAllows lvl o true then { s with reply := .fault }
  else { s.portWrite lvl o x with reply := .none }

/-- A host load of a register of the block (R402). -/
def State.blockLoad (s : State) (lvl : HostLevel) (addr : Nat) : State :=
  let o := addr - harbourBase
  if decide (addr < harbourBase ∨ harbourSize ≤ o) || addr % 8 != 0 || !portAllows lvl o false then { s with reply := .fault }
  else { (s.portRead o).2 with reply := .value (s.portRead o).1 }

/-- REGISTER_WRITE (R9, R402). -/
def execRegisterWrite (lvl : HostLevel) (addr value : Word) (s : State) : Out := .next (s.blockStore lvl addr.toNat value)

/-! ### Host accesses (R401) -/

/-- The lines that n bytes at an address touch, with any that may have left the L2 settled (R231, R271). -/
def State.settleLines (s : State) (pa n : Nat) : State :=
  (distinct ((List.range n).map fun i => (pa + i) / 128)).foldl (fun (s : State) l => s.settleLine (l * 128)) s

def State.updHost (s : State) (n : Nat) (f : HostCore → HostCore) : State :=
  { s with hosts := updBy (fun (h : HostCore) => h.num == n) f s.hosts }

/-- The reservations of the other cores that a store to some bytes breaks. -/
def State.breakHosts (s : State) (core pa n : Nat) : State :=
  { s with hosts := s.hosts.map fun (h : HostCore) =>
      if h.num != core && h.reserved.any (fun d => decide (pa < 8 * d + 8 ∧ 8 * d < pa + n)) then
        { h with reserved := none } else h }

/-- The reservations of host cores whose doubleword reads as it did: a write of another agent that changes it breaks the
reservation. -/
def State.keepReservations (s old : State) : State :=
  if s.hosts.all fun (h : HostCore) => h.reserved.isNone then s
  else
    { s with hosts := s.hosts.map fun (h : HostCore) =>
        if h.reserved.any (fun d => (List.range 8).any fun i => s.homeByte (8 * d + i) != old.homeByte (8 * d + i)) then
          { h with reserved := none } else h }

/-- Whether n bytes are all of package physical memory (R221, R401). -/
def State.hostCovers (s : State) (pa n : Nat) : Bool := (List.range n).all fun i => s.covered (pa + i)

/-- A host store to physical memory (R401). -/
def State.hostStore (s : State) (core pa n : Nat) (x : Word) : State :=
  if s.hostCovers pa n then
    { ((s.settleLines pa n).writeHomeBytes pa (leBytes n x.toNat)).breakHosts core pa n with reply := .none }
  else { s with reply := .fault }

/-- A value returned to a host core: its register and the answer. A load that faults writes no register (R401). -/
def State.hostReturn (s : State) (core reg : Nat) (v : Word) : State :=
  { s.updHost core fun h => { h with x := if reg == 0 then h.x else setNth h.x reg fun _ => v } with reply := .value v }

/-- A host load of physical memory (R378, R401): none where it faults. -/
def State.hostLoad (s : State) (pa n : Nat) : Option Nat × State :=
  if s.hostCovers pa n then
    let s := s.settleLines pa n
    match s.badSector true pa n with
    | some a => (none, { s.logSector (if s.homePoison a then 2 else 3) a 0 0xFFFFFFFF with reply := .fault })
    | none => (some (s.homeVal pa n), s)
  else (none, { s with reply := .fault })

/-- n bytes read by a host core as its x register takes them: extended with zeros or with the sign. -/
def hostExtend (signed : Bool) (n x : Nat) : Word :=
  if signed && x.testBit (8 * n - 1) then BitVec.ofNat 64 (x + 2 ^ 64 - 2 ^ (8 * n)) else BitVec.ofNat 64 x

/-- The operation of an atomic of a host core on n bytes. -/
def HostAmo.apply (op : HostAmo) (n : Nat) (old data : Word) : Word :=
  let a := hostExtend true n (old.toNat % 2 ^ (8 * n))
  let b := hostExtend true n (data.toNat % 2 ^ (8 * n))
  match op with
  | .swap => b
  | .add => a + b
  | .xor => a ^^^ b
  | .and => a &&& b
  | .or => a ||| b
  | .min => if a.slt b then a else b
  | .max => if a.slt b then b else a
  | .minu => if a.ult b then a else b
  | .maxu => if a.ult b then b else a

/-- An access of package memory by a host core (R401). An atomic, a load-reserve and a store-conditional are of 4 or 8
aligned bytes. -/
def State.hostMemory (s : State) (a : HostAcc) : State :=
  let pa := a.addr.toNat
  let whole := (a.size == 4 || a.size == 8) && pa % a.size == 0
  match a.op with
  | .load signed =>
    (match s.hostLoad pa a.size with
     | (some x, t) => t.hostReturn a.core a.reg (hostExtend signed a.size x)
     | (none, t) => t)
  | .store x => s.hostStore a.core pa a.size x
  | .amo op x =>
    if !whole then { s with reply := .fault }
    else
      (match s.hostLoad pa a.size with
       | (some y, t) =>
         (t.hostStore a.core pa a.size (HostAmo.apply op a.size (BitVec.ofNat 64 y) x)).hostReturn a.core a.reg
           (hostExtend true a.size y)
       | (none, t) => t)
  | .reserve =>
    if !whole then { s with reply := .fault }
    else
      (match s.hostLoad pa a.size with
       | (some y, t) =>
         (t.updHost a.core fun h => { h with reserved := some (pa / 8) }).hostReturn a.core a.reg (hostExtend true a.size y)
       | (none, t) => t)
  | .conditional x =>
    if !whole || !s.hostCovers pa a.size then { s with reply := .fault }
    else
      let held := s.hosts.any fun (h : HostCore) => h.num == a.core && h.reserved == some (pa / 8)
      let t := s.updHost a.core fun h => { h with reserved := none }
      if held then (t.hostStore a.core pa a.size x).hostReturn a.core a.reg 0 else t.hostReturn a.core a.reg 1

/-- An access of the harbour control block by a host core (R402): loads and stores of 8 bytes alone. -/
def State.hostBlock (s : State) (a : HostAcc) : State :=
  if a.size != 8 then { s with reply := .fault }
  else
    match a.op with
    | .load _ =>
      let t := s.blockLoad a.lvl a.addr.toNat
      (match t.reply with
       | .value v => t.hostReturn a.core a.reg v
       | _ => t)
    | .store x => s.blockStore a.lvl a.addr.toNat x
    | _ => { s with reply := .fault }

/-- HOST_ACCESS (R401, R402): an access that a host core makes, at its physical address. The core that makes it runs, at
the level named (log 66). -/
def execHostAccess (a : HostAcc) (s : State) : Out :=
  .next
    (let s := s.updHost a.core fun h => { h with running := true, level := a.lvl }
     if decide (16 ≤ a.core) || !(a.size == 1 || a.size == 2 || a.size == 4 || a.size == 8) then { s with reply := .fault }
     else if a.addr.toNat < 2 ^ 52 then s.hostMemory a
     else s.hostBlock a)

/-- ERRLOG_POP (R402, R405). -/
def execErrlogPop (lvl : HostLevel) (s : State) : Out := .next (s.blockLoad lvl (harbourBase + 0x20018))

/-- PWRCTL_WRITE (R402, R406, R407): by a host core, or over the management port. -/
def execPwrctlWrite (src : PwrSource) (value : Word) (s : State) : Out :=
  .next
    (match src with
     | .host lvl => s.blockStore lvl (harbourBase + 0x20000) value
     | .port => { s.setLimit value with reply := .none })

/-- THROTTLE_ADJUST (R408), every 100 µs, with what the controller measures. -/
def execThrottleAdjust (power : BitVec 12) (tmax : BitVec 8) (s : State) : Out :=
  .next
    (if s.cycle < s.pwr.nextAdjust then s
     else
       let p := s.pwr
       let level :=
         if p.limit < power.toNat || 105 ≤ tmax.toNat then min 12 (p.level + 1)
         else if power.toNat * 100 < 95 * p.limit && tmax.toNat < 100 then p.level - 1
         else p.level
       { s with pwr := { p with power := power.toNat, tmax := tmax.toNat, level := level,
                                nextAdjust := p.nextAdjust + 100000 } })

/-! ### Errors (R375, R377, R382) -/

/-- The page in a bank of a core: its crew and bank handle. -/
def State.bankAt (s : State) (core site : Nat) : Option (Nat × Nat) :=
  (s.crews.filterMap fun (c : Crew) =>
    if c.core == core then
      (findBy (fun (x : Nat × Page) => x.2.site == site && x.2.state != .absent && x.2.state != .backed)
        ((List.range c.pages.length).zip c.pages)).map fun x => (c.id, x.1)
    else none).head?

/-- The row of R375 that names a storage array. -/
def ErrorSite.unit : ErrorSite → Nat
  | .laneReg _ _ _ => 0
  | .kReg _ _ => 1
  | .specialReg _ _ => 1
  | .l1 _ _ => 2
  | .l2 _ => 3
  | .multicastBuffer _ _ _ => 3
  | .bankRow _ _ _ => 4
  | .column _ _ _ => 5
  | .dram _ => 6
  | .baseSram _ _ _ => 7
  | .saveArea _ _ => 8
  | .checkValue _ _ => 9
  | .compute _ _ _ _ _ _ => 9

/-- The die of a storage array (R384). -/
def State.siteDie (s : State) : ErrorSite → Nat
  | .laneReg g _ _ => ((s.gang g).map fun (x : Gang) => coreDie x.core).getD 0
  | .kReg g _ => ((s.gang g).map fun (x : Gang) => coreDie x.core).getD 0
  | .specialReg g _ => ((s.gang g).map fun (x : Gang) => coreDie x.core).getD 0
  | .l1 core _ => coreDie core
  | .l2 pa => s.homeDie pa
  | .multicastBuffer cluster _ _ => cluster / 2
  | .bankRow core _ _ => coreDie core
  | .column core _ _ => coreDie core
  | .dram pa => 8 + s.homeDie pa
  | .baseSram die _ _ => 8 + die
  | .saveArea _ chunk => 8 + s.homeDie chunk
  | .checkValue pa _ => s.homeDie pa
  | .compute g _ _ _ _ _ => ((s.gang g).map fun (x : Gang) => coreDie x.core).getD 0

/-- The physical address that a record of the error names, or 0. -/
def ErrorSite.addr : ErrorSite → Nat
  | .l1 _ line => line * 128
  | .l2 pa => pa / 32 * 32
  | .dram pa => pa / 32 * 32
  | .saveArea _ chunk => chunk
  | _ => 0

/-- An uncorrectable error of a sector held by an L2 (R375). -/
def State.poisonL2 (s : State) (pa : Nat) : State :=
  if inWindow pa || (s.regionOf pa).isNone then s
  else
    match s.l2Line pa with
    | some _ => s.markPoison pa true
    | none =>
      let l := s.dramLine (pa / 128)
      { s with l2 := insertBy Line.num { l with poison := addNat l.poison (pa % 128 / 32) } s.l2 }

/-- An uncorrectable error of a multicast buffer (R375). -/
def State.poisonBuffered (s : State) (cluster index sector : Nat) : State :=
  match (s.multicast.filter fun (b : Buffered) => b.cluster == cluster)[index]? with
  | none => s
  | some b =>
    { s with multicast := updBy (fun (x : Buffered) => x == b) (fun x => { x with poison := addNat x.poison sector })
               s.multicast }

/-- A result that a fault in computation got wrong: bits flipped in a k register, or in one lane of a slot of the gang's
allotment (R382). -/
def Gang.flip (g : Gang) (scalar : Bool) (reg lane : Nat) (bits : Word) : Gang :=
  if scalar then { g with k := if reg == 0 then g.k else setNth g.k reg fun v => v ^^^ bits }
  else { g with regs := setNth g.regs reg fun row => setNth row lane fun v => v ^^^ bits.setWidth 32 }

/-- What an uncorrectable error does where it strikes (R375), a check value that changes (R377), a computation that goes
wrong under comparison (R382). -/
def State.strike (s : State) : ErrorSite → State
  | .laneReg g slot lane => s.updGang g fun x => { x with vPoison := (slot, lane) :: x.vPoison }
  | .kReg g r => if r == 0 then s else s.updGang g fun x => { x with kPoison := addNat x.kPoison r }
  | .specialReg g srn => s.updGang g fun x => { x with srPoison := addNat x.srPoison srn }
  | .l1 core line => s.l1Drop core line
  | .l2 pa => s.poisonL2 pa
  | .multicastBuffer cluster index sector => s.poisonBuffered cluster index sector
  | .bankRow core site row =>
    (match s.bankAt core site with
     | some x => s.updPage x.1 x.2 fun p => { p with poison := addNat p.poison row }
     | none => s)
  | .column core site col =>
    (match s.bankAt core site with
     | some x => s.updPage x.1 x.2 fun p => p.setCol col { p.col col with nan := true }
     | none => s)
  | .dram pa =>
    (match s.placeOf pa with
     | some p => if inWindow pa then s else { s with poison := addNat s.poison (p / 32) }
     | none => s)
  | .baseSram die core off =>
    if off < 131072 then
      s.mapInsts fun x =>
        if x.die == die && x.core == core && x.state == .running then { x with poison := addNat x.poison (off / 32) } else x
    else
      s.mapInsts fun x => if x.die == die && x.core == core && x.state == .saved then { x with saveUe := true } else x
  | .saveArea crew chunk => s.updCrew crew fun c => { c with saveBad := some chunk }
  | .checkValue pa value =>
    (match s.placeOf pa with
     | some p =>
       if inWindow pa then s
       else { s with checks := (p / 32, value) :: s.checks.filter fun (x : Nat × BitVec 16) => x.1 != p / 32 }
     | none => s)
  | .compute g shadow scalar reg lane flip =>
    if shadow then { s with shadows := updBy (fun (x : Gang) => x.ref == g) (fun x => x.flip scalar reg lane flip) s.shadows }
    else s.updGang g fun x => x.flip scalar reg lane flip

/-- Whether an error is reported as it strikes: one of a storage code, not one that only a check or a comparison finds. -/
def ErrorSite.coded : ErrorSite → Bool
  | .checkValue _ _ => false
  | .compute _ _ _ _ _ _ => false
  | _ => true

/-- The kind of the record of an error (R384): corrected, for an L1 line too, whose data is fetched again; else poison
created. -/
def ErrorSite.kind (e : ErrorSite) (corrected : Bool) : Nat :=
  match e with
  | .l1 _ _ => 0
  | _ => if corrected then 0 else 1

/-- SOFT_ERROR (R375, R377, R382, R384). -/
def execSoftError (e : ErrorSite) (corrected : Bool) (s : State) : Out :=
  .next
    (let t := if ErrorSite.coded e then
        s.logError (ErrorSite.kind e corrected) (ErrorSite.unit e) (s.siteDie e) 0 (ErrorSite.addr e) 0xFFFFFFFF
      else s
     if corrected && ErrorSite.coded e then t else t.strike e)

/-! ### Boot (R403) -/

/-- Whether an image passes step 2 of R403. -/
def State.imageOk (s : State) (i : Image) : Bool :=
  Config.signatureValid (Config.sha3 i.bytes) i.signature && decide (s.rollback ≤ i.version)

/-- The first image of a bundle that fails, none where every image passes. A bundle without an image fails at 0. -/
def State.bundleBad (s : State) (b : Bundle) : Option Nat :=
  if b.images.isEmpty then some 0
  else findBy (fun i => !(b.images[i]?.any s.imageOk)) (List.range b.images.length)

/-- The region table of 1,024 bytes (R222). -/
def tableOf (b : List Byte) : List RgnEntry :=
  let x := leNat b
  let put (i : Nat) (e : RgnEntry) (hi : Bool) : RgnEntry :=
    rgnPut e hi (BitVec.ofNat 64 (bytesAt x (16 * i + if hi then 8 else 0) 8))
  (List.range 64).map fun i => put i (put i RgnEntry.unused false) true

/-- Steps 3 to 5 of R403 with a verified bundle: the UCIe modules are trained, the region table of the platform image is
committed, and host core 0 is released in machine mode at the entry point of the host image. -/
def State.bootWith (s : State) (b : Bundle) : State :=
  let bytes := b.images.map Image.bytes
  let t := tableOf (Config.platformTable bytes)
  let rgn : RgnPort := match firstBad t with
    | none => { stage := t, active := t, gen := 1, badIdx := 0, code := 0, busy := false }
    | some i => { s.rgn with stage := t, badIdx := i, code := 1 }
  { s.updHost 0 fun h => { h with running := true, level := .m, pc := Config.hostEntry bytes } with
    trained := true, boot := .booted, running := b, fwMajor := b.major, fwMinor := b.minor, fwFix := b.fix, rgn := rgn }

/-- The package as a reset leaves it: what is fused or in flash, the bundle staged among it, and what DRAM holds if it
has kept its power. -/
def State.afterReset (s : State) : State :=
  let kept := s.boot != .off
  { State.reset with
    agenda := s.agenda, free := s.free, nextId := s.nextId, serial := s.serial, harvest := s.harvest,
    rollback := s.rollback, flash := s.staged.getD s.flash,
    dram := if kept then s.dram else [], poison := if kept then s.poison else [],
    checks := if kept then s.checks else [], lostLinks := s.lostLinks, lostModules := s.lostModules }

/-- PACKAGE_RESET (R403): reset and boot. -/
def execPackageReset (s : State) : Out :=
  .next
    (let s := s.afterReset
     match s.bundleBad s.flash with
     | some i => { s with boot := .fail i }
     | none => s.bootWith s.flash)

/-- THERMAL_TRIP (R408): at 115 °C an error record is appended and power removed. The spec gives the record no kind and
no unit: free values (log 7). -/
def execThermalTrip (s : State) : Out :=
  .next
    (if s.pwr.tmax < 115 then s
     else
       let v := s.freeVal 0
       let s := s.logError (field v 0 8) (field v 8 8) (field v 16 8) 0 0 0xFFFFFFFF
       { State.reset with
         agenda := s.agenda, free := s.free, nextId := s.nextId, serial := s.serial, harvest := s.harvest,
         rollback := s.rollback, flash := s.flash, staged := s.staged, errlog := s.errlog, lostLinks := s.lostLinks,
         lostModules := s.lostModules,
         boot := .off })

/-! ### The management port (R404, R406) -/

/-- n bytes of a list, zeros after its end. -/
def padTo (n : Nat) (b : List Byte) : List Byte := b.take n ++ List.replicate (n - b.length) 0

/-- Bytes +0x000 to +0x2FF of an attestation report (R404). -/
def State.reportBody (s : State) (nonce : List Byte) : List Byte :=
  let images := s.running.images
  let masks := s.harvest.flatMap fun m => leBytes 16 m.toNat
  padTo 0x300
    (padTo 64 nonce ++ (List.range 64).map s.idByte ++ (List.range 4).flatMap (fun i => leBytes 8 (featCap i).toNat)
      ++ leBytes 64 (Config.sha3 masks).toNat ++ leBytes 8 s.rollback ++ leBytes 8 (min 8 images.length)
      ++ (images.take 8).flatMap fun i => leBytes 64 (Config.sha3 i.bytes).toNat)

/-- ATTESTATION_REQUEST (R404), over the management port or by Host M. -/
def execAttestationRequest (_viaHostM : Bool) (nonce : List Byte) (s : State) : Out :=
  .next
    (let body := s.reportBody nonce
     { s with reply := .bytes (body ++ padTo 4627 (Config.sign (Config.sha3 body))) })

/-- FIRMWARE_STAGE (R406): a bundle that passes is staged; one that does not changes nothing. -/
def execFirmwareStage (b : Bundle) (s : State) : Out :=
  .next
    (if (s.bundleBad b).isSome then { s with reply := .fault } else { s with staged := some b, reply := .none })

/-- MGMT_READ (R2, R403, R405, R406). The spec gives the inventory no layout (log 8). -/
def execMgmtRead (item : MgmtItem) (s : State) : Out :=
  .next
    (match item with
     | .inventory => { s with reply := .bytes Config.inventory }
     | .idBlock => { s with reply := .bytes ((List.range 64).map s.idByte) }
     | .errorLog => { s with reply := .bytes (s.errlog.recs.flatMap ErrorRecord.bytes) }
     | .powerLimit => { s with reply := .value (BitVec.ofNat 64 s.pwr.limit) }
     | .bootStatus =>
       (match s.boot with
        | .fail i => { s with reply := .bootFail i }
        | _ => { s with reply := .none }))

end Sys2Proof.Machine
end

