-- ==== Sys2Proof/Machine/Dispatch.lean ====
section
/-! DEFINITION. The dispatch: one meaning for each row of the opcode table. -/

namespace Sys2Proof.Machine

open Sys2Proof

/-- What an instruction or a device step does. -/
def exec (i : Instr) (s : State) : Host.Outcome State Fault Refusal :=
  match i with
  | .kadd x1 x2 x3 => Sys2Proof.Machine.execKadd x1 x2 x3 s
  | .ksub x1 x2 x3 => Sys2Proof.Machine.execKsub x1 x2 x3 s
  | .kand x1 x2 x3 => Sys2Proof.Machine.execKand x1 x2 x3 s
  | .kor x1 x2 x3 => Sys2Proof.Machine.execKor x1 x2 x3 s
  | .kxor x1 x2 x3 => Sys2Proof.Machine.execKxor x1 x2 x3 s
  | .kshl x1 x2 x3 => Sys2Proof.Machine.execKshl x1 x2 x3 s
  | .kshr x1 x2 x3 => Sys2Proof.Machine.execKshr x1 x2 x3 s
  | .ksra x1 x2 x3 => Sys2Proof.Machine.execKsra x1 x2 x3 s
  | .kmul x1 x2 x3 => Sys2Proof.Machine.execKmul x1 x2 x3 s
  | .kmulh x1 x2 x3 => Sys2Proof.Machine.execKmulh x1 x2 x3 s
  | .kmulhn x1 x2 x3 => Sys2Proof.Machine.execKmulhn x1 x2 x3 s
  | .kdiv x1 x2 x3 => Sys2Proof.Machine.execKdiv x1 x2 x3 s
  | .kdivn x1 x2 x3 => Sys2Proof.Machine.execKdivn x1 x2 x3 s
  | .krem x1 x2 x3 => Sys2Proof.Machine.execKrem x1 x2 x3 s
  | .kremn x1 x2 x3 => Sys2Proof.Machine.execKremn x1 x2 x3 s
  | .kmin x1 x2 x3 => Sys2Proof.Machine.execKmin x1 x2 x3 s
  | .kmax x1 x2 x3 => Sys2Proof.Machine.execKmax x1 x2 x3 s
  | .kminn x1 x2 x3 => Sys2Proof.Machine.execKminn x1 x2 x3 s
  | .kmaxn x1 x2 x3 => Sys2Proof.Machine.execKmaxn x1 x2 x3 s
  | .kslt x1 x2 x3 => Sys2Proof.Machine.execKslt x1 x2 x3 s
  | .ksltn x1 x2 x3 => Sys2Proof.Machine.execKsltn x1 x2 x3 s
  | .kseq x1 x2 x3 => Sys2Proof.Machine.execKseq x1 x2 x3 s
  | .kclz x1 x2 => Sys2Proof.Machine.execKclz x1 x2 s
  | .kpopc x1 x2 => Sys2Proof.Machine.execKpopc x1 x2 s
  | .kaddi x1 x2 x3 => Sys2Proof.Machine.execKaddi x1 x2 x3 s
  | .kandi x1 x2 x3 => Sys2Proof.Machine.execKandi x1 x2 x3 s
  | .kori x1 x2 x3 => Sys2Proof.Machine.execKori x1 x2 x3 s
  | .kxori x1 x2 x3 => Sys2Proof.Machine.execKxori x1 x2 x3 s
  | .kshli x1 x2 x3 => Sys2Proof.Machine.execKshli x1 x2 x3 s
  | .kshri x1 x2 x3 => Sys2Proof.Machine.execKshri x1 x2 x3 s
  | .ksrai x1 x2 x3 => Sys2Proof.Machine.execKsrai x1 x2 x3 s
  | .kslti x1 x2 x3 => Sys2Proof.Machine.execKslti x1 x2 x3 s
  | .ksltni x1 x2 x3 => Sys2Proof.Machine.execKsltni x1 x2 x3 s
  | .klui x1 x2 => Sys2Proof.Machine.execKlui x1 x2 s
  | .kins x1 x2 x3 x4 => Sys2Proof.Machine.execKins x1 x2 x3 x4 s
  | .kld x1 x2 x3 x4 x5 => Sys2Proof.Machine.execKld x1 x2 x3 x4 x5 s
  | .kst x1 x2 x3 x4 x5 => Sys2Proof.Machine.execKst x1 x2 x3 x4 x5 s
  | .kbr x1 x2 x3 => Sys2Proof.Machine.execKbr x1 x2 x3 s
  | .kjal x1 => Sys2Proof.Machine.execKjal x1 s
  | .kjalr x1 x2 x3 => Sys2Proof.Machine.execKjalr x1 x2 x3 s
  | .kcall x1 x2 => Sys2Proof.Machine.execKcall x1 x2 s
  | .kret x1 => Sys2Proof.Machine.execKret x1 s
  | .lbk x1 x2 => Sys2Proof.Machine.execLbk x1 x2 s
  | .lget x1 x2 => Sys2Proof.Machine.execLget x1 x2 s
  | .lslots x1 => Sys2Proof.Machine.execLslots x1 s
  | .csrr x1 x2 => Sys2Proof.Machine.execCsrr x1 x2 s
  | .csrw x1 x2 => Sys2Proof.Machine.execCsrw x1 x2 s
  | .ktrap x1 => Sys2Proof.Machine.execKtrap x1 s
  | .sgld x1 => Sys2Proof.Machine.execSgld x1 s
  | .ktlbi x1 x2 => Sys2Proof.Machine.execKtlbi x1 x2 s
  | .fence x1 x2 => Sys2Proof.Machine.execFence x1 x2 s
  | .fenceAcq x1 x2 => Sys2Proof.Machine.execFenceAcq x1 x2 s
  | .fenceRel x1 x2 => Sys2Proof.Machine.execFenceRel x1 x2 s
  | .fenceSc x1 x2 => Sys2Proof.Machine.execFenceSc x1 x2 s
  | .fencex x1 x2 x3 => Sys2Proof.Machine.execFencex x1 x2 x3 s
  | .pwait x1 x2 => Sys2Proof.Machine.execPwait x1 x2 s
  | .cbwait x1 => Sys2Proof.Machine.execCbwait x1 s
  | .cseal x1 => Sys2Proof.Machine.execCseal x1 s
  | .srec x1 x2 => Sys2Proof.Machine.execSrec x1 x2 s
  | .cpm x1 => Sys2Proof.Machine.execCpm x1 s
  | .barinit x1 x2 => Sys2Proof.Machine.execBarinit x1 x2 s
  | .barr x1 x2 => Sys2Proof.Machine.execBarr x1 x2 s
  | .barw x1 x2 => Sys2Proof.Machine.execBarw x1 x2 s
  | .barrw x1 x2 => Sys2Proof.Machine.execBarrw x1 x2 s
  | .barx x1 x2 => Sys2Proof.Machine.execBarx x1 x2 s
  | .rgrow x1 x2 => Sys2Proof.Machine.execRgrow x1 x2 s
  | .rshrk x1 x2 => Sys2Proof.Machine.execRshrk x1 x2 s
  | .racq x1 => Sys2Proof.Machine.execRacq x1 s
  | .bmodeStor x1 => Sys2Proof.Machine.execBmodeStor x1 s
  | .bmodeComp x1 => Sys2Proof.Machine.execBmodeComp x1 s
  | .bstepOff x1 => Sys2Proof.Machine.execBstepOff x1 s
  | .bstepOn x1 => Sys2Proof.Machine.execBstepOn x1 s
  | .bstepStep x1 => Sys2Proof.Machine.execBstepStep x1 s
  | .bquery x1 x2 => Sys2Proof.Machine.execBquery x1 x2 s
  | .bsync x1 => Sys2Proof.Machine.execBsync x1 s
  | .bvAdd x1 => Sys2Proof.Machine.execBvAdd x1 s
  | .bvSub x1 => Sys2Proof.Machine.execBvSub x1 s
  | .bvMul x1 => Sys2Proof.Machine.execBvMul x1 s
  | .bvNeg x1 => Sys2Proof.Machine.execBvNeg x1 s
  | .bvAddk x1 x2 => Sys2Proof.Machine.execBvAddk x1 x2 s
  | .bvAnd x1 => Sys2Proof.Machine.execBvAnd x1 s
  | .bvOr x1 => Sys2Proof.Machine.execBvOr x1 s
  | .bvXor x1 => Sys2Proof.Machine.execBvXor x1 s
  | .bvNot x1 => Sys2Proof.Machine.execBvNot x1 s
  | .bvCpy x1 => Sys2Proof.Machine.execBvCpy x1 s
  | .bvSet x1 x2 => Sys2Proof.Machine.execBvSet x1 x2 s
  | .bvShl x1 x2 => Sys2Proof.Machine.execBvShl x1 x2 s
  | .bvShr x1 x2 => Sys2Proof.Machine.execBvShr x1 x2 s
  | .bvCmpeq x1 => Sys2Proof.Machine.execBvCmpeq x1 s
  | .bvCmplt x1 => Sys2Proof.Machine.execBvCmplt x1 s
  | .bvCmpltn x1 => Sys2Proof.Machine.execBvCmpltn x1 s
  | .bvSel x1 => Sys2Proof.Machine.execBvSel x1 s
  | .bvPld x1 => Sys2Proof.Machine.execBvPld x1 s
  | .bvPst x1 => Sys2Proof.Machine.execBvPst x1 s
  | .mtx x1 x2 => Sys2Proof.Machine.execMtx x1 x2 s
  | .mclr x1 => Sys2Proof.Machine.execMclr x1 s
  | .mdrain x1 x2 => Sys2Proof.Machine.execMdrain x1 x2 s
  | .klaunch x1 x2 => Sys2Proof.Machine.execKlaunch x1 x2 s
  | .bdsub x1 x2 => Sys2Proof.Machine.execBdsub x1 x2 s
  | .vbeg x1 => Sys2Proof.Machine.execVbeg x1 s
  | .vcom x1 => Sys2Proof.Machine.execVcom x1 s
  | .iadd x1 => Sys2Proof.Machine.execIadd x1 s
  | .isub x1 => Sys2Proof.Machine.execIsub x1 s
  | .imul x1 => Sys2Proof.Machine.execImul x1 s
  | .imulh x1 => Sys2Proof.Machine.execImulh x1 s
  | .imad x1 => Sys2Proof.Machine.execImad x1 s
  | .iabs x1 => Sys2Proof.Machine.execIabs x1 s
  | .ineg x1 => Sys2Proof.Machine.execIneg x1 s
  | .imin x1 => Sys2Proof.Machine.execImin x1 s
  | .imax x1 => Sys2Proof.Machine.execImax x1 s
  | .iaddc x1 => Sys2Proof.Machine.execIaddc x1 s
  | .isad x1 => Sys2Proof.Machine.execIsad x1 s
  | .idp4 x1 => Sys2Proof.Machine.execIdp4 x1 s
  | .lAnd x1 => Sys2Proof.Machine.execLAnd x1 s
  | .lOr x1 => Sys2Proof.Machine.execLOr x1 s
  | .lXor x1 => Sys2Proof.Machine.execLXor x1 s
  | .lNot x1 => Sys2Proof.Machine.execLNot x1 s
  | .andn x1 => Sys2Proof.Machine.execAndn x1 s
  | .lop3 x1 => Sys2Proof.Machine.execLop3 x1 s
  | .shl x1 => Sys2Proof.Machine.execShl x1 s
  | .shr x1 => Sys2Proof.Machine.execShr x1 s
  | .sra x1 => Sys2Proof.Machine.execSra x1 s
  | .rotl x1 => Sys2Proof.Machine.execRotl x1 s
  | .popc x1 => Sys2Proof.Machine.execPopc x1 s
  | .clz x1 => Sys2Proof.Machine.execClz x1 s
  | .brev x1 => Sys2Proof.Machine.execBrev x1 s
  | .bfe x1 => Sys2Proof.Machine.execBfe x1 s
  | .bfi x1 => Sys2Proof.Machine.execBfi x1 s
  | .prmt x1 => Sys2Proof.Machine.execPrmt x1 s
  | .icmp x1 => Sys2Proof.Machine.execIcmp x1 s
  | .pand x1 => Sys2Proof.Machine.execPand x1 s
  | .por x1 => Sys2Proof.Machine.execPor x1 s
  | .pxor x1 => Sys2Proof.Machine.execPxor x1 s
  | .pnot x1 => Sys2Proof.Machine.execPnot x1 s
  | .mov x1 => Sys2Proof.Machine.execMov x1 s
  | .movi x1 => Sys2Proof.Machine.execMovi x1 s
  | .sel x1 => Sys2Proof.Machine.execSel x1 s
  | .getsr x1 => Sys2Proof.Machine.execGetsr x1 s
  | .cvt x1 => Sys2Proof.Machine.execCvt x1 s
  | .cvtPk x1 => Sys2Proof.Machine.execCvtPk x1 s
  | .cvtQ8 x1 => Sys2Proof.Machine.execCvtQ8 x1 s
  | .fadd x1 => Sys2Proof.Machine.execFadd x1 s
  | .fsub x1 => Sys2Proof.Machine.execFsub x1 s
  | .fmul x1 => Sys2Proof.Machine.execFmul x1 s
  | .ffma x1 => Sys2Proof.Machine.execFfma x1 s
  | .fmin x1 => Sys2Proof.Machine.execFmin x1 s
  | .fmax x1 => Sys2Proof.Machine.execFmax x1 s
  | .fabs x1 => Sys2Proof.Machine.execFabs x1 s
  | .fneg x1 => Sys2Proof.Machine.execFneg x1 s
  | .fscale x1 => Sys2Proof.Machine.execFscale x1 s
  | .fcmp x1 => Sys2Proof.Machine.execFcmp x1 s
  | .fclass x1 => Sys2Proof.Machine.execFclass x1 s
  | .frcp x1 => Sys2Proof.Machine.execFrcp x1 s
  | .frsq x1 => Sys2Proof.Machine.execFrsq x1 s
  | .fsqrt x1 => Sys2Proof.Machine.execFsqrt x1 s
  | .fdiv x1 => Sys2Proof.Machine.execFdiv x1 s
  | .fexp2 x1 => Sys2Proof.Machine.execFexp2 x1 s
  | .flog2 x1 => Sys2Proof.Machine.execFlog2 x1 s
  | .fsin x1 => Sys2Proof.Machine.execFsin x1 s
  | .fcos x1 => Sys2Proof.Machine.execFcos x1 s
  | .smm8 x1 => Sys2Proof.Machine.execSmm8 x1 s
  | .smm8Tb x1 => Sys2Proof.Machine.execSmm8Tb x1 s
  | .shfl x1 => Sys2Proof.Machine.execShfl x1 s
  | .vote x1 => Sys2Proof.Machine.execVote x1 s
  | .ballot x1 => Sys2Proof.Machine.execBallot x1 s
  | .redux x1 => Sys2Proof.Machine.execRedux x1 s
  | .xmatch x1 => Sys2Proof.Machine.execXmatch x1 s
  | .scan x1 => Sys2Proof.Machine.execScan x1 s
  | .ld x1 => Sys2Proof.Machine.execLd x1 s
  | .ldRec x1 => Sys2Proof.Machine.execLdRec x1 s
  | .st x1 => Sys2Proof.Machine.execSt x1 s
  | .atomAdd x1 => Sys2Proof.Machine.execAtomAdd x1 s
  | .atomMin x1 => Sys2Proof.Machine.execAtomMin x1 s
  | .atomMax x1 => Sys2Proof.Machine.execAtomMax x1 s
  | .atomMinn x1 => Sys2Proof.Machine.execAtomMinn x1 s
  | .atomMaxn x1 => Sys2Proof.Machine.execAtomMaxn x1 s
  | .atomAnd x1 => Sys2Proof.Machine.execAtomAnd x1 s
  | .atomOr x1 => Sys2Proof.Machine.execAtomOr x1 s
  | .atomXor x1 => Sys2Proof.Machine.execAtomXor x1 s
  | .atomExch x1 => Sys2Proof.Machine.execAtomExch x1 s
  | .atomCas x1 => Sys2Proof.Machine.execAtomCas x1 s
  | .atomFadd x1 => Sys2Proof.Machine.execAtomFadd x1 s
  | .cpa x1 => Sys2Proof.Machine.execCpa x1 s
  | .cpt x1 => Sys2Proof.Machine.execCpt x1 s
  | .bra x1 => Sys2Proof.Machine.execBra x1 s
  | .cpr x1 => Sys2Proof.Machine.execCpr x1 s
  | .cpw x1 => Sys2Proof.Machine.execCpw x1 s
  | .xfmTr x1 => Sys2Proof.Machine.execXfmTr x1 s
  | .xfmQ x1 => Sys2Proof.Machine.execXfmQ x1 s
  | .xfmDq x1 => Sys2Proof.Machine.execXfmDq x1 s
  | .xfmX4 x1 => Sys2Proof.Machine.execXfmX4 x1 s
  | .xfmZc x1 => Sys2Proof.Machine.execXfmZc x1 s
  | .xfmZd x1 => Sys2Proof.Machine.execXfmZd x1 s
  | .lnop x1 => Sys2Proof.Machine.execLnop x1 s
  | .lstat x1 => Sys2Proof.Machine.execLstat x1 s
  | .lclock x1 => Sys2Proof.Machine.execLclock x1 s
  | .sadd x1 x2 x3 => Sys2Proof.Machine.execSadd x1 x2 x3 s
  | .ssub x1 x2 x3 => Sys2Proof.Machine.execSsub x1 x2 x3 s
  | .sand x1 x2 x3 => Sys2Proof.Machine.execSand x1 x2 x3 s
  | .sor x1 x2 x3 => Sys2Proof.Machine.execSor x1 x2 x3 s
  | .sxor x1 x2 x3 => Sys2Proof.Machine.execSxor x1 x2 x3 s
  | .sshl x1 x2 x3 => Sys2Proof.Machine.execSshl x1 x2 x3 s
  | .sshr x1 x2 x3 => Sys2Proof.Machine.execSshr x1 x2 x3 s
  | .ssra x1 x2 x3 => Sys2Proof.Machine.execSsra x1 x2 x3 s
  | .smul x1 x2 x3 => Sys2Proof.Machine.execSmul x1 x2 x3 s
  | .sslt x1 x2 x3 => Sys2Proof.Machine.execSslt x1 x2 x3 s
  | .ssltn x1 x2 x3 => Sys2Proof.Machine.execSsltn x1 x2 x3 s
  | .saddi x1 x2 x3 => Sys2Proof.Machine.execSaddi x1 x2 x3 s
  | .sli x1 x2 => Sys2Proof.Machine.execSli x1 x2 s
  | .slhi x1 x2 => Sys2Proof.Machine.execSlhi x1 x2 s
  | .sld x1 x2 x3 x4 x5 => Sys2Proof.Machine.execSld x1 x2 x3 x4 x5 s
  | .sst x1 x2 x3 x4 x5 => Sys2Proof.Machine.execSst x1 x2 x3 x4 x5 s
  | .sbeq x1 x2 x3 => Sys2Proof.Machine.execSbeq x1 x2 x3 s
  | .sbne x1 x2 x3 => Sys2Proof.Machine.execSbne x1 x2 x3 s
  | .sblt x1 x2 x3 => Sys2Proof.Machine.execSblt x1 x2 x3 s
  | .sbge x1 x2 x3 => Sys2Proof.Machine.execSbge x1 x2 x3 s
  | .sjal x1 x2 => Sys2Proof.Machine.execSjal x1 x2 s
  | .sjr x1 x2 x3 => Sys2Proof.Machine.execSjr x1 x2 x3 s
  | .vld x1 x2 x3 x4 => Sys2Proof.Machine.execVld x1 x2 x3 x4 s
  | .vst x1 x2 x3 x4 => Sys2Proof.Machine.execVst x1 x2 x3 x4 s
  | .vlds x1 x2 x3 x4 x5 => Sys2Proof.Machine.execVlds x1 x2 x3 x4 x5 s
  | .vsts x1 x2 x3 x4 x5 => Sys2Proof.Machine.execVsts x1 x2 x3 x4 x5 s
  | .vsplat x1 x2 => Sys2Proof.Machine.execVsplat x1 x2 s
  | .vadd x1 x2 x3 x4 x5 x6 => Sys2Proof.Machine.execVadd x1 x2 x3 x4 x5 x6 s
  | .vsub x1 x2 x3 x4 x5 x6 => Sys2Proof.Machine.execVsub x1 x2 x3 x4 x5 x6 s
  | .vmul x1 x2 x3 x4 x5 x6 => Sys2Proof.Machine.execVmul x1 x2 x3 x4 x5 x6 s
  | .vfma x1 x2 x3 x4 x5 => Sys2Proof.Machine.execVfma x1 x2 x3 x4 x5 s
  | .vmin x1 x2 x3 x4 x5 => Sys2Proof.Machine.execVmin x1 x2 x3 x4 x5 s
  | .vmax x1 x2 x3 x4 x5 => Sys2Proof.Machine.execVmax x1 x2 x3 x4 x5 s
  | .vcvt x1 x2 x3 x4 x5 => Sys2Proof.Machine.execVcvt x1 x2 x3 x4 x5 s
  | .vbaccF32 x1 x2 => Sys2Proof.Machine.execVbaccF32 x1 x2 s
  | .vbaccMulF32 x1 x2 x3 => Sys2Proof.Machine.execVbaccMulF32 x1 x2 x3 s
  | .vbaccMulBf16 x1 x2 x3 => Sys2Proof.Machine.execVbaccMulBf16 x1 x2 x3 s
  | .vbrd x1 x2 => Sys2Proof.Machine.execVbrd x1 x2 s
  | .vbclr x1 => Sys2Proof.Machine.execVbclr x1 s
  | .vhsum x1 x2 => Sys2Proof.Machine.execVhsum x1 x2 s
  | .msend x1 x2 => Sys2Proof.Machine.execMsend x1 x2 s
  | .mrecv x1 x2 => Sys2Proof.Machine.execMrecv x1 x2 s
  | .mwait x1 x2 => Sys2Proof.Machine.execMwait x1 x2 s
  | .mpoll x1 x2 => Sys2Proof.Machine.execMpoll x1 x2 s
  | .sflag x1 x2 x3 => Sys2Proof.Machine.execSflag x1 x2 x3 s
  | .scsrr x1 x2 => Sys2Proof.Machine.execScsrr x1 x2 s
  | .scsrw x1 x2 => Sys2Proof.Machine.execScsrw x1 x2 s
  | .instructionFetchFault x1 x2 => Sys2Proof.Machine.execInstructionFetchFault x1 x2 s
  | .illegalInstruction x1 => Sys2Proof.Machine.execIllegalInstruction x1 s
  | .lsync => Sys2Proof.Machine.execLsync s
  | .knop => Sys2Proof.Machine.execKnop s
  | .keret => Sys2Proof.Machine.execKeret s
  | .kend => Sys2Proof.Machine.execKend s
  | .kbrk => Sys2Proof.Machine.execKbrk s
  | .kyield => Sys2Proof.Machine.execKyield s
  | .join => Sys2Proof.Machine.execJoin s
  | .lend => Sys2Proof.Machine.execLend s
  | .sfence => Sys2Proof.Machine.execSfence s
  | .shalt => Sys2Proof.Machine.execShalt s
  | .syield => Sys2Proof.Machine.execSyield s
  | .packageReset => Sys2Proof.Machine.execPackageReset s
  | .create x1 x2 => Sys2Proof.Machine.execCreate x1 x2 s
  | .enable x1 x2 => Sys2Proof.Machine.execEnable x1 x2 s
  | .quiesce x1 x2 => Sys2Proof.Machine.execQuiesce x1 x2 s
  | .quiesceDone x1 => Sys2Proof.Machine.execQuiesceDone x1 s
  | .resume x1 x2 => Sys2Proof.Machine.execResume x1 x2 s
  | .destroy x1 x2 => Sys2Proof.Machine.execDestroy x1 x2 s
  | .cpctlBadop x1 x2 => Sys2Proof.Machine.execCpctlBadop x1 x2 s
  | .cptlbiPage x1 x2 => Sys2Proof.Machine.execCptlbiPage x1 x2 s
  | .cptlbiAll x1 x2 => Sys2Proof.Machine.execCptlbiAll x1 x2 s
  | .tlbiAck x1 x2 => Sys2Proof.Machine.execTlbiAck x1 x2 s
  | .tlbiTimeout x1 => Sys2Proof.Machine.execTlbiTimeout x1 s
  | .doorbell x1 x2 => Sys2Proof.Machine.execDoorbell x1 x2 s
  | .widxPoll x1 x2 => Sys2Proof.Machine.execWidxPoll x1 x2 s
  | .launch x1 x2 => Sys2Proof.Machine.execLaunch x1 x2 s
  | .copy x1 x2 => Sys2Proof.Machine.execCopy x1 x2 s
  | .copyCommandDone x1 x2 x3 => Sys2Proof.Machine.execCopyCommandDone x1 x2 x3 s
  | .stacktask x1 x2 => Sys2Proof.Machine.execStacktask x1 x2 s
  | .wait x1 x2 => Sys2Proof.Machine.execWait x1 x2 s
  | .waitEval x1 x2 x3 => Sys2Proof.Machine.execWaitEval x1 x2 x3 s
  | .signal x1 x2 => Sys2Proof.Machine.execSignal x1 x2 s
  | .aggregateClose x1 => Sys2Proof.Machine.execAggregateClose x1 s
  | .crewAdmit x1 => Sys2Proof.Machine.execCrewAdmit x1 s
  | .crewWakeDone x1 => Sys2Proof.Machine.execCrewWakeDone x1 s
  | .preempt x1 => Sys2Proof.Machine.execPreempt x1 s
  | .shadowSwapDone x1 => Sys2Proof.Machine.execShadowSwapDone x1 s
  | .saveEngineWrite x1 x2 => Sys2Proof.Machine.execSaveEngineWrite x1 x2 s
  | .copyDrainLimit x1 => Sys2Proof.Machine.execCopyDrainLimit x1 s
  | .pageWritebackDone x1 x2 => Sys2Proof.Machine.execPageWritebackDone x1 x2 s
  | .crewRestore x1 x2 => Sys2Proof.Machine.execCrewRestore x1 x2 s
  | .pageRefillDone x1 x2 x3 => Sys2Proof.Machine.execPageRefillDone x1 x2 x3 s
  | .grant x1 => Sys2Proof.Machine.execGrant x1 s
  | .deadlock x1 => Sys2Proof.Machine.execDeadlock x1 s
  | .regbankPowerGate x1 x2 => Sys2Proof.Machine.execRegbankPowerGate x1 x2 s
  | .chainBreak x1 => Sys2Proof.Machine.execChainBreak x1 s
  | .kyieldExpire x1 => Sys2Proof.Machine.execKyieldExpire x1 s
  | .laneBlockStart x1 => Sys2Proof.Machine.execLaneBlockStart x1 s
  | .waitEnd x1 => Sys2Proof.Machine.execWaitEnd x1 s
  | .loadReturn x1 x2 => Sys2Proof.Machine.execLoadReturn x1 x2 s
  | .storeAck x1 => Sys2Proof.Machine.execStoreAck x1 s
  | .copyLand x1 => Sys2Proof.Machine.execCopyLand x1 s
  | .multicastDelivery x1 x2 => Sys2Proof.Machine.execMulticastDelivery x1 x2 s
  | .bankOpComplete x1 x2 => Sys2Proof.Machine.execBankOpComplete x1 x2 s
  | .mxStart x1 => Sys2Proof.Machine.execMxStart x1 s
  | .mxComplete x1 => Sys2Proof.Machine.execMxComplete x1 s
  | .smmComplete x1 => Sys2Proof.Machine.execSmmComplete x1 s
  | .xfmReply x1 => Sys2Proof.Machine.execXfmReply x1 s
  | .heartbeatTick => Sys2Proof.Machine.execHeartbeatTick s
  | .regionCommit x1 => Sys2Proof.Machine.execRegionCommit x1 s
  | .regionCommitDone => Sys2Proof.Machine.execRegionCommitDone s
  | .debugHalt x1 => Sys2Proof.Machine.execDebugHalt x1 s
  | .debugResume x1 => Sys2Proof.Machine.execDebugResume x1 s
  | .debugStep x1 x2 => Sys2Proof.Machine.execDebugStep x1 x2 s
  | .debugBack x1 => Sys2Proof.Machine.execDebugBack x1 s
  | .debugCquiesce x1 => Sys2Proof.Machine.execDebugCquiesce x1 s
  | .debugArmbrk x1 => Sys2Proof.Machine.execDebugArmbrk x1 s
  | .debugDisarmbrk x1 => Sys2Proof.Machine.execDebugDisarmbrk x1 s
  | .debugRead x1 x2 => Sys2Proof.Machine.execDebugRead x1 x2 s
  | .debugWrite x1 x2 => Sys2Proof.Machine.execDebugWrite x1 x2 s
  | .debugBadop x1 x2 => Sys2Proof.Machine.execDebugBadop x1 x2 s
  | .stackFlushDone x1 => Sys2Proof.Machine.execStackFlushDone x1 s
  | .stackInstanceStart x1 x2 => Sys2Proof.Machine.execStackInstanceStart x1 x2 s
  | .stackPreempt x1 x2 => Sys2Proof.Machine.execStackPreempt x1 x2 s
  | .stackTaskFinish x1 => Sys2Proof.Machine.execStackTaskFinish x1 s
  | .cwpctlEnable x1 x2 x3 => Sys2Proof.Machine.execCwpctlEnable x1 x2 x3 s
  | .cwpctlFence x1 x2 x3 => Sys2Proof.Machine.execCwpctlFence x1 x2 x3 s
  | .portTrainingDone x1 x2 x3 x4 => Sys2Proof.Machine.execPortTrainingDone x1 x2 x3 x4 s
  | .portTrainingTimeout x1 x2 => Sys2Proof.Machine.execPortTrainingTimeout x1 x2 s
  | .retrainTrigger x1 x2 => Sys2Proof.Machine.execRetrainTrigger x1 x2 s
  | .retrainDone x1 x2 => Sys2Proof.Machine.execRetrainDone x1 x2 s
  | .retrainTimeout x1 x2 => Sys2Proof.Machine.execRetrainTimeout x1 x2 s
  | .flitReceive x1 x2 => Sys2Proof.Machine.execFlitReceive x1 x2 s
  | .ackReceive x1 x2 x3 => Sys2Proof.Machine.execAckReceive x1 x2 x3 s
  | .nakReceive x1 x2 x3 => Sys2Proof.Machine.execNakReceive x1 x2 x3 s
  | .groupStallTimeout x1 => Sys2Proof.Machine.execGroupStallTimeout x1 s
  | .cwringWrite x1 x2 => Sys2Proof.Machine.execCwringWrite x1 x2 s
  | .cwRingPoll x1 x2 => Sys2Proof.Machine.execCwRingPoll x1 x2 s
  | .send x1 x2 => Sys2Proof.Machine.execSend x1 x2 s
  | .recv x1 x2 => Sys2Proof.Machine.execRecv x1 x2 s
  | .recvadd x1 x2 => Sys2Proof.Machine.execRecvadd x1 x2 s
  | .ucieRepair x1 x2 x3 => Sys2Proof.Machine.execUcieRepair x1 x2 x3 s
  | .ucieModuleLoss x1 => Sys2Proof.Machine.execUcieModuleLoss x1 s
  | .softError x1 x2 => Sys2Proof.Machine.execSoftError x1 x2 s
  | .errlogPop x1 => Sys2Proof.Machine.execErrlogPop x1 s
  | .pwrctlWrite x1 x2 => Sys2Proof.Machine.execPwrctlWrite x1 x2 s
  | .throttleAdjust x1 x2 => Sys2Proof.Machine.execThrottleAdjust x1 x2 s
  | .thermalTrip => Sys2Proof.Machine.execThermalTrip s
  | .attestationRequest x1 x2 => Sys2Proof.Machine.execAttestationRequest x1 x2 s
  | .firmwareStage x1 => Sys2Proof.Machine.execFirmwareStage x1 s
  | .mgmtRead x1 => Sys2Proof.Machine.execMgmtRead x1 s
  | .hostAccess x1 => Sys2Proof.Machine.execHostAccess x1 s
  | .registerWrite x1 x2 x3 => Sys2Proof.Machine.execRegisterWrite x1 x2 x3 s

end Sys2Proof.Machine
end

