-- ==== Sys2Proof/Machine/Mordant.lean ====
section
/-! DEFINITION. Mordant pairs (R380 to R382): what the leader hands to its shadow, what the shadow runs itself, and the
comparison of an effect before it performs. -/

namespace Sys2Proof.Machine

open Sys2Proof

/-! ### What the shadow runs itself -/

/-- Whether a special register is one of the gang's own that a shadow holds too: WB, SLOT_STATE and the trap
registers. -/
def ownSr (n : Nat) : Bool := n == 0x030 || n == 0x051 || decide (0x060 ≤ n ∧ n ≤ 0x063)

/-- Whether a lane instruction takes no value from outside its gang and has no effect that leaves it. -/
def LaneOp.own (op : LaneOp) (f : LaneF) : Bool :=
  match op with
  | .ld | .ldRec | .st => false
  | .atomAdd | .atomMin | .atomMax | .atomMinn | .atomMaxn | .atomAnd | .atomOr | .atomXor | .atomExch | .atomCas
  | .atomFadd => false
  | .cpa | .cpt | .cpr | .cpw => false
  | .join | .lend => false
  | .xfmTr | .xfmQ | .xfmDq | .xfmX4 | .xfmZc | .xfmZd => false
  | .lstat | .lclock => false
  | .getsr => ownSr (field f.imm 0 10)
  | _ => true

/-- Whether an instruction is one that the shadow runs itself (R380, R381): it computes on the gang's own registers. -/
def Instr.own (i : Instr) : Bool :=
  match i.lane? with
  | some x => LaneOp.own x.1 x.2
  | none =>
    match i with
    | .kadd _ _ _ | .ksub _ _ _ | .kand _ _ _ | .kor _ _ _ | .kxor _ _ _ | .kshl _ _ _ | .kshr _ _ _ | .ksra _ _ _
    | .kmul _ _ _ | .kmulh _ _ _ | .kmulhn _ _ _ | .kdiv _ _ _ | .kdivn _ _ _ | .krem _ _ _ | .kremn _ _ _
    | .kmin _ _ _ | .kmax _ _ _ | .kminn _ _ _ | .kmaxn _ _ _ | .kslt _ _ _ | .ksltn _ _ _ | .kseq _ _ _ => true
    | .kclz _ _ | .kpopc _ _ | .kaddi _ _ _ | .kandi _ _ _ | .kori _ _ _ | .kxori _ _ _ => true
    | .kshli _ _ _ | .kshri _ _ _ | .ksrai _ _ _ | .kslti _ _ _ | .ksltni _ _ _ | .klui _ _ => true
    | .kins _ _ _ _ | .kbr _ _ _ | .kjal _ | .kjalr _ _ _ | .lbk _ _ | .lget _ _ | .knop | .keret => true
    | .csrr _ n => ownSr n.toNat
    | _ => false

/-! ### The two gangs -/

/-- The leader with the registers of its shadow: what the shadow is as the gang whose turn it is. The shadow has no
memory access, engine work or wait of its own. -/
def Gang.wear (l x : Gang) : Gang :=
  { l with
    level := x.level, k := x.k, kAlt := x.kAlt, kPoison := x.kPoison, pc := x.pc, win := x.win, res := x.res,
    allot := x.allot, regs := x.regs, vPoison := x.vPoison, q := x.q, lane := x.lane, pend := x.pend, dead := x.dead,
    latches := (l.latches.zip x.latches).map fun y => { y.2 with valid := y.1.valid },
    trapCause := x.trapCause, trapPc := x.trapPc, trapInfo := x.trapInfo, shadow := none, trail := [] }

/-- The shadow with the registers of what it has run. -/
def Gang.doff (x g : Gang) : Gang :=
  { x with
    level := g.level, k := g.k, kAlt := g.kAlt, kPoison := g.kPoison, pc := g.pc, win := g.win, res := g.res,
    allot := g.allot, regs := g.regs, vPoison := g.vPoison, q := g.q, lane := g.lane, pend := g.pend, dead := g.dead,
    latches := g.latches, trapCause := g.trapCause, trapPc := g.trapPc, trapInfo := g.trapInfo }

def State.shadowOf (s : State) (r : GangRef) : Option Gang := findBy (fun (g : Gang) => g.ref == r) s.shadows

def State.updShadow (s : State) (r : GangRef) (f : Gang → Gang) : State :=
  { s with shadows := updBy (fun (g : Gang) => g.ref == r) f s.shadows }

/-! ### The value queue -/

/-- The lanes of the resident slots after an instruction that it has changed or brought in. -/
def takenLanes (before after : Gang) : List (Nat × Nat × Half) :=
  (List.range after.regs.length).flatMap fun j =>
    let slot := after.res + j
    let row := after.regs.getD j []
    if decide (before.res ≤ slot ∧ slot < before.res + before.regs.length) then
      changedLanes slot 0 row (before.regs.getD (slot - before.res) [])
    else (List.range row.length).map fun i => (slot, i, row.getD i 0)

/-- What an instruction has written to the registers of a gang. -/
def takenOf (before after : Gang) : Taken :=
  { k := changed 0 after.k before.k, v := takenLanes before after, q := changedQ 0 after.q before.q,
    latches := after.latches, win := after.win, res := after.res, slots := after.regs.length, dead := after.dead,
    pc := after.pc, lane := after.lane }

/-- The shadow takes what its leader's instruction has written. -/
def Gang.take (x : Gang) (t : Taken) : Gang :=
  let rows := (List.range t.slots).map fun j =>
    let slot := t.res + j
    if x.res ≤ slot then x.regs.getD (slot - x.res) (List.replicate 32 0) else List.replicate 32 0
  let g := { x with
    k := t.k.foldl (fun k y => k.set y.1 y.2) x.k, q := t.q.foldl (fun q y => q.set y.1 y.2) x.q,
    latches := t.latches, win := t.win, res := t.res, allot := t.slots / 8, regs := rows, dead := t.dead, pc := t.pc,
    lane := t.lane }
  t.v.foldl (fun (g : Gang) y => g.setSlot y.1 y.2.1 y.2.2) g

/-- Whether an instruction of the gang whose turn it is has issued, from one state to another. -/
def issuedIn (s t : State) (lane : Bool) : Bool :=
  if lane then t.g.laneAge != s.g.laneAge else t.g.scalarAge != s.g.scalarAge

/-- What an issued instruction of a leader puts in the value queue (R381). An instruction that traps has put its entry to
K there. -/
def State.handed (s : State) (lane : Bool) (i : Instr) (t : State) : State :=
  if s.g.shadow.isNone || !issuedIn s t lane || t.g.trail.length != s.g.trail.length || t.g.status == .ended then t
  else
    { t with g := t.g.tell (if Instr.own i then .run s.g.pc s.g.lane.s0 s.g.lane.s1 i
                            else .values s.g.pc s.g.lane.s0 s.g.lane.s1 (takenOf s.g t.g)) }

/-- Whether an entry is a delivered value. -/
def Trail.delivers : Trail → Bool
  | .values _ _ _ _ => true
  | .back _ _ _ => true
  | _ => false

/-- Whether the 64 entries of the value queue are taken, those included that returns in flight will take (R381): the
leader stalls. -/
def Gang.trailFull (g : Gang) : Bool :=
  g.shadow.isSome && decide (64 ≤ (g.trail.filter Trail.delivers).length + g.pend.length)

/-! ### The shadow's turn -/

/-- Whether the shadow stands where its leader stood. -/
def Gang.standsAt (x : Gang) (pc : Word) (s0 s1 : Slot) : Bool := x.pc == pc && x.lane.s0 == s0 && x.lane.s1 == s1

/-- The shadow runs an instruction of its leader's on its own registers (R380). Its leader has found the latches that it
reads valid. -/
def State.shadowRun (s : State) (x : Gang) (i : Instr) : State :=
  let w := s.g.wear x
  match exec i { s with g := { w with latches := w.latches.map fun l => { l with valid := true } } } with
  | .next t => s.updShadow s.g.ref fun x => x.doff t.g
  | _ => s

/-- The shadow's oldest SMM writes. -/
def State.shadowSmm (s : State) (x : Gang) : State :=
  match execSmmComplete s.g.ref { s with g := s.g.wear x } with
  | .next t => s.updShadow s.g.ref fun x => x.doff t.g
  | _ => s

/-- The shadow takes the oldest entry of the value queue. One that does not stand where its leader stood has gone another
way: a mismatch (R382). -/
def State.shadowTake (s : State) (e : Trail) (rest : List Trail) : State :=
  let s := { s with g := { s.g with trail := rest } }
  match s.shadowOf s.g.ref with
  | none => s
  | some x =>
    match e with
    | .run pc s0 s1 i => if x.standsAt pc s0 s1 then s.shadowRun x i else s.mismatch
    | .values pc s0 s1 t => if x.standsAt pc s0 s1 then s.updShadow s.g.ref fun x => x.take t else s.mismatch
    | .back v latch dead =>
      s.updShadow s.g.ref fun x =>
        let g := v.foldl (fun (g : Gang) w => g.setSlot w.1 w.2.1 w.2.2) { x with dead := dead }
        match latch with
        | some y => { g with latches := g.latches.set y.1 { valid := true, vals := y.2 } }
        | none => g
    | .smm => s.shadowSmm x
    | .start =>
      (match x.lane.queue with
       | b :: rest => s.updShadow s.g.ref fun x => x.startBlock b rest
       | [] => s.mismatch)
    | .enter =>
      let g := { s.g.wear x with trapCause := s.g.trapCause, trapPc := s.g.trapPc, trapInfo := s.g.trapInfo }
      s.updShadow s.g.ref fun x => x.doff (Gang.enterK g.breakChain)

/-! ### Comparison -/

/-- Everything but the gang whose turn it is, and the shadows. -/
def State.outside (s : State) : State := { s with g := Gang.empty, shadows := [] }

/-- What an instruction leaves of the gang that is compared beside its effects outside: where the streams stand, the trap
registers, the segments and the registers that csrw writes. -/
def Gang.compares (g : Gang) : Gang :=
  { Gang.empty with
    status := g.status, level := g.level, pc := g.pc, trapCause := g.trapCause, trapPc := g.trapPc, trapVec := g.trapVec,
    segs := g.segs, lptBase := g.lptBase, win := g.win, res := g.res,
    lane := { LaneStream.empty with running := g.lane.running, s0 := g.lane.s0, s1 := g.lane.s1, depth := g.lane.depth } }

/-- Whether leader and shadow, each with its own registers, come to the same effects. -/
def sameEffect (a b : State) : Bool := a.outside == b.outside && a.g.compares == b.g.compares

/-- Whether an answer is another state. -/
def goesOn (s : State) : Out → Bool
  | .next t => t != s
  | _ => true

/-- A pair whose value queue is empty (R381, R382), where the leader's stream cannot go on without a comparison: its next
instruction, run on the registers of both, performs where the effects agree. -/
def State.compareOn (s : State) (turn : State → Out) : State :=
  match s.shadowOf s.g.ref with
  | none => s
  | some x =>
    if goesOn s (turn s) then s
    else
      match turn { s with g := { s.g with shadow := s.g.shadow.map fun y => { y with equal := true } } },
            turn { s with g := s.g.wear x } with
      | .next t, .next u =>
        if sameEffect t u then { t with g := { t.g with shadow := t.g.shadow.map fun y => { y with equal := false } } }
        else s.mismatch
      | _, _ => s

end Sys2Proof.Machine
end

