-- ==== Sys2Proof/Machine/Turns.lean ====
section
/-! DEFINITION. What one step does (log 1): the turn that the agenda names, or, with an empty agenda, the model's own
order of the steps of the unit in focus. A scalar, lane or stack turn fetches a word, decodes it and executes the
instruction; a device turn executes a row of the table. -/

namespace Sys2Proof.Machine

open Sys2Proof

/-! ### Time and bookkeeping -/

/-- Cycles pass in both clock domains alike (R26, R27); a turn of its own lets them drift. -/
def State.pass (s : State) (n : Nat) : State := s.elapse n n

/-- Before each turn: the next free values (log 7), the clock of R102, and a CQUIESCE whose counters have come to 0. -/
def State.prepare (s : State) : State := ({ s with free := s.free + 1 } : State).watch.watchDebug

/-! ### Readiness (R87, R94) -/

/-- Whether the crew of the gang whose turn it is runs, and the gang too, no halt being due. -/
def State.gangRuns (s : State) : Bool :=
  s.g.status == .run && !s.g.haltDue && !s.g.trailFull &&
    (match s.myCrew with
     | some c => c.state == .running
     | none => false)

/-- Whether a single step leaves a stream free to issue (R374). -/
def Gang.stepAllows (g : Gang) (st : Stream) : Bool := g.stepOne.isNone || g.stepOne == some st

/-- Whether the gang's scalar stream can issue: it does not yield (R169), and waits for nothing, or for what has come
about and its instruction inspects. -/
def State.scalarReady (s : State) : Bool :=
  s.gangRuns && s.g.stepAllows .scalar && decide (s.g.yieldUntil ≤ s.cycle) &&
    (match s.g.wait with
     | none => true
     | some w => w.carries && s.waitOver w)

/-- Whether a wait of the gang has ended (R87). -/
def State.waitEnded (s : State) : Bool :=
  s.gangRuns &&
    (match s.g.wait with
     | some w => !w.carries && s.waitOver w
     | none => false)

/-- Whether the gang's lane stream runs a block: at U, in a gang that runs (R88, R353). -/
def State.laneRuns (s : State) : Bool := s.gangRuns && s.g.stepAllows .lane && s.g.level == .u && s.g.lane.running

/-! ### Issue -/

/-- A fetched scalar word executed (R109, R121). -/
def runScalarWord (w : Nat) (s : State) : Out :=
  match decodeScalar (BitVec.ofNat 32 w) with
  | .ok i => exec i s
  | .error _ => execIllegalInstruction .scalar s

/-- A fetched lane word executed (R109, R121). -/
def runLaneWord (w : Nat) (s : State) : Out :=
  match decodeLane (BitVec.ofNat 96 w) with
  | .ok i => exec i s
  | .error _ => execIllegalInstruction .lane s

/-- A fetched stack-core word executed (R120, R336). -/
def runStackWord (w : Nat) (s : State) : Out :=
  match decodeStack (BitVec.ofNat 64 w) with
  | .ok i => exec i s
  | .error _ => execIllegalInstruction .stack s

/-- What a stream of a Mordant leader has done, noted for its shadow (R381). -/
def noteScalar (w : Nat) (s : State) : Out → Out
  | .next t =>
    (match decodeScalar (BitVec.ofNat 32 w) with
     | .ok i => .next (s.handed false i t)
     | .error _ => .next t)
  | o => o

def noteLane (w : Nat) (s : State) : Out → Out
  | .next t =>
    (match decodeLane (BitVec.ofNat 96 w) with
     | .ok i => .next (s.handed true i t)
     | .error _ => .next t)
  | o => o

/-- The scalar stream of the gang whose turn it is issues. -/
def issueScalar (s : State) : Out :=
  match s.fetchScalar with
  | (.ok w, t) => if t.g.shadow.isNone then runScalarWord w t else noteScalar w t (runScalarWord w t)
  | (.error f, t) => execInstructionFetchFault .scalar f t

/-- The lane stream of the gang whose turn it is issues. -/
def issueLane (s : State) : Out :=
  match s.fetchLane with
  | (.ok w, t) => if t.g.shadow.isNone then runLaneWord w t else noteLane w t (runLaneWord w t)
  | (.error f, t) => execInstructionFetchFault .lane f t

/-- The instance whose turn it is issues. -/
def issueStack (s : State) : Out :=
  match s.fetchStack with
  | (.ok w, t) => runStackWord w t
  | (.error f, t) => execInstructionFetchFault .stack f t

/-! ### The streams of a gang -/

/-- The gang whose turn it is with a stopped wait taken up again (R49, R325). -/
def State.takeUp (s : State) : State := { s with g := s.g.takeUp }

/-- The issuing slot changed to the other one. -/
def State.flipSlot (s : State) : State := { s with g := { s.g with lane := { s.g.lane with cur := !s.g.lane.cur } } }

/-- The slots that may issue, the one that R94 prefers first: with both running the other than the last, unless the next
word of this one is chained to the last (R107). -/
def State.slotsToTry (s : State) : List State :=
  if s.g.slotNow.runs then
    if !s.g.slotOther.runs || s.chained.isSome then [s] else [s.flipSlot, s]
  else if s.g.slotOther.runs then [s.flipSlot]
  else []

/-- Whether an answer has issued. -/
def issuedOut (s : State) (lane : Bool) : Out → Bool
  | .next t => issuedIn s t lane
  | _ => true

/-- The first of some slots whose instruction is ready (R94): it issues. -/
def firstReady : List State → Option Out
  | [] => none
  | t :: rest => if issuedOut t true (issueLane t) then some (issueLane t) else firstReady rest

/-- The lane stream of the gang whose turn it is, if it is ready: the answer of its issue. -/
def State.laneTry (s : State) : Option Out := if s.laneRuns then firstReady s.slotsToTry else none

/-- The scalar stream of the gang whose turn it is, if it is ready. -/
def State.scalarTry (s : State) : Option Out :=
  if s.takeUp.scalarReady && issuedOut s.takeUp false (issueScalar s.takeUp) then some (issueScalar s.takeUp) else none

/-! ### The schedulers (R94, R107) -/

/-- The gangs of the scheduler of the gang whose turn it is, the largest age counter of a stream first, and of equal ones
the lower gang slot. -/
def State.byAge (s : State) (lane : Bool) : List Gang :=
  sortBy (fun (h : Gang) => (if lane then h.laneAge else h.scalarAge) * 32 + h.slot)
    (s.allGangs.filter fun h => h.core == s.g.core && h.slot / 8 == s.g.slot / 8)

/-- Whether the scheduler has issued in a stream in this cycle. -/
def schedulerUsed (gs : List Gang) (lane : Bool) (cycle : Nat) : Bool :=
  gs.any fun h => decide (cycle < if lane then h.laneAge else h.scalarAge)

/-- The gang of the scheduler whose chain holds it (R107), alone; else all of them. -/
def State.chainFirst (s : State) (gs : List Gang) : List Gang :=
  match findBy (fun (h : Gang) => (s.bring h.ref).laneRuns && (s.bring h.ref).chained.isSome) gs with
  | some h => [h]
  | none => gs

/-- The scheduler's lane issue of this cycle: the gang that R94 and R107 choose. -/
def State.scheduleLane (s : State) : Option Out :=
  let gs := s.byAge true
  if schedulerUsed gs true s.cycle then none else (s.chainFirst gs).findSome? fun h => (s.bring h.ref).laneTry

/-- The scheduler's scalar issue of this cycle. -/
def State.scheduleScalar (s : State) : Option Out :=
  let gs := s.byAge false
  if schedulerUsed gs false s.cycle then none else gs.findSome? fun h => (s.bring h.ref).scalarTry

/-! ### Turns -/

/-- A turn of a gang's scalar stream: its wait ends, or its scheduler issues, or the gang's own instruction comes to no
issue: it waits, or nothing happens. -/
def scalarTurn (s : State) : Out :=
  let s := s.takeUp
  if s.waitEnded then execWaitEnd s.g.ref s
  else
    match s.scheduleScalar with
    | some o => o
    | none => if s.scalarReady && !schedulerUsed (s.byAge false) false s.cycle then issueScalar s else .next s

/-- Whether a lane block can start (R88). -/
def State.blockReady (s : State) : Bool :=
  s.gangRuns && s.g.stepAllows .lane && s.g.level == .u && !s.g.lane.running && !s.g.lane.queue.isEmpty

/-- A turn of a gang's lane stream: a block starts, or its scheduler issues, or nothing happens. -/
def laneTurn (s : State) : Out :=
  if s.blockReady then execLaneBlockStart s.g.ref s else s.scheduleLane.getD (.next s)

/-- A turn of the shadow of a Mordant gang: the oldest entry of the value queue, or, with none, the leader's next effect
compared, in the stream that has issued less lately first (R381, R382). -/
def shadowTurn (s : State) : State :=
  match s.g.trail with
  | e :: rest => s.shadowTake e rest
  | [] =>
    let lane := decide (s.g.laneAge < s.g.scalarAge)
    let one (lane : Bool) : State := s.compareOn fun t =>
      if lane then t.laneTry.getD (.next t) else if t.takeUp.scalarReady then issueScalar t.takeUp else .next t
    if one lane == s then one (!lane) else one lane

/-- Whether the instance whose turn it is runs on a stack core. -/
def State.stackReady (s : State) (die core : Nat) : Bool :=
  s.inst.state == .running && s.inst.die == die && s.inst.core == core

/-- The task of the instance whose turn it is, if it is failing (R334). -/
def State.failingTask (s : State) : Option Task := (s.task s.inst.task).filter fun (t : Task) => t.state == .failing

/-- A turn of a stack core: the instance that runs there issues, or a free core takes one. Once a task is failing, its
instances end at their next instruction boundary: what they issue in the stack cycle of the trap still counts (R331,
R334). -/
def stackTurn (die core : Nat) (s : State) : Out :=
  let s := s.bringInst die core
  if s.stackReady die core then
    match s.failingTask with
    | some t => if t.failAt == s.stackCycle then issueStack s else .next (s.endInstances t.serial)
    | none => issueStack s
  else execStackInstanceStart die core s

/-- Whether an instruction is a step of the device: not one of a stream, nor what only a fetch raises. -/
def Instr.isEvent (i : Instr) : Bool :=
  match i with
  | .instructionFetchFault _ _ => false
  | .illegalInstruction _ => false
  | i => i.stream?.isNone

/-- What a turn of the agenda does. -/
def runTurn (t : Turn) (s : State) : Out :=
  match t with
  | .event n i => if Instr.isEvent i then exec i (s.pass n) else .next (s.pass n)
  | .scalar n g => scalarTurn ((s.pass n).bring g)
  | .lane n g => laneTurn ((s.pass n).bring g)
  | .stack n die core => stackTurn die core (s.pass n)
  | .shadow n g => .next (shadowTurn ((s.pass n).bring g))
  | .clocks n m => .next (s.elapse n m)
  | .walk n agent asid va => .next ((s.pass n).prefetchWalk agent asid va)
  | .page n crew h lines => .next ((s.pass n).moveLines crew h lines)
  | .copy n asid queue index bytes => .next ((s.pass n).copyOn asid queue index bytes)

/-! ### The model's own order (log 1) -/

/-- A copy of the gang whose turn it is, the k-th of them that landing takes further. -/
def State.nextCopy (s : State) (k : Nat) : Option (CopyOp × Out) :=
  let l := (s.copies.filter fun c => c.gang == s.g.ref).filterMap fun c =>
    let o := match c.act with
      | .multicast _ _ _ _ _ _ (r :: _) _ _ => execMulticastDelivery c.id r s
      | _ => execCopyLand c.id s
    match o with
    | .next t => if t == s then none else some (c, o)
    | _ => none
  l[k % l.length]?

/-- Work in flight of the gang whose turn it is, of one of eight kinds, that can complete now. -/
def State.inFlight (s : State) (kind k : Nat) : Option Out :=
  match kind with
  | 0 => (s.g.oldest .load).map fun p => execLoadReturn s.g.ref p.id s
  | 1 => if s.g.ust == 0 then none else some (execStoreAck s.g.ref s)
  | 2 => (s.g.oldest .smm).map fun _ => execSmmComplete s.g.ref s
  | 3 => (s.g.oldest .xfm).map fun _ => execXfmReply s.g.ref s
  | 4 => (s.nextCopy k).map Prod.snd
  | 5 =>
    (s.myCrew.bind fun c => findBy (fun (p : Page) => !p.port.isEmpty && p.owner.isNone) c.pages).map fun p =>
      execBankOpComplete s.g.core p.site s
  | 6 =>
    (findBy (fun (m : MxOp) => m.gang == s.g.ref) s.mxs).map fun m =>
      if m.started then execMxComplete m.id s else execMxStart m.id s
  | _ =>
    match s.g.wait with
    | some (.tlbi id) =>
      (findBy (fun (t : Tlbi) => t.id == id) s.tlbis).bind fun t =>
        (findBy (fun a => s.mayAck t a) tlbiAgents).map fun a => execTlbiAck id a s
    | _ => none

/-- The first kind of work, from one of them on, that can complete. -/
def State.anyInFlight (s : State) (from_ k : Nat) : Nat → Option Out
  | 0 => none
  | n + 1 =>
    match s.inFlight (from_ % 8) k with
    | some o => some o
    | none => s.anyInFlight (from_ + 1) k n

/-- One step of the gang in focus: in turn, work in flight, the scalar stream and the lane stream; what cannot go on
leaves its turn to the next. -/
def gangStep (s : State) : Out :=
  let s := s.takeUp
  let n := s.cycle
  let scalar := s.waitEnded || s.scheduleScalar.isSome || s.scalarReady
  let lane := s.blockReady || s.scheduleLane.isSome
  if n % 3 == 1 && scalar then scalarTurn s
  else if n % 3 == 2 && lane then laneTurn s
  else if n % 3 == 0 && s.g.shadow.isSome then .next (shadowTurn s)
  else
    match s.anyInFlight (n / 3) (n / 24) 8 with
    | some o => o
    | none => if scalar then scalarTurn s else if lane then laneTurn s else .next s

/-- One step with an empty agenda: a step of the unit in focus. -/
def focusStep (s : State) : Out :=
  let s := s.pass 1
  match s.focus with
  | .idle => .next s
  | .gang g => gangStep (s.bring g)
  | .stack die core => stackTurn die core s

/-! ### The whole step -/

/-- What a step leaves of the reservations that host cores hold (log 66). -/
def settleStep (s : State) : Out → Out
  | .next t => .next (t.keepReservations s)
  | o => o

/-- The work of a step: a heartbeat that is due (R270), the trip of R408 where it is due, else the agenda's turn, else the
focus. -/
def stepWork (s : State) : Out :=
  if s.nextTick ≤ s.cycle then execHeartbeatTick s
  else if 115 ≤ s.pwr.tmax then execThermalTrip s
  else
    match s.agenda with
    | t :: rest => runTurn t { s with agenda := rest }
    | [] => focusStep s

/-- A step of a package that has booted. -/
def bootedStep (s : State) : Out := settleStep s (stepWork s.prepare)

/-- Whether a device step can take place in a package whose boot stopped (R403): one of the management controller or of
the management port, and a reset. -/
def Instr.managed (i : Instr) : Bool :=
  match i with
  | .packageReset => true
  | .firmwareStage _ => true
  | .mgmtRead _ => true
  | .attestationRequest viaHostM _ => !viaHostM
  | .pwrctlWrite src _ => src == .port
  | .throttleAdjust _ _ => true
  | .thermalTrip => true
  | _ => false

/-- A step of a package whose boot stopped with BOOTFAIL (R403): no host core and no stack core runs; the management
controller does (R408). -/
def failedStep (s : State) : Out :=
  if 115 ≤ s.pwr.tmax then execThermalTrip s
  else
    match s.agenda with
    | .event n i :: rest =>
      let s := { s with agenda := rest, free := s.free + 1 }.pass n
      if Instr.managed i then exec i s else .next s
    | .clocks n m :: rest => .next (State.elapse { s with agenda := rest } n m)
    | _ :: rest => .next { s with agenda := rest }
    | [] => .next (s.pass 1)

/-- A step of a package without power (R408): nothing but a reset, with power back. -/
def offStep (s : State) : Out :=
  match s.agenda with
  | .event _ .packageReset :: rest => execPackageReset { s with agenda := rest }
  | _ => .fault .noPower

/-- One step, by the state of the boot (R403). -/
def stepOf (s : State) : Out :=
  match s.boot with
  | .inReset => execPackageReset s
  | .booted => bootedStep s
  | .fail _ => failedStep s
  | .off => offStep s

/-! ### A package with one instruction to run -/

/-- Page tables of five levels from 0x1000 on, one 2 MiB page with every permission at virtual address 0, and a word at
0x8000 (R44, R45). -/
def wordMemory (n w : Nat) : Memory :=
  let put (m : Memory) (a n x : Nat) : Memory := m.writeBytes a (leBytes n x)
  put (put (put (put (put [] 0x1000 8 0x2001) 0x2000 8 0x3001) 0x3000 8 0x4001) 0x4000 8 0x000F) 0x8000 n w

/-- One region of 2 MiB at physical address 0 (R222). -/
def wordRegion : RgnEntry := { base := 0, size := 2, pcOff := 0, mode := 3, stack := 0 }

/-- An ACTIVE context that all features of FEAT_CAP are enabled for. -/
def wordCtx : Ctx :=
  { desc := 0x10000, asid := 1, state := .active, destroying := false, prioCeil := 7, dieMask := 0xFF, ptRoot := 0x1000,
    queueTable := 0, queueCount := 1, saveBase := 0, saveSize := 0, trapVec := 0, faultRec := 0,
    featEn := [0xFFFF, 0, 0, 0], key := 0, queues := [] }

/-- A launch of one crew of one gang, with its scalar and lane code at 0x8000. -/
def wordLaunch : LaunchRec :=
  { code := 0x8000, laneCode := 0x8000, param := 0, completion := 0, crews := 1, dieMask := 1, clusterMask := 1, stages := 1,
    gangs := 1, prologue := 8, full := 8, scratch := 0, banks := 0, versioned := false, mordant := false, debug := false,
    mergeable := false, constBase := 0, constLimit := 0, localBytes := 0, localBase := 0, stageMasks := [] }

def wordKernel : Kernel :=
  { serial := 1, order := 1, asid := 1, recAddr := 0, desc := wordLaunch, each := 1, prio := 0, state := .running,
    children := [{ param := 0, completion := 0, completed := 0, deadLanes := 0, failList := 0, ended := 0, fails := [],
                   reported := false }],
    owner := none, unadmitted := 0, unended := 1, barriers := [] }

def wordCrew : Crew :=
  { id := 1, kernel := 1, stage := 0, die := 0, cluster := 0, rank := 0, core := 0, dealRank := 0, state := .running,
    prio := 0, started := 1, stopAt := 0, drainAt := 0, gangs := 1, pages := [], barriers := [], cause := 0,
    version := { versioned := false, opened := false, commits := 0, held := [], bad := [], direct := [] }, swapped := false,
    failAt := 0, begun := true, saveBad := none }

/-- The gang, with a lane block at its first word (R88, R91). -/
def wordGang : Gang :=
  { Gang.empty with
    ref := { crew := 1, idx := 0 }, status := .run, pc := 0x8000, allot := 8, units := List.replicate 8 0,
    segs := { Gang.empty.segs with g := { base := 0, limit := 0x200000 } },
    regs := List.replicate 64 (List.replicate 32 0),
    lane := { LaneStream.empty with
      running := true, snap := List.replicate 32 0,
      s0 := { valid := true, pc := 0, mask := BitVec.allOnes 32, join := none, parked := false } } }

def wordTask : Task :=
  { serial := 1, asid := 1,
    desc := { code := 0x8000, param := 0, coreMask := 1, stackMask := 1, flagAdd := false, loc := false, inputs := 0,
              outputs := 0, flag := 0, value := 0 },
    ins := [], outs := [], prio := 0, owner := .command 1 0 0, state := .running, before := .running, count := 1,
    ended := 0, failedCount := 0, first := none, cause := 0, failAt := 0, inLines := [], kept := [] }

def wordInst : Instance := { Instance.empty with task := 1, state := .running, pc := 0x8000 }

/-- The turn that runs a word of a width: of the gang's scalar or lane stream, or of the stack core. -/
def wordTurn (nbits : Nat) : Turn :=
  if nbits == 64 then .stack 0 0 0
  else if nbits == 96 then .lane 0 { crew := 1, idx := 0 }
  else .scalar 0 { crew := 1, idx := 0 }

/-- The package booted, with one context, one gang and one stack-core instance at the word w, and the turn that runs it
next. -/
def State.installWord (s : State) (nbits w : Nat) : State :=
  { s with
    agenda := [wordTurn nbits], boot := .booted, nextTick := s.cycle + s.hbPeriod,
    dram := wordMemory (nbits / 8) w, poison := [], checks := [], l2 := [], lostLinks := [],
    rgn := { s.rgn with active := [wordRegion] }, tlb := [], tlbis := [], multicast := [],
    ctxs := [wordCtx], kernels := [wordKernel], crews := [wordCrew], cores := [], g := wordGang, gangs := [],
    shadows := [], copies := [], pwr := { s.pwr with tmax := 0 }, mxs := [], tasks := [wordTask], inst := wordInst, insts := [] }

end Sys2Proof.Machine
end

