-- ==== Sys2Proof/Machine/Step.lean ====
section
/-! DEFINITION. One step of the package, and a package with one instruction to run. -/

namespace Sys2Proof.Machine

open Sys2Proof

/-- One step. -/
def step (s : State) : Host.Outcome State Fault Refusal := stepOf s

/-- The package with the instruction of w as its very next step (log 10). -/
def State.withFetchWord (s : State) (nbits w : Nat) : State := s.installWord nbits w

end Sys2Proof.Machine
end

