-- ==== Sys2Proof/Safety.lean ====
section
/-! DEFINITION. What statements about whole states are put in terms of: memories in canonical form, a package that has
stopped before or at its boot (R403), and what a step of one gang leaves alone. -/

namespace Sys2Proof.Safety

open Sys2Proof
open Sys2Proof.Machine

/-- Every memory of the package is in canonical form: DRAM, the cells of every bank page, every local SRAM; and a crew
holds writes only in an open version (R366). -/
def memoriesWf (s : State) : Bool :=
  s.dram.wf && s.crews.all (fun (c : Crew) => (c.version.opened || c.version.held.isEmpty) && c.pages.all fun p => p.cells.wf)
    && s.inst.sram.wf && s.insts.all fun x => x.sram.wf

/-- L2 lines with numbers from n on, strictly rising, of 128 bytes each. -/
def linesFrom : Nat → List Line → Bool
  | _, [] => true
  | n, l :: rest => decide (n ≤ l.num) && l.data.length == 128 && linesFrom (l.num + 1) rest

/-- The homes of memory: the region table in force is valid (R223), and the listed L2 lines are whole, each listed once and
in a region (R225, R231). -/
def homesWf (s : State) : Bool :=
  (firstBad s.rgn.active).isNone && linesFrom 0 s.l2 &&
    s.l2.all fun l => (s.regionOf (l.num * 128)).isSome && !inWindow (l.num * 128)

/-- A turn of the agenda that is no package reset. -/
def noReset (t : Turn) : Bool :=
  match t with
  | .event _ .packageReset => false
  | _ => true

/-- No context, kernel, crew, task or copy exists, and nothing runs on a core or a stack core. -/
def empty (s : State) : Prop :=
  s.ctxs = [] ∧ s.kernels = [] ∧ s.crews = [] ∧ s.tasks = [] ∧ s.copies = [] ∧ s.mxs = [] ∧ s.g = Gang.empty ∧
    s.gangs = [] ∧ s.inst = Instance.empty ∧ s.insts = []

/-- The package before its boot with no bundle in its flash, stopped with BOOTFAIL (R403), or without power (R408), with
nothing in it that runs and no reset to come on the agenda. -/
def stopped (s : State) : Prop :=
  ((s.boot = .inReset ∧ s.flash = Bundle.empty ∧ s.staged = none) ∨ (∃ i, s.boot = .fail i) ∨ s.boot = .off) ∧
    empty s ∧
    s.agenda.all noReset = true

/-- The Causeway ports and the host cores are all there, in the order of their numbers, and no two flows, rings or contexts
go by one name (R23, R36, R392, R395, R401). -/
def listed (s : State) : Prop :=
  s.ports.map CwPort.num = List.range 36 ∧ s.hosts.map HostCore.num = List.range 16 ∧
    (s.flows.map fun (f : Flow) => (f.group, f.num)).Nodup ∧ (s.rings.map fun (r : Ring) => (r.asid, r.land)).Nodup ∧
    (s.ctxs.map Ctx.asid).Nodup

/-- A gang with another's record of how instructions complete: the undo log, the status and the single step, the
comparison of a Mordant pair and the age counters (R94, R372, R374, R381). -/
def marked (g t : Gang) : Gang :=
  { g with undo := t.undo, undoMem := t.undoMem, status := t.status, stepOne := t.stepOne, haltDue := t.haltDue,
           shadow := t.shadow, laneAge := t.laneAge, scalarAge := t.scalarAge }

/-- What completing an instruction of a stream leaves in that record: with the undo log off it stays, with no single step
the gang goes on as it was, a Mordant pair has its next effect to compare, and the stream's age counter starts again. -/
def completes (lane : Bool) (s t : State) : Prop :=
  (s.g.dbgUndo = false → t.g.undo = s.g.undo ∧ t.g.undoMem = s.g.undoMem) ∧
    (s.g.stepOne = none → t.g.status = s.g.status ∧ t.g.haltDue = s.g.haltDue ∧ t.g.stepOne = none) ∧
    t.g.shadow = s.g.shadow.map (fun (x : Shadow) => { x with equal := false }) ∧
    t.g.laneAge = (if lane then s.cycle + 1 else s.g.laneAge) ∧
    t.g.scalarAge = (if lane then s.g.scalarAge else s.cycle + 1)

end Sys2Proof.Safety
end

