-- ==== Sys2Proof/Certificates/Slice0/Obligations.lean ====
section
/-! DEFINITION. The statements for the provers, one `Obligations.<Name> : Prop` each, and the tables and predicates they
are put in. -/

open Sys2Proof
open Sys2Proof.Machine
open Sys2Proof.Safety

/-! ### Frames -/

namespace Sys2Proof.Safety

/-- Every byte of the package's memories reads as before: at its home, in every bank page, in every local SRAM. -/
def sameMemory (s t : State) : Prop :=
  (∀ a, t.homeByte a = s.homeByte a) ∧ (∀ c h, t.page c h = s.page c h) ∧ t.inst = s.inst ∧ t.insts = s.insts

/-- All that a scalar instruction with registers only leaves as it was: everything outside its gang; of the gang all but
the k registers and their error marks, pc, the record of a wait, and the record of how instructions complete. -/
def scalarFrame (s t : State) : Prop :=
  t = { s with g := marked { s.g with
          k := t.g.k, kPoison := t.g.kPoison, pc := t.g.pc, wait := t.g.wait, kept := t.g.kept } t.g } ∧
    completes false s t ∧ sameMemory s t

/-- t is s with k[d] := x (nothing for d = 0) and all else but pc as `scalarFrame` says. -/
def wroteK (s t : State) (d : Reg) (x : Word) : Prop :=
  t.g.k = (if d = 0 then s.g.k else s.g.k.set d.toNat x) ∧ t.g.wait = none ∧ scalarFrame s t

/-- A register that holds no uncorrectable error (R375). -/
abbrev sound (s : State) (r : Reg) : Prop := s.g.badK r = false

/-- A gang without a shadow, or the leader of a Mordant pair whose next effect has compared equal (R381). -/
abbrev agrees (s : State) : Prop := s.g.uncompared = false

/-- The state after an instruction of a stream that traps: the trap is taken; the leader of a Mordant pair whose effect has
still to be compared does nothing (R353, R382). -/
def trapped (s : State) (lane : Bool) (c : Cause) (info : Word) : State :=
  if s.g.uncompared then s else s.takeTrap lane c info

end Sys2Proof.Safety

namespace Sys2Proof.Safety

/-- The members of OP with two sources, with the value of each (R154, R130). -/
def opRows : List ((Reg → Reg → Reg → Instr) × (Word → Word → Word)) :=
  [(.kadd, fun x y => x + y), (.ksub, fun x y => x - y), (.kand, fun x y => x &&& y), (.kor, fun x y => x ||| y),
   (.kxor, fun x y => x ^^^ y), (.kshl, fun x y => x <<< (y.toNat % 64)), (.kshr, fun x y => x >>> (y.toNat % 64)),
   (.ksra, fun x y => x.sshiftRight (y.toNat % 64)), (.kmul, fun x y => x * y),
   (.kmulh, fun x y => (x.signExtend 128 * y.signExtend 128).extractLsb' 64 64),
   (.kmulhn, fun x y => (x.setWidth 128 * y.setWidth 128).extractLsb' 64 64),
   (.kdiv, fun x y => if y = 0 then BitVec.allOnes 64 else x.sdiv y),
   (.kdivn, fun x y => if y = 0 then BitVec.allOnes 64 else x / y),
   (.krem, fun x y => if y = 0 then x else x.srem y), (.kremn, fun x y => if y = 0 then x else x % y),
   (.kmin, fun x y => if y.toInt < x.toInt then y else x), (.kmax, fun x y => if x.toInt < y.toInt then y else x),
   (.kminn, fun x y => if y.toNat < x.toNat then y else x), (.kmaxn, fun x y => if x.toNat < y.toNat then y else x),
   (.kslt, fun x y => if x.toInt < y.toInt then 1 else 0), (.ksltn, fun x y => if x.toNat < y.toNat then 1 else 0),
   (.kseq, fun x y => if x = y then 1 else 0)]

/-- How many leading bits of a word are 0: all of them where none is 1. -/
def leadingZeros (x : Word) : Nat := ((List.range 64).takeWhile fun i => !x.getMsbD i).length

end Sys2Proof.Safety

namespace Sys2Proof.Safety

/-- The immediate families, with the value of each (R155). -/
def immRows : List ((Reg → Reg → BitVec 16 → Instr) × (Word → BitVec 16 → Word)) :=
  [(.kaddi, fun x i => x + i.signExtend 64), (.kandi, fun x i => x &&& i.setWidth 64),
   (.kori, fun x i => x ||| i.setWidth 64), (.kxori, fun x i => x ^^^ i.setWidth 64),
   (.kslti, fun x i => if x.toInt < i.toInt then 1 else 0),
   (.ksltni, fun x i => if x.toNat < (i.signExtend 64).toNat then 1 else 0)]

/-- The immediate shifts, with the value of each (R155). -/
def shiftRows : List ((Reg → Reg → BitVec 6 → Instr) × (Word → Nat → Word)) :=
  [(.kshli, fun x i => x <<< i), (.kshri, fun x i => x >>> i), (.ksrai, fun x i => x.sshiftRight i)]

/-- For each of the 24 members of the OP family and every state whose source registers hold no uncorrectable error,
exec answers a next state in which k[kd] holds the value the table gives (nothing is written for k0), pc is pc + 4,
and every other register, special register and memory byte is as before (R154, R130, R127). -/
def scalarOpResults : Prop :=
  (∀ row ∈ opRows, ∀ (d a b : Reg) (s : State), sound s a → sound s b →
    ∃ t, exec (row.1 d a b) s = .next t ∧ wroteK s t d (row.2 (s.getK a) (s.getK b)) ∧ t.g.pc = s.g.pc + 4) ∧
  (∀ (d a : Reg) (s : State), sound s a →
    (∃ t, exec (.kclz d a) s = .next t ∧ wroteK s t d (BitVec.ofNat 64 (leadingZeros (s.getK a))) ∧
      t.g.pc = s.g.pc + 4) ∧
    ∃ t, exec (.kpopc d a) s = .next t ∧
      wroteK s t d (BitVec.ofNat 64 ((List.range 64).filter fun i => (s.getK a).getLsbD i).length) ∧ t.g.pc = s.g.pc + 4)

/-- kaddi, kandi, kori, kxori, kslti, ksltni, kshli, kshri, ksrai, klui and kins, from every state with sound sources,
answer a next state with k[kd] as R155 to R157 give it, pc + 4 and all else as before; a kins whose pos + width
exceeds 64 raises ILL (R155, R156, R157). -/
def scalarImmediateResults : Prop :=
  (∀ row ∈ immRows, ∀ (d a : Reg) (i : BitVec 16) (s : State), sound s a →
    ∃ t, exec (row.1 d a i) s = .next t ∧ wroteK s t d (row.2 (s.getK a) i) ∧ t.g.pc = s.g.pc + 4) ∧
  (∀ row ∈ shiftRows, ∀ (d a : Reg) (i : BitVec 6) (s : State), sound s a →
    ∃ t, exec (row.1 d a i) s = .next t ∧ wroteK s t d (row.2 (s.getK a) i.toNat) ∧ t.g.pc = s.g.pc + 4) ∧
  (∀ (d : Reg) (i : BitVec 16) (s : State),
    ∃ t, exec (.klui d i) s = .next t ∧ wroteK s t d ((i ++ (0 : BitVec 16)).signExtend 64) ∧ t.g.pc = s.g.pc + 4) ∧
  (∀ (d a : Reg) (w p : BitVec 6) (s : State), sound s d → sound s a →
    if p.toNat + (w.toNat + 1) ≤ 64 then
      ∃ t x, exec (.kins d a w p) s = .next t ∧ wroteK s t d x ∧ t.g.pc = s.g.pc + 4 ∧
        ∀ i < 64, x.getLsbD i =
          if p.toNat ≤ i ∧ i ≤ p.toNat + w.toNat then (s.getK a).getLsbD (i - p.toNat) else (s.getK d).getLsbD i
    else exec (.kins d a w p) s = .next (trapped s false .ill 0))

end Sys2Proof.Safety

/-- For each of the 24 members of the OP family and every state whose source registers hold no uncorrectable error,
exec answers a next state in which k[kd] holds the value the table gives (nothing is written for k0), pc is pc + 4,
and every other register, special register and memory byte is as before. kaddi, kandi, kori, kxori, kslti, ksltni,
kshli, kshri, ksrai, klui and kins, from every state with sound sources, answer a next state with k[kd] as R155 to
R157 give it, pc + 4 and all else as before; a kins whose pos + width exceeds 64 raises ILL (R154, R130, R127, R155,
R156, R157). -/
def Obligations.ScalarResults : Prop :=
  scalarOpResults ∧ scalarImmediateResults

namespace Sys2Proof.Safety

/-- When a kbr is taken, by its code (R160). -/
def kbrTaken (c : Nat) (x : Word) : Bool :=
  (c == 0 && x == 0) || (c == 1 && x != 0) || (c == 2 && decide (x.toInt < 0)) || (c == 3 && decide (0 ≤ x.toInt))
    || c == 5

end Sys2Proof.Safety

/-- knop only goes on to pc + 4; kbr goes to pc + imm16 × 4 exactly when its condition of R160 holds and to pc + 4
otherwise, with no register written; kjal and kjalr write the link and go to their target; a kjalr to a target that is
not 4-byte aligned raises ALIGN and writes nothing; a kbr code above 5 raises ILL (R160, R161, R162). -/
def Obligations.KnopBranchesAndJumps : Prop :=
  (∀ s : State, ∃ t, exec .knop s = .next t ∧ wroteK s t 0 0 ∧ t.g.pc = s.g.pc + 4) ∧
  (∀ (c : BitVec 5) (a : Reg) (i : BitVec 16) (s : State), sound s a →
    if c.toNat ≤ 5 then
      ∃ t, exec (.kbr c a i) s = .next t ∧ wroteK s t 0 0 ∧
        t.g.pc = s.g.pc + (if kbrTaken c.toNat (s.getK a) then i.signExtend 64 * 4 else 4)
    else exec (.kbr c a i) s = .next (trapped s false .ill 0)) ∧
  (∀ (i : BitVec 26) (s : State),
    ∃ t, exec (.kjal i) s = .next t ∧ wroteK s t 31 (s.g.pc + 4) ∧ t.g.pc = s.g.pc + i.signExtend 64 * 4) ∧
  (∀ (d a : Reg) (i : BitVec 16) (s : State), sound s a →
    let target := s.getK a + i.signExtend 64
    if target.toNat % 4 = 0 then
      ∃ t, exec (.kjalr d a i) s = .next t ∧ wroteK s t d (s.g.pc + 4) ∧ t.g.pc = target
    else exec (.kjalr d a i) s = .next (trapped s false .align 0))

/-- kyield goes on to pc + 4 and changes no register, no memory byte and nothing of the lane stream; it leaves the
gang in no WAIT state; and from then on the scalar stream can issue exactly when more than 32 cycles have passed since
the cycle in which the kyield issued (and the gang runs) (R169). -/
def Obligations.KyieldHoldsScalarStream : Prop :=
  ∀ s : State, ∃ t, exec .kyield s = .next t ∧ t.g.pc = s.g.pc + 4 ∧ t.g.lane = s.g.lane ∧ t.g.wait = none ∧
    wroteK s { t with g := { t.g with yieldUntil := s.g.yieldUntil } } 0 0 ∧
    ∀ n, ({ t with cycle := n } : State).scalarReady =
      (t.gangRuns && t.g.stepAllows .scalar && decide (s.cycle + 32 < n))

namespace Sys2Proof.Safety

/-- An access of the scalar stream that passes every check and reads x: t is the state with what the access has brought
into the caches (R42, R195, R228). -/
def readsOk (s : State) (seg : SegName) (o n : Nat) (bypass : Bool) (t : State) (x : Nat) : Prop :=
  ∃ ps mt u, s.check s.g seg 0 o n false false = (.ok ps mt, u) ∧
    t = u.touch u.g.core (seg != .s && viaL1 mt bypass) ps ∧
    (∀ p ∈ ps, t.gangBad t.g.ref.crew t.g.core (seg != .s && viaL1 mt bypass) p = false) ∧
    x = leNat (ps.map fun p => t.gangByte t.g.ref.crew t.g.core (seg != .s && viaL1 mt bypass) p)

/-- The lane stream is idle, or at U no pending lane word orders accesses or may touch memory (of the banks, for an access
through S, else of the other segments), so that an access of the scalar stream need not wait for it (R88, R264). -/
def lanesClear (s : State) (bank : Bool) : Prop :=
  s.g.laneIdle = true ∨ (s.g.level = .u ∧ s.pendingReach.ordered = false ∧
    (if bank then s.pendingReach.bankLoad = false ∧ s.pendingReach.bankStore = false
      else s.pendingReach.physLoad = false ∧ s.pendingReach.physStore = false))

/-- Only cached copies differ: translations; of each core its L1 and instruction cache; and clean L2 lines older than
DRAM that were given up. Every byte at its home reads as before but those of such a line, which read as DRAM has them. -/
def onlyCaches (s t : State) : Prop :=
  t = { s with tlb := t.tlb, l2 := t.l2, cores := t.cores } ∧
    (∀ n, t.core n = { s.core n with l1 := (t.core n).l1, code := (t.core n).code }) ∧ (∀ l ∈ t.l2, l ∈ s.l2) ∧
    (homesWf s = true → (∀ l ∈ s.l2, l ∉ t.l2 → l.dirty = false ∧ l.data ≠ (s.dramLine l.num).data) ∧
      ∀ a, t.homeByte a = s.homeByte a ∨
        t.homeByte a = s.dramByte a ∧ ∃ l ∈ s.l2, l ∉ t.l2 ∧ l.num = a / 128 ∧ l.dirty = false)

/-- The gang's open version, if the write goes to it, has room for the cells (R369). -/
abbrev roomFor (s : State) (held : Bool) (cells : List (Place × Byte)) : Prop :=
  (held && s.versionOpen s.g.ref.crew && s.holdFull s.g.ref.crew (physCells cells)) = false

/-- What a gang of s reads of a place, at the place itself: its crew's held write or the home (R366). -/
def ownByte (s : State) (p : Place) : Byte := s.gangByte s.g.ref.crew s.g.core false p

/-- Whether a place is a physical address outside the harbour window, or a bank byte. -/
def outsideWindow (p : Place) : Prop :=
  match p with
  | .phys a => inWindow a = false
  | .bank _ _ _ => True

/-- The byte that a list of cells, taken in order, leaves at a place. -/
def lastOf (cells : List (Place × Byte)) (p : Place) : Option Byte := (findBy (fun c => c.1 == p) cells.reverse).map (·.2)

/-- Whether a store that is not left in an L2 (MT 2, R229) reaches an address through no other line: its line is one of
the lines stored to, or shares no DRAM byte with them. -/
def apart (s : State) (mt : Nat) (cells : List (Place × Byte)) (a : Nat) : Prop :=
  mt = 2 → ∀ c ∈ physCells cells, c.1 / 128 = a / 128 ∨ ∀ b, b / 128 = c.1 / 128 → s.placeOf b ≠ s.placeOf a

/-- `apart` for a place; a bank byte shares nothing with memory. -/
def apartPlace (s : State) (mt : Nat) (cells : List (Place × Byte)) (p : Place) : Prop :=
  match p with
  | .phys a => apart s mt cells a
  | .bank _ _ _ => True

/-- The cells of one write of a memory type are in their places, a later one over an earlier one, and every other place
reads as before. -/
def stored (s t : State) (mt : Nat) (cells : List (Place × Byte)) : Prop :=
  (∀ p, (p ∈ cells.map Prod.fst → outsideWindow p) → apartPlace s mt cells p →
    ownByte t p = (lastOf cells p).getD (ownByte s p)) ∧
    ∀ a, Place.phys a ∉ cells.map Prod.fst → apart s mt cells a → t.homeByte a = s.homeByte a

/-- A crew without the bytes of its pages and of its version. -/
def bareCrew (c : Crew) : Crew :=
  { c with pages := c.pages.map (fun p => { p with cells := [], poison := [], dirty := [] }),
           version := { c.version with held := [], bad := [], direct := [] } }

/-- What a store leaves alone: everything but bytes of memory and of bank pages, the held writes of versions, the marks and
log of errors, and cached copies; with another memory type than 2 DRAM too. -/
def storeFrame (s t : State) (mt : Nat) : Prop :=
  t = { s with g := t.g, tlb := t.tlb, l2 := t.l2, dram := t.dram, poison := t.poison, checks := t.checks,
               cores := t.cores, crews := t.crews, tasks := t.tasks, errlog := t.errlog } ∧
    (∀ n, t.core n = { s.core n with l1 := (t.core n).l1 }) ∧ t.crews.map bareCrew = s.crews.map bareCrew ∧
    t.tasks.map (fun x => { x with kept := [] }) = s.tasks.map (fun x => { x with kept := [] }) ∧
    (mt ≠ 2 → t.dram = s.dram ∧ t.tasks = s.tasks)

end Sys2Proof.Safety

/-- For every kld whose address register is sound, issued when the lane stream is idle or can have no access to such
memory pending, whose access passes every check and meets no bad data: exec answers a next state with k[kd] equal to
the little-endian bytes read, extended as the mode says, pc + 4 and nothing else of the gang changed; memory is not
written: only cached copies (L1, TLB, clean L2 lines older than DRAM given up) may differ (R158, R159, R5). -/
def Obligations.ScalarLoad : Prop :=
  ∀ (d a : Reg) (sg : BitVec 2) (m : BitVec 3) (o : BitVec 11) (s t : State) (x : Nat), m ≠ 7 → sound s a →
    lanesClear s (sg == 1) →
    readsOk s (scalarSeg sg) (s.getK a + o.signExtend 64).toNat (2 ^ (m.toNat / 2)) false t x →
    ∃ u, exec (.kld d a sg m o) s = .next u ∧ onlyCaches s t ∧ u.g.pc = s.g.pc + 4 ∧
      wroteK t u d (if m.toNat % 2 = 1 ∧ m ≠ 6 then (BitVec.ofNat (8 * 2 ^ (m.toNat / 2)) x).signExtend 64
        else BitVec.ofNat 64 x)

/-- For every kst with sound registers, issued when the lane stream is idle or can have no access to such memory
pending, whose access passes every check: exec answers a next state in which the bytes of the access hold the low
bytes of k[kd], every other byte of memory and of the bank pages reads as before, UST is one higher, pc is pc + 4 and
no register changes. A store of memory type 2 is not left in an L2, so that DRAM holds its lines. The places stored to
are those the access check gives for the address k[ka] + offset (R158, R159, R5, R196). -/
def Obligations.ScalarStore : Prop :=
  ∀ (d a : Reg) (sg w : BitVec 2) (o : BitVec 11) (s t : State) (ps : List Place) (mt : Nat), sound s d → sound s a →
    lanesClear s (sg == 1) → s.g.ust < 255 → agrees s → memoriesWf s = true → homesWf s = true →
    s.check s.g (scalarSeg sg) 0 (s.getK a + o.signExtend 64).toNat (2 ^ w.toNat) true false = (.ok ps mt, t) →
    roomFor t (scalarSeg sg == .g || scalarSeg sg == .l) (ps.zip (leBytes (2 ^ w.toNat) (s.getK d).toNat)) →
    ∃ u, exec (.kst d a sg w o) s = .next u ∧ stored s u mt (ps.zip (leBytes (2 ^ w.toNat) (s.getK d).toNat)) ∧
      u.g.pc = s.g.pc + 4 ∧ u.g.ust = s.g.ust + 1 ∧
      u.g = marked { s.g with pc := u.g.pc, ust := u.g.ust, wait := none, kept := u.g.kept } u.g ∧ storeFrame s u mt

namespace Sys2Proof.Safety

/-- csrr of a listed number puts that special register into k[kd]; a csrw at K of a number that K may write leaves the
state that the write of the register gives, with pc + 4; a csrw at U of such a number raises PRIV; a number that is
not listed, or for csrw not writable, raises ILL (R122, R163). -/
def specialRegisterAccess : Prop :=
  (∀ (d : Reg) (n : BitVec 10) (s : State), srnListed n.toNat = true → n.toNat ∉ s.g.srPoison →
    ∃ t, exec (.csrr d n) s = .next t ∧ wroteK s t d (s.readSr n.toNat) ∧ t.g.pc = s.g.pc + 4) ∧
  (∀ (d : Reg) (n : BitVec 10) (s : State), srnListed n.toNat = false →
    exec (.csrr d n) s = .next (trapped s false .ill 0)) ∧
  (∀ (a : Reg) (n : BitVec 10) (s : State), srnWritable n.toNat = true → s.g.level = .k → sound s a → agrees s →
    (n = 0x030 → s.g.pend = []) →
    ∃ t, exec (.csrw a n) s = .next t ∧ t.g.pc = (s.writeSr n.toNat (s.getK a)).g.pc + 4 ∧
      wroteK (s.writeSr n.toNat (s.getK a)) t 0 0) ∧
  (∀ (a : Reg) (n : BitVec 10) (s : State), srnWritable n.toNat = true → s.g.level = .u →
    exec (.csrw a n) s = .next (trapped s false .priv 0)) ∧
  (∀ (a : Reg) (n : BitVec 10) (s : State), srnWritable n.toNat = false →
    exec (.csrw a n) s = .next (trapped s false .ill 0))

/-- After the write of x: TRAP_CAUSE reads bits 9:0 of x; TRAP_PC and LPT_BASE read x; TRAP_VEC reads x with bits 1:0
zero; HB_PERIOD reads bits 16:0 of x brought into 256 to 65,536; TRAP_INFO reads x, without its reserved bits where
the trap is of the lane stream; DEBUG reads bits 3:2 of x, with bit 1 from x only where LAUNCHDBG is set; UNDO_DEPTH
never grows (R356, R270, R73, R371). -/
def specialRegistersReadBack : Prop :=
  ∀ (x : Word) (s : State),
    (s.writeSr 0x060 x).readSr 0x060 = x &&& 0x3FF ∧ (s.writeSr 0x061 x).readSr 0x061 = x ∧
    (s.writeSr 0x014 x).readSr 0x014 = x ∧ (s.writeSr 0x063 x).readSr 0x063 = x &&& ~~~(3#64) ∧
    (s.writeSr 0x022 x).readSr 0x022 = BitVec.ofNat 64 (max 256 (min 65536 (x.toNat % 2 ^ 17))) ∧
    (s.writeSr 0x062 x).readSr 0x062 = (if s.g.trapCause.getLsbD 8 then x &&& 0x4FFFFFFFFFFFFFFF else x) ∧
    ((s.writeSr 0x080 x).readSr 0x080).getLsbD 3 = x.getLsbD 3 ∧
    ((s.writeSr 0x080 x).readSr 0x080).getLsbD 2 = x.getLsbD 2 ∧
    ((s.writeSr 0x080 x).readSr 0x080).getLsbD 1 = (if s.g.dbgLaunch then x.getLsbD 1 else s.g.dbgUndo) ∧
    ((s.writeSr 0x080 x).readSr 0x080).getLsbD 0 = s.g.dbgLaunch ∧
    (s.writeSr 0x081 x).g.undo.length = min (x.toNat % 2 ^ 9) s.g.undo.length

end Sys2Proof.Safety

/-- csrr of a listed number puts that special register into k[kd]; a csrw at K of a number that K may write leaves the
state that the write of the register gives, with pc + 4; a csrw at U of such a number raises PRIV; a number that is
not listed, or for csrw not writable, raises ILL. After the write of x: TRAP_CAUSE reads bits 9:0 of x; TRAP_PC and
LPT_BASE read x; TRAP_VEC reads x with bits 1:0 zero; HB_PERIOD reads bits 16:0 of x brought into 256 to 65,536;
TRAP_INFO reads x, without its reserved bits where the trap is of the lane stream; DEBUG reads bits 3:2 of x, with bit
1 from x only where LAUNCHDBG is set; UNDO_DEPTH never grows (R122, R163, R356, R270, R73, R371). -/
def Obligations.SpecialRegisters : Prop :=
  specialRegisterAccess ∧ specialRegistersReadBack

namespace Sys2Proof.Safety

/-- The conditions of R355 under which a trap of a gang at U enters K, and neither halts the gang nor fails its crew. -/
def entersK (s : State) (c : Cause) : Prop :=
  s.g.trapVec ≠ 0 ∧ s.g.level = .u ∧ (∀ x, s.myCrew = some x → x.version.versioned = false) ∧ s.g.dbgHaltTrap = false ∧
    (c = .brk → s.g.dbgHaltBrk = false)

end Sys2Proof.Safety

namespace Sys2Proof.Safety

/-- Every trap of either stream that R355 does not keep from K leaves the gang at K with TRAP_CAUSE = (level before,
stream, code), TRAP_PC = pc, TRAP_INFO as given, k24 to k31 exchanged with the gang's K registers, pc = TRAP_VEC, no
wait, and every other register, the segments, counters, predicates, lane stream and all memory as before; its request
leaves the grant queue of the core (R353, R356, R100). -/
def trapEntersK : Prop :=
  ∀ (s : State) (lane : Bool) (c : Cause) (info : Word), c ≠ .sdc → entersK s c →
    let t := s.takeTrap lane c info
    t.g.level = .k ∧ t.g.pc = s.g.trapVec ∧ t.g.trapPc = s.g.pc ∧ t.g.trapInfo = info ∧
      t.g.trapCause = BitVec.ofNat 64 ((if lane then 256 else 0) + c.code) ∧ t.g.wait = none ∧
      t.g.k = s.g.k.take 24 ++ s.g.kAlt ∧ t.g.kAlt = s.g.k.drop 24 ∧
      t.g = marked { s.g with level := .k, pc := t.g.pc, trapPc := t.g.trapPc, trapInfo := t.g.trapInfo,
                              trapCause := t.g.trapCause, wait := none, kept := t.g.kept, k := t.g.k, kAlt := t.g.kAlt,
                              kPoison := t.g.kPoison, srPoison := t.g.srPoison, latches := t.g.latches,
                              pend := t.g.pend, trail := t.g.trail } t.g ∧
      (s.g.stepOne = none → t.g.status = s.g.status ∧ t.g.haltDue = s.g.haltDue) ∧
      (s.g.shadow = none → t.g.trail = s.g.trail ∧ t.g.shadow = none) ∧
      (s.g.dbgUndo = false → t.g.undo = s.g.undo) ∧
      (∀ x ∈ (t.core s.g.core).grants, x.gang ≠ s.g.ref) ∧ t = { s with g := t.g, cores := t.cores } ∧ sameMemory s t

/-- ktrap takes BRK with TRAP_PC = pc + 4 and TRAP_INFO = 0 : k[ka]<62:0>; kbrk takes BRK with TRAP_PC = pc and
TRAP_INFO = 0x8000_0000_0000_0000: at U with a handler the gang enters K at TRAP_VEC, and where HALTBRK is armed it
halts (once what its lanes have issued has written) with the same trap registers and its level unchanged (R164, R353,
R355). -/
def ktrapAndKbrk : Prop :=
  (∀ (a : Reg) (s : State), sound s a → entersK s .brk → agrees s →
    ∃ t, exec (.ktrap a) s = .next t ∧ t.g.level = .k ∧ t.g.pc = s.g.trapVec ∧ t.g.trapPc = s.g.pc + 4 ∧
      t.g.trapInfo = s.getK a &&& 0x7FFFFFFFFFFFFFFF ∧ t.g.trapCause = 19 ∧ sameMemory s t) ∧
  (∀ s : State, entersK s .brk → agrees s →
    ∃ t, exec .kbrk s = .next t ∧ t.g.level = .k ∧ t.g.pc = s.g.trapVec ∧ t.g.trapPc = s.g.pc ∧
      t.g.trapInfo = 0x8000000000000000 ∧ t.g.trapCause = 19 ∧ sameMemory s t) ∧
  (∀ s : State, s.g.dbgHaltBrk = true → agrees s →
    ∃ t, exec .kbrk s = .next t ∧ (s.g.pend = [] → t.g.status = .halted) ∧ (s.g.pend ≠ [] → t.g.haltDue = true) ∧
      t.g.level = s.g.level ∧ t.g.pc = s.g.pc ∧ t.g.k = s.g.k ∧ t.g.trapPc = s.g.pc ∧ t.g.trapInfo = 0x8000000000000000 ∧ sameMemory s t)

end Sys2Proof.Safety

/-- Every trap of either stream that R355 does not keep from K leaves the gang at K with TRAP_CAUSE = (level before,
stream, code), TRAP_PC = pc, TRAP_INFO as given, k24 to k31 exchanged with the gang's K registers, pc = TRAP_VEC, no
wait, and every other register, the segments, counters, predicates, lane stream and all memory as before; its request
leaves the grant queue of the core. ktrap takes BRK with TRAP_PC = pc + 4 and TRAP_INFO = 0 : k[ka]<62:0>; kbrk takes
BRK with TRAP_PC = pc and TRAP_INFO = 0x8000_0000_0000_0000: at U with a handler the gang enters K at TRAP_VEC, and
where HALTBRK is armed it halts (once what its lanes have issued has written) with the same trap registers and its
level unchanged (R353, R356, R100, R164, R355). -/
def Obligations.TrapsTaken : Prop :=
  trapEntersK ∧ ktrapAndKbrk

/-- At K, keret answers a next state at U with pc = TRAP_PC AND NOT 3, TRAP_CAUSE, TRAP_INFO and TRAP_VEC unchanged,
k24 to k31 exchanged back, and memory as before; at U it raises PRIV (R165). -/
def Obligations.KeretReturnsToU : Prop :=
  (∀ s : State, s.g.level = .k → 0x060 ∉ s.g.srPoison → 0x061 ∉ s.g.srPoison → 0x062 ∉ s.g.srPoison →
    ∃ t, exec .keret s = .next t ∧ t.g.level = .u ∧ t.g.pc = s.g.trapPc &&& ~~~(3#64) ∧
      t.g.trapCause = s.g.trapCause ∧ t.g.trapInfo = s.g.trapInfo ∧ t.g.trapVec = s.g.trapVec ∧
      t.g.k = s.g.k.take 24 ++ s.g.kAlt ∧ t.g.kAlt = s.g.k.drop 24 ∧ t = { s with g := t.g } ∧ sameMemory s t) ∧
  (∀ s : State, s.g.level = .u → exec .keret s = .next (trapped s false .priv 0))

namespace Sys2Proof.Safety

/-- lbk with room in the queue appends the block of its index with a copy of k0 to k31 and goes on, and raises OPND
where the sum is 2^24 or more; lsync goes on when the lane stream is idle; lget reads the window register of the lane
(0 for a dead lane) into k[kd]; lslots reads the free queue places and whether the lane stream is idle (R89, R90). -/
def laneBlockControl : Prop :=
  (∀ (a : Reg) (i : BitVec 16) (s : State), (∀ r ∈ s.g.kPoison, 32 ≤ r) →
    let idx := (s.getK a).toNat + i.toNat
    (idx < 2 ^ 24 → s.g.lane.queue.length < 4 → ∃ t, exec (.lbk a i) s = .next t ∧ t.g.pc = s.g.pc + 4 ∧
      t.g.lane = { s.g.lane with
        queue := s.g.lane.queue ++ [{ idx := BitVec.ofNat 24 idx, snap := s.g.k }],
        enqueued := s.g.lane.enqueued + 1 } ∧
      wroteK s { t with g := { t.g with lane := s.g.lane } } 0 0) ∧
    (2 ^ 24 ≤ idx → exec (.lbk a i) s = .next (trapped s false .opnd 0))) ∧
  (∀ s : State, s.g.laneIdle = true → ∃ t, exec .lsync s = .next t ∧ wroteK s t 0 0 ∧ t.g.pc = s.g.pc + 4) ∧
  (∀ (d a : Reg) (s : State) (lane n : Nat), sound s a → s.g.laneIdle = true → s.getK a = BitVec.ofNat 64 (lane * 64 + n) →
    lane < 32 → n < 64 → n < s.g.window → (∀ p ∈ s.g.pend, s.g.win + n ∉ p.regs) → (s.g.win + n, lane) ∉ s.g.vPoison →
    ∃ t, exec (.lget d a) s = .next t ∧ t.g.pc = s.g.pc + 4 ∧
      wroteK s t d (if s.g.dead.getLsbD lane then 0 else (s.g.getV lane n).setWidth 64)) ∧
  (∀ (d : Reg) (s : State), s.g.lane.queue.length ≤ 4 →
    ∃ t, exec (.lslots d) s = .next t ∧ t.g.pc = s.g.pc + 4 ∧
      wroteK s t d (BitVec.ofNat 64 (4 - s.g.lane.queue.length +
        (if s.g.lane.queue = [] ∧ s.g.lane.running = false then 256 else 0))))

/-- kcall at an idle lane stream, once the spill it needs (none where the new window is resident) is done, writes k31
:= pc + 4, raises WIN by 8 × step and jumps; kret, once its fill is done, lowers WIN by 8 × step and jumps to k31. A
step above 7 raises ILL (R97, R98, R357). -/
def callsMoveTheWindow : Prop :=
  (∀ (st : BitVec 4) (i : BitVec 22) (s t : State), st.toNat ≤ 7 → s.g.laneIdle = true → s.g.pend = [] →
    s.g.win + 8 * st.toNat + 64 ≤ 65536 → (s.g.res + 8 * s.g.allot < s.g.win + 8 * st.toNat + s.g.window → agrees s) →
    s.moveGroups true ((s.g.win + 8 * st.toNat + s.g.window - (s.g.res + 8 * s.g.allot)) / 8) = (.ok (), t) →
    ∃ u, exec (.kcall st i) s = .next u ∧ u.g.pc = t.g.pc + i.signExtend 64 * 4 ∧ u.g.win = s.g.win + 8 * st.toNat ∧
      wroteK t { u with g := { u.g with win := t.g.win } } 31 (t.g.pc + 4)) ∧
  (∀ s : State, s.moveGroups true 0 = (.ok (), s)) ∧
  (∀ (st : BitVec 4) (s t : State), st.toNat ≤ 7 → s.g.laneIdle = true → s.g.pend = [] → sound s 31 →
    8 * st.toNat ≤ s.g.win → (s.getK 31).toNat % 4 = 0 →
    s.moveGroups false ((s.g.res - (s.g.win - 8 * st.toNat) + 7) / 8) = (.ok (), t) →
    ∃ u, exec (.kret st) s = .next u ∧ u.g.pc = t.getK 31 ∧ u.g.win = s.g.win - 8 * st.toNat ∧
      wroteK t { u with g := { u.g with win := t.g.win } } 0 0) ∧
  (∀ (st : BitVec 4) (i : BitVec 22) (s : State), 7 < st.toNat →
    exec (.kcall st i) s = .next (trapped s false .ill 0) ∧ exec (.kret st) s = .next (trapped s false .ill 0))

end Sys2Proof.Safety

/-- lbk with room in the queue appends the block of its index with a copy of k0 to k31 and goes on, and raises OPND
where the sum is 2^24 or more; lsync goes on when the lane stream is idle; lget reads the window register of the lane
(0 for a dead lane) into k[kd]; lslots reads the free queue places and whether the lane stream is idle. kcall at an
idle lane stream, once the spill it needs (none where the new window is resident) is done, writes k31 := pc + 4,
raises WIN by 8 × step and jumps; kret, once its fill is done, lowers WIN by 8 × step and jumps to k31. A step above 7
raises ILL (R89, R90, R97, R98, R357). -/
def Obligations.BlocksAndCalls : Prop :=
  laneBlockControl ∧ callsMoveTheWindow

namespace Sys2Proof.Safety

/-- A version whose held bytes are listed by rising address, in regions and not in the harbour window, and whose lines of
memory type 2 are lines of them. -/
def versionWf (s : State) (v : Version) : Prop :=
  v.held.Pairwise (fun x y => x.1 < y.1) ∧ (∀ x ∈ v.held, inWindow x.1 = false ∧ (s.regionOf x.1).isSome = true) ∧
    ∀ n ∈ v.direct, ∃ x ∈ v.held, x.1 / 128 = n

/-- Whether an address shares no DRAM byte with some lines, unless it lies in them. -/
def apartFrom (s : State) (lines : List Nat) (a : Nat) : Prop :=
  ∀ n ∈ lines, n = a / 128 ∨ ∀ b, b / 128 = n → s.placeOf b ≠ s.placeOf a

/-- u is s after a commit of the open version of crew `id`, or s where none is open: every held byte is at its home,
nothing is held, one more commit point is counted, and a version is open only if the commit opens the next one (R366,
R367). -/
def committed (s u : State) (id : Nat) (closes : Bool) : Prop :=
  match s.crew id with
  | none => u = s
  | some c =>
    if c.version.opened = false then u = s
    else
      u.crew id = some { c with version := { c.version with
        held := [], bad := [], direct := [], opened := !closes, commits := (c.version.commits + 1) % 256 } } ∧
      (∀ j, j ≠ id → u.crew j = s.crew j) ∧
      (homesWf s = true → versionWf s c.version → ∀ a, apartFrom s c.version.direct a →
        u.homeByte a = (cellAt c.version.held a).getD (s.homeByte a)) ∧
      u = { s with crews := u.crews, l2 := u.l2, dram := u.dram, poison := u.poison, checks := u.checks, cores := u.cores,
                   tasks := u.tasks, errlog := u.errlog } ∧
      (∀ n, u.core n = { s.core n with l1 := (u.core n).l1 }) ∧
      u.tasks.map (fun x => { x with kept := [] }) = s.tasks.map (fun x => { x with kept := [] })

/-- The release of the gang at a scope: from clus scope on it commits the version of its crew (R170, R367). -/
def releasedAt (s u : State) (scope : Nat) : Prop := if 1 ≤ scope then committed s u s.g.ref.crew false else u = s

/-- The acquire of the gang at a scope: from clus scope on it empties the L1 of its core (R170, R261). -/
def acquiredAt (s u : State) (scope : Nat) : Prop :=
  if 1 ≤ scope then
    u = { s with cores := u.cores } ∧ (∀ n, n ≠ s.g.core → u.core n = s.core n) ∧
      u.core s.g.core = { s.core s.g.core with l1 := [] }
  else u = s

end Sys2Proof.Safety

namespace Sys2Proof.Safety

/-- At an idle lane stream: fence.rel with every load back and UST 0 (and, with bd, IFC_BD 0) commits the open version
of its crew at clus scope or wider and goes on; fence.acq with every load back empties the L1 of the core at clus
scope or wider and goes on; fence does both; fence.sc does its release, waits for the next heartbeat tick and then
does the acquire; fencex goes on when its first path has nothing outstanding. No k register changes (R170, R171, R172,
R261, R367). -/
def fencesComplete : Prop :=
  (∀ (sc : BitVec 5) (bd : BitVec 1) (s : State), sc.toNat ≤ 4 → s.g.laneIdle = true → s.g.loadsBack = true →
    s.g.ust = 0 → (bd = 1 → s.g.ifcOf .bd = 0) →
    (∃ u t, releasedAt s u sc.toNat ∧ exec (.fenceRel sc bd) s = .next t ∧ wroteK u t 0 0 ∧ t.g.pc = s.g.pc + 4) ∧
    (∃ u v t, releasedAt s u sc.toNat ∧ acquiredAt u v sc.toNat ∧ exec (.fence sc bd) s = .next t ∧ wroteK v t 0 0 ∧
      t.g.pc = s.g.pc + 4) ∧
    (sc = 3 ∨ sc = 4 → s.hasFeature 10 = true → s.g.wait = none → ∃ u, releasedAt s u sc.toNat ∧
      exec (.fenceSc sc bd) s = .next { u with g := { u.g with wait := some (.tick s.heartbeat.toNat) } })) ∧
  (∀ (sc : BitVec 5) (bd : BitVec 1) (s : State), sc.toNat ≤ 4 → s.g.laneIdle = true → s.g.loadsBack = true →
    ∃ v t, acquiredAt s v sc.toNat ∧ exec (.fenceAcq sc bd) s = .next t ∧ wroteK v t 0 0 ∧ t.g.pc = s.g.pc + 4) ∧
  (∀ (sc : BitVec 5) (bd : BitVec 1) (s : State) (n : Nat), sc = 3 ∨ sc = 4 → s.hasFeature 10 = true →
    s.g.wait = some (.tick n) → n < s.heartbeat.toNat →
    ∃ v t, acquiredAt s v sc.toNat ∧ exec (.fenceSc sc bd) s = .next t ∧ wroteK v t 0 0 ∧ t.g.pc = s.g.pc + 4) ∧
  (∀ (sc f p : BitVec 5) (s : State), sc.toNat ≤ 4 → f.toNat ≤ 7 → p.toNat ≤ 7 → s.g.laneIdle = true →
    (f = 0 ∨ f = 2 → s.g.loadsBack = true) → (f = 1 ∨ f = 2 → s.g.ust = 0) →
    ∃ t, exec (.fencex sc f p) s = .next t ∧ wroteK s t 0 0 ∧ t.g.pc = s.g.pc + 4)

/-- At an idle lane stream: pwait of path 3 to 7 goes on when the in-flight counter of the path is at most k[ka];
cbwait goes on when BATCH_SEALED − BATCH_DONE is at most k[ka]; cseal with fewer than 15 unfinished batches raises
BATCH_SEALED by one, writes it to k[kd] and goes on (R173, R174, R239). -/
def engineWaitsAndBatches : Prop :=
  (∀ (p : BitVec 5) (a : Reg) (s : State), 3 ≤ p.toNat → p.toNat ≤ 7 → sound s a → s.g.laneIdle = true →
    s.g.ifcOf (enginePath p.toNat) ≤ (s.getK a).toNat →
    ∃ t, exec (.pwait p a) s = .next t ∧ wroteK s t 0 0 ∧ t.g.pc = s.g.pc + 4) ∧
  (∀ (a : Reg) (s : State), sound s a → s.g.laneIdle = true → (s.g.sealed - s.g.batchDone).toNat ≤ (s.getK a).toNat →
    ∃ t, exec (.cbwait a) s = .next t ∧ wroteK s t 0 0 ∧ t.g.pc = s.g.pc + 4) ∧
  (∀ (d : Reg) (s : State), s.g.laneIdle = true → (s.g.sealed - s.g.batchDone).toNat < 15 → s.g.status = .run →
    ∃ t, exec (.cseal d) s = .next t ∧ t.g.sealed = s.g.sealed + 1 ∧ t.g.pc = s.g.pc + 4 ∧
      t.g.k = (if d = 0 then s.g.k else s.g.k.set d.toNat ((s.g.sealed + 1).setWidth 64)) ∧ t = { s with g := t.g } ∧
      sameMemory s t)

end Sys2Proof.Safety

/-- At an idle lane stream: fence.rel with every load back and UST 0 (and, with bd, IFC_BD 0) commits the open version
of its crew at clus scope or wider and goes on; fence.acq with every load back empties the L1 of the core at clus
scope or wider and goes on; fence does both; fence.sc does its release, waits for the next heartbeat tick and then
does the acquire; fencex goes on when its first path has nothing outstanding. No k register changes. At an idle lane
stream: pwait of path 3 to 7 goes on when the in-flight counter of the path is at most k[ka]; cbwait goes on when
BATCH_SEALED − BATCH_DONE is at most k[ka]; cseal with fewer than 15 unfinished batches raises BATCH_SEALED by one,
writes it to k[kd] and goes on (R170, R171, R172, R261, R367, R173, R174, R239). -/
def Obligations.FencesAndWaits : Prop :=
  fencesComplete ∧ engineWaitsAndBatches

/-- sgld at K, at an aligned address, with the lane stream idle, UST 0 and no engine instruction in flight, puts base
and limit of a legal descriptor into the named segment register; srec at a 64-byte aligned address puts a legal stream
record into its slot at position 0. Nothing else changes but pc and cached copies; at U sgld raises PRIV (R43, R167,
R175, R252). -/
def Obligations.RecordLoads : Prop :=
  (∀ (a : Reg) (s t : State) (x : Nat) (n : SegName) (v : Seg), s.g.level = .k → sound s a → agrees s →
    (s.getK a).toNat % 16 = 0 → s.g.laneIdle = true → s.g.ust = 0 → s.g.ifc = [] →
    readsOk s .g (s.getK a).toNat 16 true t x → segDescriptor x = some (n, v) →
    ∃ u, exec (.sgld a) s = .next u ∧ onlyCaches s t ∧ u.g.pc = s.g.pc + 4 ∧ u.g.segs = s.g.segs.put n v ∧
      v.base.toNat = x % 2 ^ 57 ∧ v.limit.toNat = x / 2 ^ 64 % 2 ^ 58 ∧
      wroteK t { u with g := { u.g with segs := t.g.segs } } 0 0) ∧
  (∀ (a : Reg) (s : State), s.g.level = .u → exec (.sgld a) s = .next (trapped s false .priv 0)) ∧
  (∀ (sl : BitVec 5) (a : Reg) (s t : State) (x : Nat) (r : StreamRec), sl.toNat ≤ 3 → sound s a →
    (s.getK a).toNat % 64 = 0 → s.g.laneIdle = true → readsOk s .g (s.getK a).toNat 64 true t x →
    streamRecord x = some r →
    ∃ u, exec (.srec sl a) s = .next u ∧ onlyCaches s t ∧ u.g.pc = s.g.pc + 4 ∧
      u.g.streams = s.g.streams.set sl.toNat (some { desc := r, pos := 0 }) ∧
      wroteK t { u with g := { u.g with streams := t.g.streams } } 0 0)

namespace Sys2Proof.Safety

/-- A barrier after R321: a phase whose arrivals and bytes are all in completes. -/
def phaseDone (b : Barrier) : Barrier :=
  if b.arr = b.memb ∧ b.memb ≠ 0 ∧ b.tx = 0 ∧ b.excess = false then
    { b with phase := !b.phase, arr := 0, memb := b.next.getD b.memb, next := none }
  else b

/-- A crew barrier after gang `idx` of the crew ends (R322). -/
def leftBy (b : Barrier) (idx : Nat) : Barrier :=
  if b.memb &&& BitVec.twoPow 32 idx = 0 then b
  else phaseDone { b with memb := b.memb &&& ~~~(BitVec.twoPow 32 idx), arr := b.arr &&& ~~~(BitVec.twoPow 32 idx),
                          next := b.next.map fun n => n &&& ~~~(BitVec.twoPow 32 idx) }

/-- A page after the step mode of a gang has ended: what step mode held before the port is accepted (R278, R282). -/
def stepLeft (r : GangRef) (p : Page) : Page :=
  if p.owner = some r then { p with owner := none, port := p.port ++ p.outside, outside := [] } else p

end Sys2Proof.Safety

/-- kend at an idle lane stream, with no open or unfinished batch, its counters of CP, MX, XF and FX and UST 0 and
every load back, ends the gang. In a crew where another gang has not ended, the gang is ENDED with no units, no
register slots and no wait; every crew barrier loses it as R322 says, and a phase that this completes releases its
waiters; step mode that it owns ends; nothing else changes. With the last gang of a crew whose work is all complete,
the crew and its gangs are gone (R166, R322, R86, R278, R282). -/
def Obligations.KendEndsTheGang : Prop :=
  ∀ s : State, agrees s → s.g.laneIdle = true → s.g.sealed = s.g.batchDone →
    (∀ n ∈ s.g.notes, n.num ≠ (s.g.sealed + 1).toNat) → (∀ p, p ≠ .bd → s.g.ifcOf p = 0) → s.g.ust = 0 →
    s.g.loadsBack = true →
    ((∃ x ∈ s.gangs, x.ref.crew = s.g.ref.crew ∧ x.status ≠ .ended) →
      ∃ t, exec .kend s = .next t ∧ t.g.status = .ended ∧
        t.g = marked { s.g with status := .ended, allot := 0, units := [], regs := [], wait := none, kept := none } t.g ∧
        (∀ n < 16, t.barrier (.crew s.g.ref.crew n) =
          (s.barrier (.crew s.g.ref.crew n)).map fun b => leftBy b s.g.ref.idx) ∧
        (∀ c, s.myCrew = some c → ∃ c', t.crew s.g.ref.crew = some c' ∧
          c' = { c with barriers := c'.barriers, pages := c.pages.map (stepLeft s.g.ref) }) ∧
        (∀ j, j ≠ s.g.ref.crew → t.crew j = s.crew j) ∧
        (∃ f : Gang → Gang, t.gangs = s.gangs.map f ∧ ∀ g, f g = { g with wait := (f g).wait, kept := (f g).kept } ∧
          ∀ n < 16, ∀ b, s.barrier (.crew s.g.ref.crew n) = some b →
            g.wait = some (.barrier (.crew s.g.ref.crew n) b.phase) →
            (f g).wait = some (if (leftBy b s.g.ref.idx).phase = b.phase then
              .barrier (.crew s.g.ref.crew n) b.phase else .passed none)) ∧
        t = { s with g := t.g, gangs := t.gangs, crews := t.crews }) ∧
    ((∀ x ∈ s.gangs, x.ref.crew = s.g.ref.crew → x.status = .ended) → (s.kernelOf s.g.ref.crew).isSome →
      s.g.status = .run → s.crewBusy s.g.ref.crew = false →
      ∃ t, exec .kend s = .next t ∧ t.crews.map Crew.id = (s.crews.map Crew.id).erase s.g.ref.crew ∧
        t.g.status = .absent ∧ t.gangs.map Gang.ref = (s.gangs.map Gang.ref).filter fun r => r.crew != s.g.ref.crew)

namespace Sys2Proof.Safety

/-- A gang that waits for a phase of a barrier which has completed is released; barrw keeps its token (R322, R325). -/
def letGo (a : BarAt) (phase : Bool) (w : Wait) : Wait :=
  match w with
  | .barrier x token => if x = a ∧ token ≠ phase then .passed none else w
  | .arrived x token => if x = a ∧ token ≠ phase then .passed (some token) else w
  | w => w

/-- u is s with one barrier as given, every other as it was; where its phase has changed, the gangs that wait for it are
released. -/
def barrierSet (s u : State) (a : BarAt) (b : Barrier) : Prop :=
  u.barrierAt a = b ∧ (∀ x, x ≠ a → u.barrierAt x = s.barrierAt x) ∧
    u = { s with g := u.g, gangs := u.gangs, crews := u.crews, kernels := u.kernels } ∧
    u.crews.map (fun c => { c with barriers := [] }) = s.crews.map (fun c => { c with barriers := [] }) ∧
    u.kernels.map (fun k => { k with barriers := [] }) = s.kernels.map (fun k => { k with barriers := [] }) ∧
    u.g = { s.g with wait := u.g.wait, kept := u.g.kept } ∧
    u.gangs = if b.phase = (s.barrierAt a).phase then s.gangs
      else s.gangs.map fun g => { g with wait := g.wait.map (letGo a b.phase),
                                         kept := g.kept.map fun (x : Word × Wait) => (x.1, letGo a b.phase x.2) }

/-- Whether the gang may arrive (R325): at crew level it is a member that has not arrived; elsewhere the barrier is
set. -/
def mayCome (s : State) (name : Word) (x : Barrier) : Prop :=
  if barLevel name = 0 then x.memb.getLsbD s.g.ref.idx = true ∧ x.arr.getLsbD s.g.ref.idx = false else x.memb ≠ 0

/-- A barrier after one arrival (R321, R322): beyond MEMB the phase stays open for good. -/
def arrivedBy (name : Word) (idx : Nat) (x : Barrier) : Barrier :=
  if barLevel name = 0 then phaseDone { x with arr := x.arr ||| BitVec.twoPow 32 idx }
  else if x.arr.toNat < x.memb.toNat then phaseDone { x with arr := x.arr + 1 }
  else { x with arr := if x.arr = BitVec.allOnes 32 then x.arr else x.arr + 1, excess := true }

end Sys2Proof.Safety

/-- Each member of BAR with a valid name in a kernel. barinit puts its value into MEMB where the barrier is idle, else
into NEXT; barx adds its count to TX; barr, after its release, sets the gang in ARR or adds one to it, and answers
PHASE. When that makes ARR equal MEMB with TX 0, the phase completes: PHASE inverted, ARR cleared, NEXT moved to MEMB,
the waiters released. barw goes on when the phase differs from its token, or once released, and waits otherwise; barrw
arrives and then does so with the token it obtained, which it answers. No other barrier changes. A name that is not
valid raises OPND (R319, R320, R321, R322, R325). -/
def Obligations.BarriersComplete : Prop :=
  ∀ (a b d : Reg) (s : State), sound s a → sound s b → (s.kernelOf s.g.ref.crew).isSome = true →
    let name := s.getK a
    let at_ := s.barOf name
    let x := s.barrierAt at_
    (barValid name = false → s.g.wait = none →
      exec (.barinit a b) s = .next (trapped s false .opnd 0) ∧ exec (.barx a b) s = .next (trapped s false .opnd 0) ∧
      exec (.barr d a) s = .next (trapped s false .opnd 0) ∧ exec (.barw a b) s = .next (trapped s false .opnd 0) ∧
      exec (.barrw d a) s = .next (trapped s false .opnd 0)) ∧
    (barValid name = true → agrees s →
      (s.getK b ≠ 0 →
        (if barLevel name = 0 then ∀ k, s.kernelOf s.g.ref.crew = some k → (s.getK b).toNat < 2 ^ k.desc.gangs
          else (s.getK b).toNat < 2 ^ 32) →
        ∃ u t, exec (.barinit a b) s = .next t ∧ wroteK u t 0 0 ∧ t.g.pc = s.g.pc + 4 ∧
          barrierSet s u at_ (if x.arr = 0 ∧ x.tx = 0 then { x with memb := (s.getK b).setWidth 32, next := none }
            else { x with next := some ((s.getK b).setWidth 32) })) ∧
      (-(2 ^ 39) ≤ (s.getK b).toInt → (s.getK b).toInt < 2 ^ 39 → x.tx + (s.getK b).toInt ≤ 2 ^ 39 - 1 →
        -(2 ^ 39 - 1) ≤ x.tx + (s.getK b).toInt →
        ∃ u t, exec (.barx a b) s = .next t ∧ wroteK u t 0 0 ∧ t.g.pc = s.g.pc + 4 ∧
          barrierSet s u at_ (phaseDone { x with tx := x.tx + (s.getK b).toInt })) ∧
      (mayCome s name x → s.g.laneIdle = true → s.g.loadsBack = true → s.g.ust = 0 →
        (∃ r u t, releasedAt s r (barLevel name) ∧ barrierSet r u at_ (arrivedBy name s.g.ref.idx x) ∧
          exec (.barr d a) s = .next t ∧ wroteK u t d (if x.phase then 1 else 0) ∧ t.g.pc = s.g.pc + 4) ∧
        (s.g.wait = none → (arrivedBy name s.g.ref.idx x).phase = x.phase →
          ∃ r u, releasedAt s r (barLevel name) ∧ barrierSet r u at_ (arrivedBy name s.g.ref.idx x) ∧
            exec (.barrw d a) s = .next { u with g := { u.g with wait := some (.arrived at_ x.phase) } }) ∧
        (s.g.wait = none → (arrivedBy name s.g.ref.idx x).phase ≠ x.phase →
          ∃ r u v t, releasedAt s r (barLevel name) ∧ barrierSet r u at_ (arrivedBy name s.g.ref.idx x) ∧
            acquiredAt u v (barLevel name) ∧ exec (.barrw d a) s = .next t ∧
            wroteK v t d (if x.phase then 1 else 0) ∧ t.g.pc = s.g.pc + 4)) ∧
      ((s.getK b).toNat < 2 → s.g.laneIdle = true → s.g.wait = none →
        (x.phase = (s.getK b).getLsbD 0 →
          exec (.barw a b) s = .next { s with g := { s.g with wait := some (.barrier at_ x.phase) } }) ∧
        (x.phase ≠ (s.getK b).getLsbD 0 → s.g.loadsBack = true →
          ∃ v t, acquiredAt s v (barLevel name) ∧ exec (.barw a b) s = .next t ∧ wroteK v t 0 0 ∧ t.g.pc = s.g.pc + 4))) ∧
    (s.g.wait = some (.passed none) → s.g.loadsBack = true →
      ∃ v t, acquiredAt s v (barLevel name) ∧ exec (.barw a b) s = .next t ∧ wroteK v t 0 0 ∧ t.g.pc = s.g.pc + 4) ∧
    ∀ token, s.g.wait = some (.passed (some token)) →
      ∃ v t, acquiredAt s v (barLevel name) ∧ exec (.barrw d a) s = .next t ∧ wroteK v t d (if token then 1 else 0) ∧
        t.g.pc = s.g.pc + 4

namespace Sys2Proof.Safety

/-- The gang of t holds n more units than in s, with new slots zero, and k[d] the new allotment (R100). -/
def grewBy (s t : State) (d : Reg) (n : Nat) : Prop :=
  t.g.allot = s.g.allot + n ∧ t.g.regs = s.g.regs ++ List.replicate (8 * n) (List.replicate 32 0) ∧
    t.g.units.length = s.g.units.length + n ∧ t.g.pc = s.g.pc + 4 ∧ t.g.wait = none ∧
    t.g.k = (if d = 0 then s.g.k else s.g.k.set d.toNat (BitVec.ofNat 64 (s.g.allot + n))) ∧
    t = { s with g := t.g, cores := t.cores } ∧ sameMemory s t

end Sys2Proof.Safety

/-- In a versioned crew whose context has the feature, at an idle lane stream with UST 0: vbeg leaves a version open
and reads VER_STATE (bit 0 versioned, bit 1 open, bits 15:8 the commit points, bits 39:16 the held lines) into k[kd];
vcom puts every held write at its home, leaves no version open and nothing held, counts one commit point, and reads
VER_STATE; where none is open it only reads it. Every other byte, crew and register is as before. In a crew that is
not versioned both raise VERSION (R178, R366, R367, R370). -/
def Obligations.VersionsBeginAndCommit : Prop :=
  (∀ (d : Reg) (s : State) (c : Crew), s.hasFeature 3 = true → s.myCrew = some c → c.version.versioned = true →
    c.version.commits < 256 → s.g.laneIdle = true → s.g.ust = 0 →
    (∃ u t, exec (.vbeg d) s = .next t ∧ u = { s with crews := u.crews } ∧
      u.crew s.g.ref.crew = some { c with version := { c.version with opened := true } } ∧
      (∀ j, j ≠ s.g.ref.crew → u.crew j = s.crew j) ∧ t.g.pc = s.g.pc + 4 ∧
      wroteK u t d (BitVec.ofNat 64 (3 + 256 * c.version.commits +
        65536 * min (2 ^ 24 - 1) (heldLines c.version.held).length))) ∧
    (c.version.opened = true → ∃ u t, committed s u s.g.ref.crew true ∧ exec (.vcom d) s = .next t ∧
      t.g.pc = s.g.pc + 4 ∧ wroteK u t d (BitVec.ofNat 64 (1 + 256 * ((c.version.commits + 1) % 256)))) ∧
    (c.version.opened = false → ∃ t, exec (.vcom d) s = .next t ∧ t.g.pc = s.g.pc + 4 ∧
      wroteK s t d (BitVec.ofNat 64 (1 + 256 * c.version.commits +
        65536 * min (2 ^ 24 - 1) (heldLines c.version.held).length)))) ∧
  (∀ (d : Reg) (s : State) (c : Crew), s.hasFeature 3 = true → s.myCrew = some c → c.version.versioned = false →
    exec (.vbeg d) s = .next (trapped s false .version 0) ∧ exec (.vcom d) s = .next (trapped s false .version 0))

namespace Sys2Proof.Safety

/-- A sound register that names the bank h of the crew, whose page is p (R275, R283). -/
def bankAt (s : State) (a : Reg) (h : Nat) (p : Page) : Prop :=
  sound s a ∧ (s.getK a).toNat = h ∧ h < 16 ∧ s.page s.g.ref.crew h = some p

/-- t is s with the page of bank h of the gang's crew as given. -/
def pageSet (s t : State) (h : Nat) (p : Page) : Prop :=
  t.page s.g.ref.crew h = some p ∧ (∀ c h', c ≠ s.g.ref.crew ∨ h' ≠ h → t.page c h' = s.page c h') ∧
    t.crews.map (fun c => { c with pages := [] }) = s.crews.map (fun c => { c with pages := [] }) ∧
    t = { s with crews := t.crews }

/-- A page with an operation last at its port, or outside it where another gang has the bank in step mode (R279, R282). -/
def sentTo (p : Page) (op : BankOp) : Page :=
  if p.owner.isSome ∧ p.owner ≠ some op.gang then { p with outside := p.outside ++ [op] }
  else { p with port := p.port ++ [op] }

/-- A bank operation issued: it goes to bank h, IFC_FX counts it, and the instruction is over (R238, R279, R282). -/
def sent (s t : State) (h : Nat) (act : BankAct) : Prop :=
  (∀ p, s.page s.g.ref.crew h = some p → ∃ u, pageSet s u h
      (sentTo p { id := s.nextId, gang := s.g.ref, act := act, steps := 0 }) ∧
    t = { u with g := t.g, nextId := s.nextId + 1 }) ∧
  t.g = marked { s.g with ifc := s.g.ifc ++ [{ path := .fx, id := s.nextId, done := false }], pc := s.g.pc + 4,
                          wait := none, kept := t.g.kept } t.g ∧ completes false s t

/-- Microsequencer cycles of a row operation, or rows of a column access: its steps in step mode (R282, R293). -/
def stepsOf (act : BankAct) : Nat :=
  match act with
  | .bv op desc _ =>
    (match op with
     | .add | .sub | .neg | .addk | .sel => (rowDesc desc).w + 1
     | .mul => (rowDesc desc).w * ((rowDesc desc).w + 2)
     | .pld | .pst => 1
     | _ => (rowDesc desc).w) + if desc.getLsbD 43 then 1 else 0
  | .cpr sel _ desc _ _ _ => if sel = 0 then desc.toNat / 2 ^ 22 % 32 + 1 else 1
  | .cpw sel _ desc _ _ => if sel = 0 then desc.toNat / 2 ^ 22 % 32 + 1 else 1
  | _ => 1

/-- The bank status word (R286): mode, step mode, whether the head of the port runs, how many operations wait, the slot of
the step owner, and whether a column has OVF or NAN. -/
def statusOf (s : State) (p : Page) : Word :=
  let runs : Bool := match p.port with
    | [] => false
    | op :: _ => (op.act.isMx && s.mxs.any fun m => m.id == op.id && m.started)
        || (if p.owner.isSome then op.steps != 0 else !op.act.isMx)
  let slot := match p.owner with
    | some r => ((s.gang r).map Gang.slot).getD 0
    | none => 0
  BitVec.ofNat 64 ((if p.comp then 1 else 0) + (if p.owner.isSome then 2 else 0) + (if runs then 4 else 0) +
    256 * min 255 (p.port.length - (if runs then 1 else 0) + p.outside.length) + 2 ^ 16 * slot +
    (if p.cols.any fun x => x.2.ovf then 2 ^ 21 else 0) + (if p.cols.any fun x => x.2.nan then 2 ^ 22 else 0))

end Sys2Proof.Safety

/-- With a sound register that names a bank of the crew: bmode.stor, bmode.comp and, on a compute bank with the
feature, bstep.on send their operation to the port and raise IFC_FX; bstep.off by the owner ends step mode, and does
nothing for another gang, as bstep.step does; bstep.step by the owner takes a step of the operation at the head that
is not its last; bquery reads the status word of R286; bsync goes on when the operations it waits for, or that it
finds at the port, are none, and else waits for those. A register with a bit above the handle raises OPND, one that
names no bank SEG. Nothing else changes (R278, R279, R282, R283, R284, R285, R286, R287). -/
def Obligations.BankControlIssues : Prop :=
  (∀ (a : Reg) (s : State) (h : Nat) (p : Page), bankAt s a h p → s.g.ifcOf .fx < 63 → agrees s →
    (∃ t, exec (.bmodeStor a) s = .next t ∧ sent s t h (.mode false)) ∧
    (∃ t, exec (.bmodeComp a) s = .next t ∧ sent s t h (.mode true)) ∧
    (s.hasFeature 11 = true → p.comp = true → ∃ t, exec (.bstepOn a) s = .next t ∧ sent s t h .stepOn)) ∧
  (∀ (a : Reg) (s : State) (h : Nat) (p : Page), bankAt s a h p → s.hasFeature 11 = true → agrees s →
    (∃ u t, exec (.bstepOff a) s = .next t ∧ wroteK u t 0 0 ∧ t.g.pc = s.g.pc + 4 ∧ pageSet s u h (stepLeft s.g.ref p)) ∧
    (p.owner ≠ some s.g.ref → ∃ t, exec (.bstepStep a) s = .next t ∧ wroteK s t 0 0 ∧ t.g.pc = s.g.pc + 4) ∧
    (p.owner = some s.g.ref → p.port = [] → ∃ t, exec (.bstepStep a) s = .next t ∧ wroteK s t 0 0 ∧
      t.g.pc = s.g.pc + 4) ∧
    (∀ op rest, p.owner = some s.g.ref → p.port = op :: rest → op.steps + 1 < stepsOf op.act ∨ op.act.isMx = true →
      ∃ u t, exec (.bstepStep a) s = .next t ∧ wroteK u t 0 0 ∧ t.g.pc = s.g.pc + 4 ∧
        pageSet s u h { p with port := { op with steps := op.steps + 1 } :: rest })) ∧
  (∀ (d a : Reg) (s : State) (h : Nat) (p : Page), bankAt s a h p →
    ∃ t, exec (.bquery d a) s = .next t ∧ t.g.pc = s.g.pc + 4 ∧ wroteK s t d (statusOf s p)) ∧
  (∀ (a : Reg) (s : State) (h : Nat) (p : Page), bankAt s a h p → s.g.wait = none →
    (p.port = [] → p.outside = [] → ∃ t, exec (.bsync a) s = .next t ∧ t.g.pc = s.g.pc + 4 ∧ wroteK s t 0 0) ∧
    (p.port ≠ [] ∨ p.outside ≠ [] → exec (.bsync a) s = .next { s with g := { s.g with
      wait := some (.bankOps ((p.port ++ p.outside).map BankOp.id)) } })) ∧
  (∀ (a : Reg) (s : State) (c : Crew) (ids : List Nat), s.g.wait = some (.bankOps ids) → s.myCrew = some c →
    (∀ p ∈ c.pages, ∀ o ∈ p.port ++ p.outside, o.id ∉ ids) →
    ∃ t, exec (.bsync a) s = .next t ∧ t.g.pc = s.g.pc + 4 ∧ wroteK s t 0 0) ∧
  (∀ (a d : Reg) (s : State), sound s a → s.hasFeature 11 = true → s.g.wait = none →
    ∀ i ∈ [Instr.bmodeStor a, .bmodeComp a, .bstepOn a, .bstepOff a, .bstepStep a, .bquery d a, .bsync a],
      (16 ≤ (s.getK a).toNat → exec i s = .next (trapped s false .opnd 0)) ∧
      ((s.getK a).toNat < 16 → s.page s.g.ref.crew (s.getK a).toNat = none → exec i s = .next (trapped s false .seg 0)))

namespace Sys2Proof.Safety

/-- The row operations, and whether each has a scalar operand kb (R293). -/
def rowOps : List ((Reg → Reg → Instr) × BvOp × Bool) :=
  [(fun a _ => .bvAdd a, .add, false), (fun a _ => .bvSub a, .sub, false), (fun a _ => .bvMul a, .mul, false),
   (fun a _ => .bvNeg a, .neg, false), (.bvAddk, .addk, true), (fun a _ => .bvAnd a, .and, false),
   (fun a _ => .bvOr a, .or, false), (fun a _ => .bvXor a, .xor, false), (fun a _ => .bvNot a, .not, false),
   (fun a _ => .bvCpy a, .cpy, false), (.bvSet, .set, true), (.bvShl, .shl, true), (.bvShr, .shr, true),
   (fun a _ => .bvCmpeq a, .cmpeq, false), (fun a _ => .bvCmplt a, .cmplt, false),
   (fun a _ => .bvCmpltn a, .cmpltn, false), (fun a _ => .bvSel a, .sel, false), (fun a _ => .bvPld a, .pld, false),
   (fun a _ => .bvPst a, .pst, false)]

end Sys2Proof.Safety

namespace Sys2Proof.Safety

/-- The page p at bank h of a running crew is the only one that is pinned at a site of a core. -/
def atSite (s : State) (core site : Nat) (c : Crew) (h : Nat) (p : Page) : Prop :=
  c ∈ s.crews ∧ c.core = core ∧ s.crew c.id = some c ∧ c.state = .running ∧ c.page h = some p ∧ p.site = site ∧
    p.state = .pinned ∧ ∀ c' ∈ s.crews, ∀ h' p', c'.core = core → c'.page h' = some p' → p'.site = site →
      p'.state = .pinned → c'.id = c.id ∧ h' = h

/-- The first element with a row of n bits at row r, in column c: bit b is the cell at row r + b (R288). -/
def rowElement (p : Page) (r n c : Nat) : Nat := sumNat ((List.range n).map fun b => if p.cell (r + b) c then 2 ^ b else 0)

/-- What a row operation puts into a column, from the elements a and b, P's cell and the scalar (R293). -/
def rowValue (op : BvOp) (w : Nat) (sg : Bool) (a b : Nat) (p : Bool) (k : Nat) : Nat :=
  let signed (x : Nat) : Int := if 2 ^ (w - 1) ≤ x then (x : Int) - 2 ^ w else x
  let read (x : Nat) : Int := if sg then signed x else x
  match op with
  | .add => (a + b) % 2 ^ w
  | .sub => (a + 2 ^ w - b) % 2 ^ w
  | .mul => (read a * read b % 2 ^ (2 * w)).toNat
  | .neg => (2 ^ w - a) % 2 ^ w
  | .addk => (a + k) % 2 ^ w
  | .and => a &&& b
  | .or => a ||| b
  | .xor => a ^^^ b
  | .not => 2 ^ w - 1 - a
  | .cpy => a
  | .set => k % 2 ^ w
  | .shl => a * 2 ^ (k % w) % 2 ^ w
  | .shr => (read a / 2 ^ (k % w) % 2 ^ w).toNat
  | .cmpeq => if a = b then 1 else 0
  | .cmplt => if signed a < signed b then 1 else 0
  | .cmpltn => if a < b then 1 else 0
  | .sel => if p then a else b
  | .pld => a
  | .pst => if p then 1 else 0

/-- The destination rows of a row operation: the first and how many (R291). -/
def rowsOut (op : BvOp) (x : RowDesc) : Nat × Nat :=
  match op with
  | .cmpeq | .cmplt | .cmpltn | .pld => (1016 + x.p, 1)
  | .mul => (x.d, 2 * x.w)
  | _ => (x.d, x.w)

/-- q is p after a row operation (R292, R293). -/
def rowWrote (p q : Page) (op : BvOp) (desc k : Word) : Prop :=
  let x := rowDesc desc
  let d := rowsOut op x
  q = { p with cells := q.cells, dirty := q.dirty } ∧ ∀ r < 1024, ∀ c < 256, q.cell r c =
    if d.1 ≤ r ∧ r < d.1 + d.2 ∧ (x.pd = false ∨ p.cell (1016 + x.p) c = true) then
      (rowValue op x.w x.sg (rowElement p x.a x.w c) (rowElement p x.b x.w c) (p.cell (1016 + x.p) c) k.toNat).testBit
        (r - d.1)
    else p.cell r c

/-- What a cpw puts into the periphery of a column (R138, R297). -/
def colAfter (y : Col) (sel j : Nat) (v : Word) : Col :=
  if sel = 1 then (if v = 0x8000000000000000 then { y with acc := 0x8000000000000001, ovf := true } else { y with acc := v })
  else if sel = 2 then { y with bp := y.bp.set j (v.setWidth 22) }
  else { y with scale := y.scale.set j (v.setWidth 9) }

/-- q is p after a cpw of lanes `on` with data (R297); the descriptor gives column C0, row ROW0 and the row count. -/
def colWrote (p q : Page) (sel j : Nat) (desc : Half) (on : Mask) (data : List Word) : Prop :=
  let c0 := desc.toNat / 2 ^ 4 % 256
  let r0 := desc.toNat / 2 ^ 12 % 1024
  let n := desc.toNat / 2 ^ 22 % 32 + 1
  let mine (c : Nat) : Prop := c0 ≤ c ∧ c < c0 + 32 ∧ on.getLsbD (c - c0) = true
  if sel = 0 then
    q = { p with cells := q.cells, dirty := q.dirty } ∧ ∀ r < 1024, ∀ c < 256,
      (mine c → r0 ≤ r → r < r0 + n → q.cell r c = (data.getD (c - c0) 0).getLsbD (r - r0)) ∧
      (¬(mine c ∧ r0 ≤ r ∧ r < r0 + n) → q.cell r c = p.cell r c)
  else
    q = { p with cols := q.cols } ∧ ∀ c, (mine c → q.col c = colAfter (p.col c) sel j (data.getD (c - c0) 0)) ∧
      (¬mine c → q.col c = p.col c)

/-- What a cpr reads for lane i (R297). -/
def colValue (p : Page) (sel j : Nat) (desc : Half) (i : Nat) : Nat :=
  let y := p.col (desc.toNat / 2 ^ 4 % 256 + i)
  match sel with
  | 0 => rowElement p (desc.toNat / 2 ^ 12 % 1024) (desc.toNat / 2 ^ 22 % 32 + 1) (desc.toNat / 2 ^ 4 % 256 + i)
  | 1 => y.acc.toNat
  | 2 => ((y.bp.getD j 0).signExtend 32).toNat
  | 3 => (y.scale.getD j 0).toNat
  | _ => (if y.ovf then 1 else 0) + if y.nan then 2 else 0

/-- q is p, from whose port the operation is gone, after the operation (R278, R293, R297). -/
def pageAfter (p q : Page) (op : BankOp) : Prop :=
  match op.act with
  | .bv m desc k => rowWrote p q m desc k
  | .cpw sel j desc on data => colWrote p q sel j desc on data
  | .mode true => q = { p with comp := true }
  | .mode false => q = { p with comp := false, owner := none, port := p.port ++ p.outside, outside := [] }
  | .stepOn =>
    q = if p.comp = true ∧ p.owner = none then
      { p with owner := some op.gang, port := p.port.filter (fun o => o.gang == op.gang),
               outside := p.outside ++ p.port.filter fun o => o.gang != op.gang }
    else p
  | _ => q = p

/-- g' is the operation's gang g after it: IFC_FX counts it no more; a cpr writes its registers and its latch from the
page p, a cpw is in flight no more (R106, R238, R296, R297). -/
def gangAfter (g g' : Gang) (p : Page) (op : BankOp) : Prop :=
  let ifc := g.ifc.erase { path := .fx, id := op.id, done := false }
  match op.act with
  | .cpr sel j desc on dst wide =>
    let live (i : Nat) : Prop := i < 32 ∧ on.getLsbD i = true ∧ g.dead.getLsbD i = false
    let low (i : Nat) : Half := if on.getLsbD i ∧ g.dead.getLsbD i = false then BitVec.ofNat 32 (colValue p sel j desc i) else 0
    g' = { g with ifc := ifc, pend := g'.pend, regs := g'.regs, vPoison := g'.vPoison, latches := g'.latches,
                  trail := g'.trail } ∧
      g'.pend.map Pend.id = (g.pend.map Pend.id).erase op.id ∧
      (∀ slot i, g.res ≤ slot → slot < g.res + g.regs.length → i < 32 →
        (live i → slot = dst → g'.getSlot slot i = BitVec.ofNat 32 (colValue p sel j desc i)) ∧
        (live i → wide = true → slot = dst + 1 → g'.getSlot slot i = BitVec.ofNat 32 (colValue p sel j desc i / 2 ^ 32)) ∧
        (¬live i ∨ (slot ≠ dst ∧ (wide = false ∨ slot ≠ dst + 1)) → g'.getSlot slot i = g.getSlot slot i)) ∧
      (∀ x ∈ g.pend, x.id = op.id → x.latch = some (0, []) → 
        g'.latches = g.latches.set 0 { valid := true, vals := (List.range 32).map low })
  | .cpw _ _ _ _ _ => g' = { g with ifc := ifc, pend := g'.pend } ∧ g'.pend.map Pend.id = (g.pend.map Pend.id).erase op.id
  | _ => g' = { g with ifc := ifc }

/-- An operation of the bank port that can perform without meeting bad data: no matrix operation and no copy; its gang is
g, whose oldest instruction of the fx path it is; no two gangs share a name, no two things in flight a number. -/
def performable (s : State) (p : Page) (op : BankOp) (g : Gang) : Prop :=
  op.act.isMx = false ∧ (∀ id piece, op.act ≠ .copy id piece) ∧ p.cells.wf = true ∧
    (p.cols.map Prod.fst).Pairwise (· < ·) ∧ p.poison = [] ∧ (∀ x ∈ p.cols, x.2.poison = false) ∧
    (∀ m desc k, op.act = .bv m desc k → m.badDesc desc = false ∧ m.outside (rowDesc desc) = false) ∧
    (∀ sel j desc on data, op.act = .cpw sel j desc on data → sel ≤ 3 ∧
      (sel = 0 → desc.toNat / 2 ^ 12 % 1024 + (desc.toNat / 2 ^ 22 % 32 + 1) ≤ 1024) ∧ desc.toNat / 2 ^ 4 % 256 ≤ 224) ∧
    (∀ sel j desc on dst wide, op.act = .cpr sel j desc on dst wide → (∃ x ∈ g.pend, x.id = op.id) ∧
      (∀ row ∈ g.regs, row.length = 32) ∧ g.res ≤ dst ∧ dst + (if wide then 2 else 1) ≤ g.res + g.regs.length) ∧
    s.gang op.gang = some g ∧ (s.allGangs.map Gang.ref).Nodup ∧ (g.pend.map Pend.id).Nodup ∧ g.haltDue = false ∧
    ∃ rest, g.ifc.filter (fun e => e.path == .fx) = { path := .fx, id := op.id, done := false } :: rest ∧
      ∀ e ∈ rest, e.done = false ∧ e.id ≠ op.id

/-- t is s after the operation at the head of bank h of a crew has performed. -/
def opDone (s t : State) (crew h : Nat) (p : Page) (op : BankOp) (g : Gang) : Prop :=
  (∃ q, t.page crew h = some q ∧ pageAfter { p with port := p.port.tail } q op) ∧
    (∀ c h', c ≠ crew ∨ h' ≠ h → t.page c h' = s.page c h') ∧
    (∃ g', t.gang op.gang = some g' ∧ gangAfter g g' p op) ∧
    (∀ r, r ≠ op.gang → (t.gang r).map (fun x => { x with latches := [] }) =
      (s.gang r).map (fun x => { x with latches := [] })) ∧
    t.crews.map (fun c => { c with pages := [] }) = s.crews.map (fun c => { c with pages := [] }) ∧
    t = { s with g := t.g, gangs := t.gangs, crews := t.crews }

end Sys2Proof.Safety

/-- BANK_OP_COMPLETE at a pinned page of a running crew that is not in step mode, with no bad data in it, and a
bstep.step of the owner that is the last of an operation, take the operation off the head of the port and perform it:
a row operation writes the elements of R293 to its destination rows in the columns of its predicate, every other cell
unchanged; cpw writes the cells or periphery of the on lanes' columns (R297); cpr writes its registers and latch from
them; bmode changes the mode, and storage ends step mode; bstep.on begins step mode in a compute bank. The operation
leaves IFC_FX; no other page, gang or byte changes (R278, R280, R282, R288, R292, R293, R295, R297, R138). -/
def Obligations.BankOperationsPerform : Prop :=
  (∀ (s : State) (core site h : Nat) (c : Crew) (p : Page) (op : BankOp) (rest : List BankOp) (g : Gang),
    atSite s core site c h p → p.port = op :: rest → p.owner = none → performable s p op g →
    ∃ t, exec (.bankOpComplete core site) s = .next t ∧ opDone s t c.id h p op g) ∧
  (∀ (a : Reg) (s : State) (h : Nat) (c : Crew) (p : Page) (op : BankOp) (rest : List BankOp) (g : Gang),
    bankAt s a h p → s.hasFeature 11 = true → agrees s → p.owner = some s.g.ref → p.port = op :: rest →
    op.steps + 1 = stepsOf op.act → s.myCrew = some c → c.state = .running → performable s p op g →
    ∃ u t, opDone s u s.g.ref.crew h p op g ∧ exec (.bstepStep a) s = .next t ∧ wroteK u t 0 0 ∧
      t.g.pc = s.g.pc + 4)

namespace Sys2Proof.Safety

/-- A matrix operation accepted (R306). -/
def acceptedMx (s t : State) (kind : MxKind) (block : List Byte) (desc : Word) (banks : List Nat) : Prop :=
  (∃ op, t.mxs = s.mxs ++ [op] ∧ op.id = s.nextId ∧ op.gang = s.g.ref ∧ op.kind = kind ∧ op.block = block ∧
    op.desc = desc ∧ op.banks = banks ∧ op.started = false) ∧
  (∀ h ∈ banks, t.page s.g.ref.crew h = (s.page s.g.ref.crew h).map fun p =>
    sentTo p { id := s.nextId, gang := s.g.ref, act := .mx s.nextId, steps := 0 }) ∧
  (∀ c h, c ≠ s.g.ref.crew ∨ h ∉ banks → t.page c h = s.page c h) ∧
  t.crews.map (fun c => { c with pages := [] }) = s.crews.map (fun c => { c with pages := [] }) ∧
  t.g = marked { s.g with ifc := s.g.ifc ++ [{ path := .mx, id := s.nextId, done := false }], pc := s.g.pc + 4,
                          wait := none, kept := t.g.kept } t.g ∧ completes false s t ∧
  t = { s with g := t.g, crews := t.crews, mxs := t.mxs, nextId := s.nextId + 1 }

end Sys2Proof.Safety

/-- mclr with a legal descriptor, and mtx and mdrain whose format block can be read without bad data and whose
descriptor, chain and ranges pass their checks, with room in IFC_MX, join the matrix operations of the package with
their format block and descriptor and with every bank of the chain (and the staging bank), not started; the operation
is last at the port of each of those banks, or outside it in another gang's step mode; IFC_MX counts it; pc advances
by 4. An instruction that writes peer bytes commits the open version first. Nothing else changes (R304, R305, R306,
R317, R367). -/
def Obligations.MatrixOperationsAccepted : Prop :=
  (∀ (a : Reg) (s : State), sound s a → matDescBad .mclr (s.getK a) = false →
    s.chainCause s.g.ref.crew (matDesc (s.getK a)) = none → s.g.ifcOf .mx < 63 → agrees s →
    ∃ t, exec (.mclr a) s = .next t ∧ acceptedMx s t .mclr [] (s.getK a)
      ((List.range (matDesc (s.getK a)).l).map fun i => (matDesc (s.getK a)).h + i)) ∧
  (∀ row ∈ [(MxKind.mtx, Instr.mtx), (MxKind.mdrain, Instr.mdrain)],
    ∀ (a b : Reg) (s t : State) (ps : List Place) (mt : Nat) (spans : List Span), sound s a → sound s b →
      s.check s.g .s 0 (s.getK a).toNat 64 false false = (.ok ps mt, t) → matDescBad row.1 (s.getK b) = false →
      t.chainCause t.g.ref.crew (matDesc (s.getK b)) = none →
      (∀ p ∈ ps, t.gangBad t.g.ref.crew t.g.core false p = false) →
      let blk := fmtBlk (ps.map (ownByte t))
      t.rangesCheck blk row.1 (matDesc (s.getK b)) = .ok spans → s.g.ifcOf .mx < 63 → agrees s →
      ∃ v u, (if (blk.writes row.1 (matDesc (s.getK b))).any Range.peer then committed t v t.g.ref.crew false else v = t) ∧
        exec (row.2 a b) s = .next u ∧ acceptedMx v u row.1 (ps.map (ownByte t)) (s.getK b)
          ((List.range (matDesc (s.getK b)).l).map (fun i => (matDesc (s.getK b)).h + i) ++
            if row.1 ≠ .mclr ∧ blk.flag 3 then [blk.stageBank] else []))

namespace Sys2Proof.Safety

/-- q is p × 2^x rounded to an integer, to the nearest, ties to even (R139). -/
def nearestEven (q p x : Int) : Prop :=
  if 0 ≤ x then q = p * 2 ^ x.toNat
  else
    let d : Int := 2 ^ (-x).toNat
    2 * (q * d - p) ≤ d ∧ 2 * (p - q * d) ≤ d ∧ (2 * (p - q * d) = d ∨ 2 * (p - q * d) = -d → q % 2 = 0)

end Sys2Proof.Safety

/-- A term q entering ACC makes it ACC + q where both q and the sum lie within ±(2^63 − 1), and otherwise the bound of
the sign of what overflowed with OVF set. BPj of a column is the sum over i < 32 of weight 32j + i times activation
32j + i. A fold whose scale slots both hold a scale adds BPj × the two scales at the anchor, ties to even, and sets
NAN otherwise. mclr clears ACC, BP, OVF, NAN and the mark of every column, auto-drain ACC and the flags of those below
C (R138, R139, R308, R309, R312, R317). -/
def Obligations.MatrixArithmetic : Prop :=
  (∀ (y : Col) (q : Int), let m : Int := 2 ^ 63 - 1
    y.accAdd q = if -m ≤ q ∧ q ≤ m ∧ -m ≤ y.acc.toInt + q ∧ y.acc.toInt + q ≤ m then
        { y with acc := BitVec.ofInt 64 (y.acc.toInt + q) }
      else { y with acc := BitVec.ofInt 64 (if (if -m ≤ q ∧ q ≤ m then y.acc.toInt + q else q) < 0 then -m else m),
                    ovf := true }) ∧
  (∀ (b : FmtBlk) (rows : List (BitVec 256)) (p : Pass) (c j : Nat),
    blockSum b rows p c j = ((List.range 32).map fun i => slotInt b.wfmt rows (32 * j + i) c *
      elementInt (.ofCode b.xfmt) (p.codes.getD (32 * j + i) 0)).sum) ∧
  (∀ (y : Col) (b : FmtBlk) (p : Pass) (bp : Int) (j : Nat),
    (∀ mw ew mx ex, blockScale (.ofCode b.wfmt) (y.scale.getD j 0) = some (mw, ew) →
      blockScale (.ofCode b.xfmt) (p.scales.getD j 0) = some (mx, ex) →
      ∃ q : Int, y.fold b p bp j = y.accAdd q ∧ nearestEven q (bp * mw * mx) (ew + ex - 10 - b.anchor)) ∧
    (blockScale (.ofCode b.wfmt) (y.scale.getD j 0) = none ∨ blockScale (.ofCode b.xfmt) (p.scales.getD j 0) = none →
      y.fold b p bp j = { y with nan := true })) ∧
  (∀ (p : Page) (n c : Nat), (p.cols.map Prod.fst).Pairwise (· < ·) →
    p.mclr.col c = (if c < 256 then { p.col c with acc := 0, bp := [0, 0, 0, 0], ovf := false, nan := false, poison := false }
      else p.col c) ∧
    (p.clearCols n).col c = (if c < n then { p.col c with acc := 0, ovf := false, nan := false, poison := false }
      else p.col c))

namespace Sys2Proof.Safety

/-- A column of chain bank i after the pass and the folds of the first vector (R307 to R309). -/
def passedCol (s : State) (g : Gang) (b : FmtBlk) (x : MatDesc) (i n : Nat) : Col :=
  match s.page g.ref.crew (x.h + i) with
  | none => Col.zero
  | some pg =>
    let p := s.passData g b i
    let sums := (List.range 4).map fun j => if j < b.blocks then blockSum b (pg.rows 0 (8 * b.kbank)) p n j else 0
    (List.range b.blocks).foldl (fun y j => y.fold b p (sums.getD j 0) j)
      { pg.col n with bp := sums.map fun v => BitVec.ofInt 22 v }

/-- A column of the first chain bank with that of another added (R310). -/
def chainedCol (y z : Col) : Col :=
  let r := y.accAdd z.acc.toInt
  { r with ovf := r.ovf || z.ovf, nan := r.nan || z.nan, poison := r.poison || z.poison }

/-- The band scale of a column: 1 but for the third weight format (R314). -/
def bandOf (s : State) (g : Gang) (b : FmtBlk) (n : Nat) : Machine.Num :=
  if b.wfmt = 2 then Fmt.bf16.value (leNat (((s.rangeBytes g b.bandRange).drop (2 * (n / 64))).take 2)) else .fin false 1 0

/-- An accepted and started matrix operation of the gang g of a running crew c, alone with its number and the oldest of its path; no two gangs share a name; its banks are there, their columns in canonical form, every bank free of bad data,
no crew ending. -/
def mxReady (s : State) (m : MxOp) (g : Gang) (c : Crew) : Prop :=
  m ∈ s.mxs ∧ m.started = true ∧ (∀ m' ∈ s.mxs, m'.id = m.id → m' = m) ∧ s.gang m.gang = some g ∧ g.ref = m.gang ∧
    (s.allGangs.map Gang.ref).Nodup ∧ s.crew m.gang.crew = some c ∧ (∀ c' ∈ s.crews, c'.state = .running) ∧
    (∀ p ∈ c.pages, (p.cols.map Prod.fst).Pairwise (· < ·)) ∧
    (∀ c' ∈ s.crews, ∀ p ∈ c'.pages, p.cells.wf = true ∧ p.poison = []) ∧
    (∀ i < (matDesc m.desc).l, (s.page m.gang.crew ((matDesc m.desc).h + i)).isSome = true) ∧
    ∃ rest, g.ifc.filter (fun e => e.path == .mx) = { path := .mx, id := m.id, done := false } :: rest ∧
      ∀ e ∈ rest, e.done = false ∧ e.id ≠ m.id

/-- What MX_COMPLETE leaves of an operation and all that it leaves alone (R306). -/
def mxLeft (s t : State) (m : MxOp) (g : Gang) : Prop :=
  t.mxs.map MxOp.id = (s.mxs.map MxOp.id).erase m.id ∧
    t.gang m.gang = some { g with ifc := g.ifc.erase { path := .mx, id := m.id, done := false } } ∧
    (∀ r, r ≠ m.gang → t.gang r = s.gang r) ∧
    (∀ h ∈ m.banks, ∀ p, t.page m.gang.crew h = some p → ∀ o ∈ p.port, o.act ≠ .mx m.id) ∧
    (∀ e h, (t.page e h).isSome = (s.page e h).isSome) ∧ (∀ a, t.homeByte a = s.homeByte a) ∧
    t = { s with g := t.g, gangs := t.gangs, crews := t.crews, mxs := t.mxs } ∧
    t.crews.map (fun c => { c with pages := [] }) = s.crews.map (fun c => { c with pages := [] })

end Sys2Proof.Safety

/-- MX_COMPLETE of a started operation of a running gang, with no bad data in what it reads: mclr clears the columns
of every chain bank; mtx with one vector and neither outliers nor auto-drain runs the pass and fold in each chain bank
for the columns below C, adds the ACC and flags of the later banks to the first, in chain order, and clears ACC there;
mdrain in binary32 without transpose writes to its row the values ACC × 2^anchor (× the band scale) of the columns
below C, rounded to nearest even. No other column, bank byte or memory byte changes. The operation leaves the package
and its ports, and IFC_MX counts it no more (R306, R307, R308, R309, R310, R314, R316, R317). -/
def Obligations.MatrixOperationsPerform : Prop :=
  ∀ (s : State) (m : MxOp) (g : Gang) (c : Crew), mxReady s m g c →
    let x := matDesc m.desc
    let b := fmtBlk m.block
    ∃ t, exec (.mxComplete m.id) s = .next t ∧ mxLeft s t m g ∧
      (m.kind = .mclr → ∀ h pg, s.page c.id h = some pg → ∃ q, t.page c.id h = some q ∧
        (∀ y, q.byte y = pg.byte y) ∧
        q.cols = if x.h ≤ h ∧ h < x.h + x.l then pg.mclr.cols else pg.cols) ∧
      (m.kind = .mtx → x.v = 0 → b.flag 1 = false → b.flag 2 = false → ∀ h pg, s.page c.id h = some pg →
        ∃ q, t.page c.id h = some q ∧ (∀ y, q.byte y = pg.byte y) ∧ ∀ n,
          (n < b.cols → x.h < h → h < x.h + x.l → q.col n = { passedCol s g b x (h - x.h) n with acc := 0, poison := false }) ∧
          (n < b.cols → h = x.h → q.col n = (List.range (x.l - 1)).foldl
            (fun y i => chainedCol y (passedCol s g b x (i + 1) n)) (passedCol s g b x 0 n)) ∧
          (b.cols ≤ n ∨ h < x.h ∨ x.h + x.l ≤ h → q.col n = pg.col n)) ∧
      (m.kind = .mdrain → b.flag 3 = false → b.dfmt = 0 →
        let ps := s.rangePlaces g (b.drainRange x.v 1)
        ps.Nodup → ps.length = 4 * b.cols → (∀ p ∈ ps, ∃ e h y, p = .bank e h y ∧ (s.page e h).isSome = true) →
        (∀ n i, n < b.cols → i < 4 → ∃ pg, s.page c.id x.h = some pg ∧ ∃ p, ps[4 * n + i]? = some p ∧
          t.placeByte p = BitVec.ofNat 8 (Fmt.f32.ofNum 0 false (drainValue b (pg.col n) (bandOf s g b n)) / 256 ^ i)) ∧
        (∀ e h y, .bank e h y ∉ ps → t.placeByte (.bank e h y) = s.placeByte (.bank e h y)) ∧
        ∀ e h n, (t.page e h).map (fun q => q.col n) = (s.page e h).map fun q => q.col n)

namespace Sys2Proof.Safety

/-- A copy as it is accepted: of the gang and its open batch, with the next number, nothing read or moved yet (R245,
R248). -/
def freshCopy (s : State) (x : CopyOp) : Prop :=
  x = { id := s.nextId, gang := s.g.ref, batch := s.g.sealed + 1, act := x.act, work := none, lines := [], lost := [],
        direct := x.direct, used := x.used, delivered := 0, dropped := 0, squashed := false, replayed := false,
        void := false }

end Sys2Proof.Safety

namespace Sys2Proof.Safety

/-- w is v with a kernel that has started (R70, R80, R81, R83): PLACING, its children in their order, and one crew waiting
for every stage, die and cluster of its grid and every rank of every child. -/
def kernelJoins (v w : State) (serial asid prio : Nat) (r : LaunchRec) (owner : Option Owner)
    (kids : List (Word × Word)) : Prop :=
  ∃ k cs, w.kernels = v.kernels ++ [k] ∧ w.crews = v.crews ++ cs ∧ k.serial = serial ∧ k.asid = asid ∧ k.prio = prio ∧
    k.desc = { r with crews := r.crews * kids.length } ∧ k.each = r.crews ∧ k.state = .placing ∧ k.owner = owner ∧ k.unended = cs.length ∧
    k.unadmitted = cs.length ∧ k.barriers = [] ∧
    k.children.map (fun x => (x.param, x.completion)) = kids ∧
    (∀ x ∈ k.children, x.completed = 0 ∧ x.ended = 0 ∧ x.fails = [] ∧ x.reported = false) ∧
    cs.map (fun c => (c.stage, c.die, c.cluster, c.rank)) =
      ((List.range r.stages).flatMap fun st => ((List.range 8).filter fun die => (r.stageMasks.getD st 0).testBit die).flatMap
        fun die => ((List.range 2).filter fun cl => r.clusterMask.testBit cl).flatMap fun cl =>
          (List.range (r.crews * kids.length)).map fun rank => (st, die, cl, rank)) ∧
    (∀ c ∈ cs, c.kernel = serial ∧ c.state = .waiting ∧ c.gangs = r.gangs ∧ c.prio = prio ∧ c.pages = [] ∧
      c.version.versioned = r.versioned ∧ c.version.held = []) ∧
    w = { v with kernels := w.kernels, crews := w.crews, cores := w.cores, nextId := w.nextId, tlb := w.tlb,
                 errlog := w.errlog }

end Sys2Proof.Safety

/-- klaunch with UST 0 and an idle lane stream at a 128-byte aligned record that reads without fault, where a child is
accepted, commits the open version and writes serial and index to k[kd]. A record that the aggregator does not take and
that passes R67 in an ACTIVE context starts a kernel of the next serial: PLACING, with one child and one waiting crew
for every place of its grid and rank; one that the aggregator takes joins the open aggregate of its kind, or opens one.
bdsub with the feature, UST 0, a 64-byte aligned record and room in IFC_BD commits, and writes the next task serial to
k[kd]; a record that passes R332 joins the tasks, FLUSHING, with its regions, and IFC_BD counts it. (That the first
serial is 1 is the model's reading, log 26; a failure list that cannot be read, log 75.) (R80, R81, R82, R177, R332,
R335, R367, R70). -/
def Obligations.ChildrenAndTasksSubmitted : Prop :=
  (∀ (d a : Reg) (s t : State) (x : Nat), sound s a → s.g.wait = none → s.g.ust = 0 → s.g.laneIdle = true →
    (s.getK a).toNat % 128 = 0 → agrees s → readsOk s .g (s.getK a).toNat 128 true t x →
    t.acceptsChild t.myAsid t.myPrio (leBytes 128 x) = true →
    let raw := leBytes 128 x
    let r := launchRec raw
    let v := t.commitVersion t.g.ref.crew false
    let serial := s.kernelSerial + 1
    committed t v t.g.ref.crew false ∧
    (t.merges t.myAsid raw = false → t.ctxActive t.myAsid = true →
      (State.checkChild (State.failureList { v with kernelSerial := serial } t.myAsid r.completion).2 t.myAsid raw r.param
        r.completion).1 = none →
      ∃ w u, exec (.klaunch d a) s = .next u ∧ u.g.pc = s.g.pc + 4 ∧ wroteK w u d (BitVec.ofNat 64 (serial % 2 ^ 32)) ∧
        kernelJoins { v with kernelSerial := serial } w serial t.myAsid t.myPrio r none [(r.param, r.completion)]) ∧
    (t.merges t.myAsid raw = true → t.findAggregate t.myAsid t.myPrio raw = none →
      ∃ u, exec (.klaunch d a) s = .next u ∧ u.g.pc = s.g.pc + 4 ∧
        wroteK { v with nextId := v.nextId + 1, kernelSerial := serial, aggregates := v.aggregates ++ [
            { id := v.nextId, asid := t.myAsid, prio := t.myPrio, serial := serial, opened := s.cycle,
              recAddr := segVa s.g.segs.g (s.getK a).toNat, raw := raw, children := [(r.param, r.completion)] }] }
          u d (BitVec.ofNat 64 (serial % 2 ^ 32))) ∧
    (∀ g, t.merges t.myAsid raw = true → t.findAggregate t.myAsid t.myPrio raw = some g → g.children.length < 255 →
      r.crews * (g.children.length + 1) ≤ 2 ^ 20 →
      let g' : Aggregate := { g with children := g.children ++ [(r.param, r.completion)] }
      ∃ u, exec (.klaunch d a) s = .next u ∧ u.g.pc = s.g.pc + 4 ∧
        wroteK { v with aggregates := updBy (fun (y : Aggregate) => y.id == g.id) (fun _ => g') v.aggregates } u d (BitVec.ofNat 64 (g.serial % 2 ^ 32 + g.children.length * 2 ^ 32)))) ∧
  (∀ (d a : Reg) (s t : State) (x : Nat) (ins outs : List (Nat × Nat)), s.hasFeature 9 = true → sound s a →
    s.g.wait = none → s.g.ust = 0 → s.g.laneIdle = true → (s.getK a).toNat % 64 = 0 → agrees s →
    readsOk s .g (s.getK a).toNat 64 true t x → s.g.ifcOf .bd < 63 →
    let v := t.commitVersion t.g.ref.crew false
    let r := taskRec (leBytes 64 x)
    let serial := s.taskSerial + 1
    let w : State := { v with nextId := v.nextId + 1, g := { v.g with
      ifc := v.g.ifc ++ [{ path := .bd, id := v.nextId, done := false }] } }
    (State.checkTask { w with taskSerial := serial } t.myAsid (leBytes 64 x)).1 = .ok (ins, outs) →
    committed t v t.g.ref.crew false ∧ ∃ q u, exec (.bdsub d a) s = .next u ∧ u.g.pc = s.g.pc + 4 ∧
      wroteK q u d (BitVec.ofNat 64 (serial % 2 ^ 32)) ∧
      q = { w with taskSerial := serial, tlb := q.tlb, errlog := q.errlog, tasks := w.tasks ++ [
        { serial := serial, asid := t.myAsid, desc := r, ins := ins, outs := outs, prio := t.myPrio,
          owner := .gang s.g.ref v.nextId, state := .flushing, before := .flushing,
          count := ((List.range 16).filter fun i => r.coreMask.getLsbD i).length *
            ((List.range 8).filter fun i => r.stackMask.getLsbD i).length,
          ended := 0, failedCount := 0, first := none, cause := 0, failAt := 0, inLines := [], kept := [] }] })

namespace Sys2Proof.Safety

/-- A lane word that no cause of R121 belonging to the word or the state stops, that reads no register in flight, and
no on lane of which reads a register with an uncorrectable error. -/
abbrev laneOk (s : State) (op : LaneOp) (f : LaneF) : Prop := s.laneGate op f = .pass ∧ s.g.badLanes op f = 0

/-- The register stack of t, entry by entry, from that of s: `new` gives the value of a slot and lane (R96, R127). -/
def wroteLanes (s t : State) (new : Nat → Nat → Half → Half) : Prop :=
  t.g.regs.length = s.g.regs.length ∧
    ∀ (n : Nat) (row : List Half), s.g.regs[n]? = some row → ∃ row', t.g.regs[n]? = some row' ∧
      row'.length = row.length ∧ ∀ (i : Nat) (x : Half), row[i]? = some x → row'[i]? = some (new (s.g.res + n) i x)

/-- R119: DST, and for a 64-bit result the register above it, hold the result for the on lanes unless NWB is set; all
else is as it was. -/
def resultAt (g : Gang) (op : LaneOp) (f : LaneF) (res : Nat → Nat) (slot i : Nat) (x : Half) : Half :=
  if f.nwb = true ∨ (g.onMask f).getLsbD i = false then x
  else if wideResult op f = true ∧ slot = g.slotOf (f.dst.toNat + 1) then BitVec.ofNat 32 (res i / 2 ^ 32)
  else if slot = g.slotOf f.dst.toNat then BitVec.ofNat 32 (res i)
  else x

/-- The slot that issued is at the next index; a word without a latch source is the head of a chain (R107). -/
def nextIndex (s t : State) (op : LaneOp) (f : LaneF) : Prop :=
  t.g.lane = { (s.g.putSlotNow { s.g.slotNow with pc := s.g.slotNow.pc + 1 }).lane with
    chainHead := if (laneLatches op f).isEmpty then s.g.slotNow.pc else s.g.lane.chainHead }

/-- All that a lane instruction with registers only leaves as it was: everything but the gang's lane registers, their
error marks, predicates, latches, slots and what is in flight, the record of how instructions complete, and the latches
of the other gangs. -/
def laneFrame (s t : State) : Prop :=
  t = { s with gangs := t.gangs, g := marked { s.g with
          regs := t.g.regs, vPoison := t.g.vPoison, latches := t.g.latches, pend := t.g.pend, q := t.g.q,
          lane := t.g.lane } t.g } ∧
    completes true s t ∧ sameMemory s t

/-- t is s with the register result `res` of a lane instruction written (R119, R106, R107), and the predicates q. -/
def wroteDst (s t : State) (op : LaneOp) (f : LaneF) (res : Nat → Nat) (q : List Mask) : Prop :=
  wroteLanes s t (resultAt s.g op f res) ∧
    t.g.latches = s.g.latches.set f.lt.toNat
      { valid := true, vals := (laneVals (s.g.onMask f) res).map fun x => BitVec.ofNat 32 x } ∧
    t.g.q = q ∧ t.gangs = (s.takeLatch f.lt.toNat).gangs ∧ t.g.pend.map Pend.id = s.g.pend.map Pend.id ∧
    (∀ p ∈ t.g.vPoison, p ∈ s.g.vPoison) ∧ nextIndex s t op f ∧ laneFrame s t

/-- The predicate q[n] with the lanes of a mask replaced; q0 is never written (R113, R115). -/
def predAt (g : Gang) (n : Nat) (on m : Mask) : List Mask :=
  if n = 0 then g.q else g.q.set n ((g.q.getD n 0 &&& ~~~on) ||| (m &&& on))

/-- t is s with the predicate result of a lane instruction written: bit i of it for the on lanes only. -/
def wrotePred (s t : State) (op : LaneOp) (f : LaneF) (bit : Nat → Bool) : Prop :=
  (∃ m : Mask, (∀ i < 32, m.getLsbD i = bit i) ∧ t.g.q = predAt s.g f.dst.toNat (s.g.onMask f) m) ∧
    t.g.regs = s.g.regs ∧ t.g.latches = s.g.latches ∧ t.g.pend = s.g.pend ∧ t.gangs = s.gangs ∧
    t.g.vPoison = s.g.vPoison ∧ nextIndex s t op f ∧ laneFrame s t

/-- A row of a table of lane instructions: the instruction, its member, and the result of a lane. -/
abbrev LaneRow := (LaneF → Instr) × LaneOp × (State → LaneF → Nat → Nat)

/-- Results of one, two or three operands of TY. -/
def of1 (x : LaneF → Nat → Nat) (s : State) (f : LaneF) (i : Nat) : Nat := x f (s.g.src f f.ty f.sa i)

def of2 (x : LaneF → Nat → Nat → Nat) (s : State) (f : LaneF) (i : Nat) : Nat :=
  x f (s.g.src f f.ty f.sa i) (s.g.src f f.ty f.sb i)

def of3 (x : LaneF → Nat → Nat → Nat → Nat) (s : State) (f : LaneF) (i : Nat) : Nat :=
  x f (s.g.src f f.ty f.sa i) (s.g.src f f.ty f.sb i) (s.g.src f f.ty f.sc i)

/-- Results of three 32-bit operands. -/
def ofHalves (x : LaneF → Half → Half → Half → Nat) (s : State) (f : LaneF) (i : Nat) : Nat :=
  x f (s.g.src32 f f.sa i) (s.g.src32 f f.sb i) (s.g.src32 f f.sc i)

/-- A shift: element k of a by its amount (R184). -/
def shifted (x : LaneF → Nat → Nat → Nat) (s : State) (f : LaneF) (i : Nat) : Nat :=
  pack f.ty.elem ((List.range f.ty.count).map fun k =>
    x f (element f.ty.elem k (s.g.src f f.ty f.sa i)) (amount f.ty (s.g.src32 f f.sb i) k))

/-- Integer arithmetic, logic, bits, moves and the packing conversion to 8 bits, with their results (R182 to R190). -/
def intRows : List LaneRow :=
  [(.iadd, .iadd, of2 fun f => intOp2 f fun a b => a + b), (.isub, .isub, of2 fun f => intOp2 f fun a b => a - b),
   (.imul, .imul, of2 fun f => intOp2 f fun a b => a * b),
   (.imulh, .imulh, of2 fun f => intOp2 f fun a b => a * b / (2 ^ f.ty.elem : Nat)),
   (.imad, .imad, of3 fun f => intOp3 f fun a b c => a * b + c),
   (.iabs, .iabs, of1 fun f => intOp1 f fun a => if a < 0 then -a else a),
   (.ineg, .ineg, of1 fun f => intOp1 f fun a => -a),
   (.imin, .imin, of2 fun f => intOp2 f fun a b => if b < a then b else a),
   (.imax, .imax, of2 fun f => intOp2 f fun a b => if a < b then b else a),
   (.iaddc, .iaddc, ofHalves fun _ a b c => (a.toNat + b.toNat + c.toNat % 2) % 2 ^ 64),
   (.isad, .isad, ofHalves fun f a b c =>
     dotInt f (fun a b => if a < b then b - a else a - b) a.toNat b.toNat c.toNat),
   (.idp4, .idp4, ofHalves fun f a b c => dotInt f (fun a b => a * b) a.toNat b.toNat c.toNat)] ++
  [(.lAnd, .lAnd, of2 fun _ a b => a &&& b), (.lOr, .lOr, of2 fun _ a b => a ||| b),
   (.lXor, .lXor, of2 fun _ a b => a ^^^ b), (.lNot, .lNot, of1 fun f a => notBits f.ty.elem a),
   (.andn, .andn, of2 fun f a b => a &&& notBits f.ty.elem b),
   (.lop3, .lop3, of3 fun f => lop3Val (field f.imm 0 8) f.ty.elem),
   (.shl, .shl, shifted fun f a n => a * 2 ^ n % 2 ^ f.ty.elem), (.shr, .shr, shifted fun _ a n => a / 2 ^ n),
   (.sra, .sra, shifted fun f a n => wrap f.ty.elem (toInt true f.ty.elem a / (2 ^ n : Nat))),
   (.rotl, .rotl, shifted fun f a n => rotlBits f.ty.elem a n)] ++
  [(.popc, .popc, of1 fun f => popcount f.ty.elem), (.clz, .clz, of1 fun f => clzNat f.ty.elem),
   (.brev, .brev, of1 fun f => reverseBits f.ty.elem),
   (.bfe, .bfe, fun s f i => bfeVal f.ty.signed f.ty.elem (s.g.src f f.ty f.sa i) (s.g.src32 f f.sb i).toNat
     (s.g.src32 f f.sc i).toNat),
   (.bfi, .bfi, fun s f i => bfiVal f.ty.elem (field f.imm 0 8) (field f.imm 8 8) (s.g.src f f.ty f.sa i)
     (s.g.src f f.ty f.sc i)),
   (.prmt, .prmt, ofHalves fun f a b _ => pack 8 ((List.range 4).map (prmtByte f.imm.toNat a.toNat b.toNat))),
   (.mov, .mov, of1 fun _ a => a),
   (.movi, .movi, ofHalves fun f a _ _ => if f.ty = .b32 then f.imm.toNat else a.toNat * 2 ^ 32 + f.imm.toNat),
   (.sel, .sel, fun s f i => if (s.g.getQ f.sc.toNat).getLsbD i then s.g.src f f.ty f.sa i else s.g.src f f.ty f.sb i),
   (.cvtQ8, .cvtQ8, ofHalves quant8)]

end Sys2Proof.Safety

namespace Sys2Proof.Safety

/-- A row: the instruction, its member, the types it is stated for, and the operation on words. -/
abbrev WordRow := (LaneF → Instr) × LaneOp × List Ty × (Half → Half → Half → Half)

/-- Members on 32-bit types, with the types and the operation on words (R182 to R184). -/
def wordRows : List WordRow :=
  [(.iadd, .iadd, [.s32, .n32], fun a b _ => a + b), (.isub, .isub, [.s32, .n32], fun a b _ => a - b),
   (.imul, .imul, [.s32, .n32], fun a b _ => a * b), (.imad, .imad, [.s32, .n32], fun a b c => a * b + c),
   (.imulh, .imulh, [.s32], fun a b _ => (a.signExtend 64 * b.signExtend 64).extractLsb' 32 32),
   (.imulh, .imulh, [.n32], fun a b _ => (a.setWidth 64 * b.setWidth 64).extractLsb' 32 32),
   (.iabs, .iabs, [.s32], fun a _ _ => if a.toInt < 0 then -a else a), (.ineg, .ineg, [.s32], fun a _ _ => -a),
   (.imin, .imin, [.s32], fun a b _ => if b.toInt < a.toInt then b else a),
   (.imax, .imax, [.s32], fun a b _ => if a.toInt < b.toInt then b else a),
   (.imin, .imin, [.n32], fun a b _ => if b.toNat < a.toNat then b else a),
   (.imax, .imax, [.n32], fun a b _ => if a.toNat < b.toNat then b else a),
   (.lAnd, .lAnd, [.b32], fun a b _ => a &&& b), (.lOr, .lOr, [.b32], fun a b _ => a ||| b),
   (.lXor, .lXor, [.b32], fun a b _ => a ^^^ b), (.lNot, .lNot, [.b32], fun a _ _ => ~~~a),
   (.andn, .andn, [.b32], fun a b _ => a &&& ~~~b),
   (.shl, .shl, [.b32, .s32, .n32], fun a b _ => a <<< (b.toNat % 32)),
   (.shr, .shr, [.b32, .n32], fun a b _ => a >>> (b.toNat % 32)),
   (.sra, .sra, [.s32], fun a b _ => a.sshiftRight (b.toNat % 32)),
   (.rotl, .rotl, [.b32], fun a b _ => a.rotateLeft (b.toNat % 32)),
   (.brev, .brev, [.b32], fun a _ _ => a.reverse)]

/-- For each of the 32 members and every state in which nothing stops the word: exec answers a next state in which DST
(and the register above it for a 64-bit result) holds the member's result in every on lane unless NWB is set, every
other register and lane reads as before, the latch LT is valid with the low 32 bits of the results (0 for lanes off),
other gangs of the scheduler lose that latch, the slot goes to the next index, and predicates, scalar registers,
special registers and memory are as before (R119, R182, R183, R184, R187, R190, R106). -/
def laneIntegerResults : Prop :=
  ∀ row ∈ intRows, ∀ (f : LaneF) (s : State), laneOk s row.2.1 f →
    ∃ t, exec (row.1 f) s = .next t ∧ wroteDst s t row.2.1 f (row.2.2 s f) s.g.q

/-- With MOD 0, iadd, isub, imul, imulh, imad, iabs, ineg, imin, imax (s32 or n32), and, or, xor, not, andn, shl, shr,
sra, rotl and brev (32-bit types) put into every on lane the operation of their rule on 32-bit words: additions and
products modulo 2^32, the high half of the signed or unsigned product, minimum and maximum by signedness, shifts and
rotates by the low five bits of b (R182, R183, R184, R128). -/
def laneWordResults : Prop :=
  ∀ row ∈ wordRows, ∀ (f : LaneF) (s : State), laneOk s row.2.1 f → f.ty ∈ row.2.2.1 → f.md = 0 →
    ∃ t, exec (row.1 f) s = .next t ∧ wroteDst s t row.2.1 f
      (fun i => (row.2.2.2 (s.g.src32 f f.sa i) (s.g.src32 f f.sb i) (s.g.src32 f f.sc i)).toNat) s.g.q

end Sys2Proof.Safety

/-- For each of the 32 members and every state in which nothing stops the word: exec answers a next state in which DST
(and the register above it for a 64-bit result) holds the member's result in every on lane unless NWB is set, every
other register and lane reads as before, the latch LT is valid with the low 32 bits of the results (0 for lanes off),
other gangs of the scheduler lose that latch, the slot goes to the next index, and predicates, scalar registers,
special registers and memory are as before. With MOD 0, iadd, isub, imul, imulh, imad, iabs, ineg, imin, imax (s32 or
n32), and, or, xor, not, andn, shl, shr, sra, rotl and brev (32-bit types) put into every on lane the operation of
their rule on 32-bit words: additions and products modulo 2^32, the high half of the signed or unsigned product,
minimum and maximum by signedness, shifts and rotates by the low five bits of b (R119, R182, R183, R184, R187, R190,
R106, R128). -/
def Obligations.LaneIntegerAndWordResults : Prop :=
  laneIntegerResults ∧ laneWordResults

namespace Sys2Proof.Safety

/-- An element operation of two operands that the word may negate (R206). -/
def floats2 (x : LaneF → Nat → Nat → Nat) : State → LaneF → Nat → Nat :=
  of2 fun f => mapElems2 f.ty fun a b => x f (flipIf f.ty (negA f) a) (flipIf f.ty (negB f) b)

/-- The floating members and conversions, with their results (R188, R189, R206, R209 to R211). -/
def floatRows : List LaneRow :=
  [(.fadd, .fadd, floats2 fun f => (Ty.fmt f.ty).add (roundOf f) (satOf f) (ftzOf f)),
   (.fsub, .fsub, floats2 fun f => (Ty.fmt f.ty).sub (roundOf f) (satOf f) (ftzOf f)),
   (.fmul, .fmul, floats2 fun f => (Ty.fmt f.ty).mul (roundOf f) (satOf f) (ftzOf f)),
   (.ffma, .ffma, of3 fun f => mapElems3 f.ty fun a b c =>
     (Ty.fmt f.ty).fma (roundOf f) (satOf f) (ftzOf f) (flipIf f.ty (negA f) a) (flipIf f.ty (negB f) b) c),
   (.fmin, .fmin, floats2 fun f => (Ty.fmt f.ty).minMax false (ftzOf f)),
   (.fmax, .fmax, floats2 fun f => (Ty.fmt f.ty).minMax true (ftzOf f)),
   (.fabs, .fabs, of1 fun f => mapElems1 f.ty fun a => a % 2 ^ (f.ty.elem - 1)),
   (.fneg, .fneg, of1 fun f => mapElems1 f.ty (Ty.fmt f.ty).flipSign),
   (.fscale, .fscale, fun s f i => mapElems1 f.ty (fun a => (Ty.fmt f.ty).scale (roundOf f) (satOf f) (ftzOf f)
     (flipIf f.ty (negA f) a) (s.g.src32 f f.sb i).toInt) (s.g.src f f.ty f.sa i))] ++
  [(.frcp, .frcp, of1 fun f => frcpBits (Ty.fmt f.ty) (negA f) (ftzOf f)),
   (.frsq, .frsq, of1 fun f => frsqBits (Ty.fmt f.ty) (negA f) (ftzOf f)),
   (.fsqrt, .fsqrt, of1 fun f a => (Ty.fmt f.ty).flush (ftzOf f) ((Ty.fmt f.ty).sqrt (roundOf f) (satOf f)
     ((Ty.fmt f.ty).value ((Ty.fmt f.ty).flush (ftzOf f) (flipIf f.ty (negA f) a))))),
   (.fdiv, .fdiv, floats2 fun f a b => (Ty.fmt f.ty).flush (ftzOf f) ((Ty.fmt f.ty).div (roundOf f) (satOf f)
     ((Ty.fmt f.ty).value ((Ty.fmt f.ty).flush (ftzOf f) a)) ((Ty.fmt f.ty).value ((Ty.fmt f.ty).flush (ftzOf f) b)))),
   (.fexp2, .fexp2, of1 fun f => fexp2Bits (negA f) (ftzOf f)),
   (.flog2, .flog2, of1 fun f => flog2Bits (negA f) (ftzOf f)),
   (.fsin, .fsin, of1 fun f => trigBits false (negA f) (ftzOf f)),
   (.fcos, .fcos, of1 fun f => trigBits true (negA f) (ftzOf f)),
   (.cvt, .cvt, fun s f i => cvtVal f (cvtSrc f) (s.g.src f (cvtSrc f) f.sa i)),
   (.cvtPk, .cvtPk, ofHalves fun f => if f.ty ∈ LaneOp.pk then packInt f else packFloat f)]

end Sys2Proof.Safety

/-- For the members of FARITH and FSPEC, cvt and cvt.pk and every state in which nothing stops the word: exec answers
a next state in which DST holds, in every on lane, the value of the member's rule (the format, rounding, SAT, FTZ and
negation fields of the word applied per element), with the latch, the slot and the frame of R119 as for the integer
members (R119, R206, R209, R188, R189, R210, R211, R106). -/
def Obligations.LaneFloatResults : Prop :=
  ∀ row ∈ floatRows, ∀ (f : LaneF) (s : State), laneOk s row.2.1 f →
    ∃ t, exec (row.1 f) s = .next t ∧ wroteDst s t row.2.1 f (row.2.2 s f) s.g.q

namespace Sys2Proof.Safety

/-- q[n] of a lane; q0 is true in every lane (R113). -/
def predBit (s : State) (n : BitVec 8) (i : Nat) : Bool := n == 0 || (s.g.q.getD n.toNat 0).getLsbD i

/-- The value that fcmp and fclass look at (R207, R208). -/
def floatSeen (s : State) (f : LaneF) (code : BitVec 8) (i : Nat) : Nat :=
  (Ty.fmt f.ty).flush (f.md.getLsbD 6) (s.g.src f f.ty code i)

/-- The members with a predicate result, with the bit of a lane (R185, R186, R207, R208, R217). -/
def predRows : List ((LaneF → Instr) × LaneOp × (State → LaneF → Nat → Bool)) :=
  [(.icmp, .icmp, fun s f i => combine (field f.md 3 2)
     (icmpCond (field f.md 0 3) (toInt f.ty.signed f.ty.elem (s.g.src f f.ty f.sa i))
       (toInt f.ty.signed f.ty.elem (s.g.src f f.ty f.sb i))) (predBit s f.sc i)),
   (.pand, .pand, fun s f i => predBit s f.sa i && predBit s f.sb i),
   (.por, .por, fun s f i => predBit s f.sa i || predBit s f.sb i),
   (.pxor, .pxor, fun s f i => predBit s f.sa i != predBit s f.sb i), (.pnot, .pnot, fun s f i => !predBit s f.sa i),
   (.fcmp, .fcmp, fun s f i => combine (field f.md 3 2)
     (fcmpCond (field f.md 0 3) ((Ty.fmt f.ty).value (floatSeen s f f.sa i)) ((Ty.fmt f.ty).value (floatSeen s f f.sb i)))
     (predBit s f.sc i)),
   (.fclass, .fclass, fun s f i => combine (field f.md 3 2)
     (f.imm.getLsbD ((Ty.fmt f.ty).classBit (floatSeen s f f.sa i))) (predBit s f.sc i)),
   (.vote, .vote, fun s f _ =>
     let all := (Mask.lanes (s.g.onMask f)).length
     let yes := ((Mask.lanes (s.g.onMask f)).filter fun i => predBit s f.sa i).length
     match field f.md 0 2 with
     | 0 => decide (yes = all)
     | 1 => decide (yes ≠ 0)
     | 2 => decide (yes % 2 = 1)
     | _ => decide (all < 2 * yes))]

end Sys2Proof.Safety

namespace Sys2Proof.Safety

/-- The participants of a lane's group at or below (below, for an exclusive scan) the lane (R219). -/
def scanned (f : LaneF) (i : Nat) : List Nat :=
  let n := if field f.imm 0 3 = 0 then 5 else field f.imm 0 3
  (List.range 32).filter fun j => decide (j / 2 ^ n = i / 2 ^ n) && if f.md.getLsbD 3 then decide (j < i) else decide (j ≤ i)

/-- Cross-lane members and the state reads of MISC (R203, R217 to R219). -/
def crossRows : List LaneRow :=
  [(.ballot, .ballot, fun s f _ => sumNat (((Mask.lanes (s.g.onMask f)).filter fun j => predBit s f.sa j).map fun j => 2 ^ j)),
   (.xmatch, .xmatch, fun s f i =>
     let same := (Mask.lanes (s.g.onMask f)).filter fun j => s.g.src f f.ty f.sa j == s.g.src f f.ty f.sa i
     match field f.md 0 2 with
     | 0 => sumNat (same.map fun j => 2 ^ j)
     | 1 => same.headD 0
     | _ => same.length),
   (.redux, .redux, fun s f i =>
     let n := if field f.imm 0 3 = 0 then 5 else field f.imm 0 3
     (reduceNode f (fun j => if (s.g.onMask f).getLsbD j then some (s.g.src f f.ty f.sa j) else none) n
       (i / 2 ^ n * 2 ^ n)).getD 0),
   (.scan, .scan, fun s f i =>
     (scanOver f (fun j => if (s.g.onMask f).getLsbD j then some (s.g.src f f.ty f.sa j) else none)
       (scanned f i)).getD (reduceId f)),
   (.lstat, .lstat, fun s f i =>
     ((List.range i).filter fun j => (s.g.onMask f).getLsbD j).length + (Mask.lanes (s.g.onMask f)).length * 32 +
       (if s.g.lane.cur then 2048 else 0) + (if (if s.g.lane.cur then s.g.lane.s0 else s.g.lane.s1).valid then 4096 else 0) +
       s.g.lane.depth * 65536),
   (.lclock, .lclock, fun s _ _ => s.cycle)]

/-- icmp and fcmp write their condition, fclass its class bit, each combined with q[SC] as MOD says; pand, por, pxor
and pnot the operation on their predicates; vote the all, any, odd or majority result over the participants: into
q[DST] for the on lanes only, nothing where DST is q0; registers, latches and memory are as before (R185, R186, R207,
R208, R217, R113, R115). -/
def lanePredicateResults : Prop :=
  ∀ row ∈ predRows, ∀ (f : LaneF) (s : State), laneOk s row.2.1 f →
    ∃ t, exec (row.1 f) s = .next t ∧ wrotePred s t row.2.1 f (row.2.2 s f)

/-- ballot gives the mask of participants with q[SA] = 1; match the mask, lowest lane or number of the participants
with the same value; redux the combination by a tree, and scan the running combination, over the participants of the
lane's group; getsr the special register; lstat the state of slots and stack; lclock the cycle; shfl the value of the
lane its mode names (0 where that lane is not active), with q[SC] set to whether it is active: each as a register
result with the frame of R119 (R215, R216, R217, R218, R219, R187, R203). -/
def laneCrossResults : Prop :=
  (∀ row ∈ crossRows, ∀ (f : LaneF) (s : State), laneOk s row.2.1 f →
    ∃ t, exec (row.1 f) s = .next t ∧ wroteDst s t row.2.1 f (row.2.2 s f) s.g.q) ∧
  (∀ (f : LaneF) (s : State), laneOk s .getsr f → field f.imm 0 10 ∉ s.g.srPoison →
    ∃ t, exec (.getsr f) s = .next t ∧ wroteDst s t .getsr f (fun _ => (s.readSr (field f.imm 0 10)).toNat) s.g.q) ∧
  (∀ (f : LaneF) (s : State), laneOk s .shfl f →
    let from' (i : Nat) : Nat := shflFrom (field f.md 0 2) i (s.g.src32 f f.sb i)
    ∃ t m, exec (.shfl f) s = .next t ∧ (∀ i < 32, m.getLsbD i = s.g.active.getLsbD (from' i)) ∧
      wroteDst s t .shfl f
        (fun i => if s.g.active.getLsbD (from' i) then s.g.src f f.ty f.sa (from' i) else 0)
        (predAt s.g f.sc.toNat (s.g.onMask f) m))

end Sys2Proof.Safety

/-- icmp and fcmp write their condition, fclass its class bit, each combined with q[SC] as MOD says; pand, por, pxor
and pnot the operation on their predicates; vote the all, any, odd or majority result over the participants: into
q[DST] for the on lanes only, nothing where DST is q0; registers, latches and memory are as before. ballot gives the
mask of participants with q[SA] = 1; match the mask, lowest lane or number of the participants with the same value;
redux the combination by a tree, and scan the running combination, over the participants of the lane's group; getsr
the special register; lstat the state of slots and stack; lclock the cycle; shfl the value of the lane its mode names
(0 where that lane is not active), with q[SC] set to whether it is active: each as a register result with the frame of
R119 (R185, R186, R207, R208, R217, R113, R115, R215, R216, R218, R219, R187). -/
def Obligations.PredicatesAndCrossLane : Prop :=
  lanePredicateResults ∧ laneCrossResults

/-- For every lane instruction: where a field is not one its member accepts or its feature is off, exec takes ILL; where
an operand field or WB raises OPND, it takes OPND; where a latch it reads is neither valid nor coming, it takes LATCH
with the on lanes and the head of the chain; and while a register or latch it needs is in flight nothing issues and the
state is as it was. (Which instruction is the head of a chain is the model's choice where another word stands between,
log 73.) (R121, R96, R114, R115, R107, R108, R94, R353). -/
def Obligations.LaneWordCauses : Prop :=
  ∀ (i : Instr) (op : LaneOp) (f : LaneF) (s : State), i.lane? = some (op, f) →
    ((op.illegal f ≠ none ∨ ∃ n, laneFeature op f = some n ∧ s.hasFeature n = false) →
      exec i s = .next (trapped s true .ill (s.g.laneInfo 0 s.g.slotNow.pc 0))) ∧
    (op.illegal f = none → (∀ n, laneFeature op f = some n → s.hasFeature n = true) → s.g.opndBad op f = true →
      exec i s = .next (trapped s true .opnd (s.g.laneInfo 0 s.g.slotNow.pc 0))) ∧
    (op.illegal f = none → (∀ n, laneFeature op f = some n → s.hasFeature n = true) → s.g.opndBad op f = false →
      (∃ l ∈ laneLatches op f, (s.g.latches.getD l Latch.empty).valid = false ∧ s.g.latchPending l = false) →
      exec i s = .next (trapped s true .latch (s.g.laneInfo 0 s.g.lane.chainHead (s.g.onMask f)))) ∧
    (s.laneGate op f = .stall → exec i s = .next s)

namespace Sys2Proof.Safety

/-- A lane instruction that has issued to a unit: its reply p waits last, with the registers of its destination
reserved; the slot has gone on; nothing else but in-flight counters has changed (R94, R238). -/
def pended (s t : State) (op : LaneOp) (f : LaneF) (p : Pend) : Prop :=
  t.g.pend = s.g.pend ++ [p] ∧ p.id = s.nextId ∧ p.regs = s.g.writeSlots op f ∧ nextIndex s t op f ∧
    laneFrame { s with nextId := s.nextId + 1, g := { s.g with ifc := t.g.ifc } } t ∧ t.g.regs = s.g.regs ∧
    t.g.vPoison = s.g.vPoison ∧ t.g.q = s.g.q ∧ t.g.latches = s.g.latches ∧ t.gangs = s.gangs

/-- A source of the transform pipe over the 32 lanes, 0 for a lane that is not on (R254). -/
def pipeSrc (s : State) (f : LaneF) (code : BitVec 8) : List Half :=
  laneList.map fun i => if (s.g.onMask f).getLsbD i then s.g.src32 f code i else 0

/-- The transform members, with the registers they write, from DST on (R254, R255). -/
def xfmRows : List ((LaneF → Instr) × LaneOp × (State → LaneF → List (List Half))) :=
  [(.xfmTr, .xfmTr, fun s f => [xfmTrans (pipeSrc s f f.sa)]),
   (.xfmQ, .xfmQ, fun s f => [xfmQuant (BlockFmt.ofCode (field f.md 0 2)) (pipeSrc s f f.sa)]),
   (.xfmDq, .xfmDq, fun s f => [((pipeSrc s f f.sa).zip (pipeSrc s f f.sb)).map fun x =>
     xfmDequant (BlockFmt.ofCode (field f.md 0 2)) x.1 x.2]),
   (.xfmX4, .xfmX4, fun s f => [(pipeSrc s f f.sa).map (xfmUnpack4 (f.md.getLsbD 0))]),
   (.xfmZc, .xfmZc, fun s f => (List.range 4).map (xfmReg (woadPack (s.g.xfmBytes f)).1) ++
     [List.replicate 32 (BitVec.ofNat 32 (woadPack (s.g.xfmBytes f)).2)]),
   (.xfmZd, .xfmZd, fun s f => (List.range 4).map (xfmReg (woadUnpack (s.g.xfmBytes f)
     (field (s.g.src32 f f.sb ((Mask.lanes (s.g.onMask f)).headD 0)) 0 3))))]

end Sys2Proof.Safety

/-- smm8 and smm8.tb, where the unit of the scheduler is free, and each xfm instruction, where its pipe and IFC_XF
have room, answer a next state in which one reply with the register writes of the rule (eight fused steps per element
of D; the transform of the on lanes' data, registers from DST in order) waits for its unit and the destination
registers are reserved; the slot goes to the next index; nothing is written yet and memory is as before (R212, R213,
R214, R254, R255, R94, R238). -/
def Obligations.UnitsReplyLater : Prop :=
  (∀ row ∈ [(Instr.smm8, LaneOp.smm8, false), (Instr.smm8Tb, LaneOp.smm8Tb, true)], ∀ (f : LaneF) (s : State),
    laneOk s row.2.1 f → s.smmBusy = false →
    ∃ t p, exec (row.1 f) s = .next t ∧ pended s t row.2.1 f p ∧ p.kind = .smm ∧ p.latch = none ∧ p.dead = 0 ∧
      t.g.ifc = s.g.ifc ∧
      ∀ w, w ∈ p.writes ↔ ∃ i < 32, ∃ e < 2, (s.g.onMask f).getLsbD i = true ∧
        let x := s.g.smmDot f row.2.2 (s.g.onMask f) (i / 4) (i % 4 * 2 + e)
        if f.ty = .f64 then
          w = (s.g.slotOf (f.dst.toNat + 2 * e), i, BitVec.ofNat 32 x) ∨
            w = (s.g.slotOf (f.dst.toNat + 2 * e + 1), i, BitVec.ofNat 32 (x / 2 ^ 32))
        else w = (s.g.slotOf (f.dst.toNat + e), i, BitVec.ofNat 32 x)) ∧
  (∀ row ∈ xfmRows, ∀ (f : LaneF) (s : State), laneOk s row.2.1 f → s.xfmHeld < 16 → s.g.ifcOf .xf < 63 → agrees s →
    ∃ t p, exec (row.1 f) s = .next t ∧ pended s t row.2.1 f p ∧ p.kind = .xfm ∧ p.latch = none ∧ p.dead = 0 ∧
      t.g.ifc = s.g.ifc ++ [{ path := .xf, id := p.id, done := false }] ∧
      ∀ w, w ∈ p.writes ↔ ∃ m vals, (row.2.2 s f)[m]? = some vals ∧ ∃ i < 32, (s.g.onMask f).getLsbD i = true ∧
        w = (s.g.slotOf (f.dst.toNat + m), i, vals.getD i 0))

namespace Sys2Proof.Safety

/-- The checks of lanes that all pass, with their places. -/
def allOk (accs : List LaneAcc) : List (Nat × Chk) := accs.map fun a => (a.1, .ok a.2.1 a.2.2)

/-- Whether the scalar stream has accessed a place before a lane access that precedes it in program order: the place then
stands among the early bytes, with a block that is not before the running one (R88). -/
def isEarly (s : State) (p : Place) : Bool :=
  s.g.early.any fun e => decide (e.place = p ∧ s.g.lane.enqueued - s.g.lane.queue.length ≤ e.upto)

/-- What a lane of the running block reads of a place: for an early byte what stood there before the scalar stream's
access and the block's own stores have left, else what its gang reads (R88, R264, R366). -/
def seenByte (s : State) (l1 : Bool) (p : Place) : Byte :=
  match s.g.early.find? fun e => decide (e.place = p ∧ s.g.lane.enqueued - s.g.lane.queue.length ≤ e.upto) with
  | some e => e.old
  | none => s.gangByte s.g.ref.crew s.g.core l1 p

/-- The lanes of a list of accesses read one after another, in ascending order, none meeting bad data: vals gives the
little-endian values, t the state with what the accesses have brought into the caches (R5, R195, R228). -/
def lanesRead (s : State) (l1 : Nat → Bool) (accs : List LaneAcc) (vals : List (Nat × Nat)) (t : State) : Prop :=
  match accs with
  | [] => vals = [] ∧ t = s
  | (i, ps, mt) :: rest =>
    let u := s.touch s.g.core (l1 mt) ps
    (∀ p ∈ ps, u.gangBad u.g.ref.crew u.g.core (l1 mt) p = false) ∧
      ∃ vs, vals = (i, leNat (ps.map (seenByte u (l1 mt)))) :: vs ∧ lanesRead u l1 rest vs t

/-- The value of a lane in a list of values by lane; 0 for a lane without one. -/
def valueOf (vals : List (Nat × Nat)) (i : Nat) : Nat := ((findBy (fun x => x.1 == i) vals).map (·.2)).getD 0

/-- What the reply of a load writes: DST (and the register above it for a 64-bit type) for the on lanes unless NWB is
set, and the latch for every lane, 0 for lanes off (R198, R106). -/
def loadReply (s : State) (f : LaneF) (p : Pend) (value : Nat → Nat) : Prop :=
  p.kind = .load ∧ p.dead = 0 ∧
    p.latch = some (f.lt.toNat, (laneVals (s.g.onMask f) value).map fun x => BitVec.ofNat 32 x) ∧
    ∀ w, w ∈ p.writes ↔ f.nwb = false ∧ ∃ i < 32, (s.g.onMask f).getLsbD i = true ∧
      (w = (s.g.slotOf f.dst.toNat, i, BitVec.ofNat 32 (value i)) ∨
        (f.ty.is64 = true ∧ w = (s.g.slotOf (f.dst.toNat + 1), i, BitVec.ofNat 32 (value i / 2 ^ 32))))

end Sys2Proof.Safety

/-- ld, where every on lane passes its checks and no data is bad, and a direct ld.rec whose elements do, answer a next
state in which one reply waits with the values read (little-endian, narrow ones extended; ld.rec: consecutive elements
for the on lanes in ascending order, 0 past the end; a byte that the scalar stream has accessed early as that access
found it) for DST and the latch; an acquire empties the L1; ld.rec moves its slot on by the number of on lanes, at
most to the end; memory is not written: only cached copies may differ (R194, R195, R197, R198, R199, R253, R94). -/
def Obligations.LaneLoadsIssue : Prop :=
  (∀ (f : LaneF) (s t u : State) (accs : List LaneAcc) (vals : List (Nat × Nat)), laneOk s .ld f →
    s.laneChecks f false true = (allOk accs, t) → lanesRead t (ldViaL1 f) accs vals u →
    ∃ v w p, exec (.ld f) s = .next w ∧ onlyCaches s u ∧ (if ordAcq f then acquiredAt u v (scopeOf f) else v = u) ∧
      pended v w .ld f p ∧ loadReply s f p fun i => ldExtend f (valueOf vals i)) ∧
  (∀ (f : LaneF) (s t u : State) (x : StreamSlot) (accs : List LaneAcc) (vals : List (Nat × Nat)),
    laneOk s .ldRec f → s.g.streams[field f.imm 0 2]? = some (some x) → x.desc.indirect = false →
    2 ^ x.desc.elog = (if f.ty.is64 then 8 else 4) →
    s.elementChecks x.desc ((streamLanes (Mask.lanes (s.g.onMask f)) x.pos x.desc.size).map fun e =>
      (e.1, x.desc.offset x.desc.base e.2)) = (allOk accs, t) →
    lanesRead t (streamL1 x.desc x.desc.seg) accs vals u →
    ∃ v p, exec (.ldRec f) s = .next v ∧ onlyCaches s u ∧
      pended { u with g := { u.g with streams := v.g.streams } } v .ldRec f p ∧
      v.g.streams = s.g.streams.set (field f.imm 0 2)
        (some { x with pos := min (x.pos + (Mask.lanes (s.g.onMask f)).length) x.desc.size }) ∧
      loadReply s f p fun i => valueOf vals i)

/-- st, where every on lane passes its checks, a release finds every load and atomic returned and UST 0, and an open
version has room: exec answers a next state in which every place of the access holds the byte of the highest on lane
that stores there and every other place reads as before; UST is one higher, the slot goes on, and no register changes.
A release of clus scope or wider and a store through P first commit an open version; without room it raises VERSION
with TRAP_INFO 1. A byte that the scalar stream has stored early keeps that store, and this block reads its own. The
places are those the checks give for the lanes' offsets; a store of memory type 2 is not left in an L2 (R195, R196,
R200, R170, R367, R369, R88, R229). -/
def Obligations.LaneStores : Prop :=
  ∀ (f : LaneF) (s t : State) (accs : List LaneAcc), laneOk s .st f → s.g.ust < 255 →
    s.laneChecks f true true = (allOk accs, t) → (ordRel f = true → s.g.loadsBack = true ∧ s.g.ust = 0) → agrees s →
    memoriesWf s = true → homesWf s = true →
    let cells := accs.flatMap fun a => a.2.1.zip (leBytes (sizeOf_ f) (s.g.src f f.ty f.sb a.1))
    let mt := (accs.map fun a => a.2.2).foldl max 0
    let now := cells.filter fun c => !isEarly s c.1
    ∃ r v, onlyCaches s t ∧ (if ordRel f then releasedAt t r (scopeOf f) else r = t) ∧
      (if segOf f = .p then committed r v r.g.ref.crew false else v = r) ∧
      (roomFor v (segOf f == .g || segOf f == .l) now →
        ∃ u, exec (.st f) s = .next u ∧ stored v u mt now ∧
          (∀ p, isEarly s p = true → seenByte u false p = (lastOf cells p).getD (seenByte s false p)) ∧
          u.g.early.map (fun e => (e.place, e.upto)) = s.g.early.map (fun e => (e.place, e.upto)) ∧
          u.g.ust = s.g.ust + 1 ∧ nextIndex s u .st f ∧
          u.g = marked { s.g with lane := u.g.lane, ust := u.g.ust, early := u.g.early } u.g ∧ storeFrame v u mt) ∧
      (¬roomFor v (segOf f == .g || segOf f == .l) now → exec (.st f) s = .next (v.takeTrap true .version 1))

namespace Sys2Proof.Safety

/-- What an atomic finds at a place: 0 in the harbour window (R221). -/
def foundByte (s : State) (p : Place) : Byte :=
  match p with
  | .phys a => if inWindow a then 0 else s.homeByte a
  | .bank _ _ _ => s.placeByte p

/-- The lanes of an atomic one after another on a memory: what each finds, and the memory they leave; nothing is written
in the harbour window (R201, R221). -/
def lanesAct (new : Nat → Nat → Nat) (accs : List LaneAcc) (m : Place → Byte) : List (Nat × Nat) × (Place → Byte) :=
  match accs with
  | [] => ([], m)
  | (i, ps, _) :: rest =>
    let old := leNat (ps.map m)
    let cells := ps.zip (leBytes ps.length (new i old))
    let after (p : Place) : Byte :=
      match p with
      | .phys a => if inWindow a then m p else (lastOf cells p).getD (m p)
      | .bank _ _ _ => (lastOf cells p).getD (m p)
    let r := lanesAct new rest after
    ((i, old) :: r.1, r.2)

/-- The lines of the accesses of memory type 2, which are not left in an L2 (R229). -/
def uncached (accs : List LaneAcc) : List Nat :=
  (accs.filter fun a => a.2.2 == 2).flatMap fun a => a.2.1.filterMap fun p =>
    match p with
    | .phys x => some (x / 128)
    | .bank _ _ _ => none

/-- The new value of an integer atomic on words of w bits (R201). -/
def onWords (x : (w : Nat) → BitVec w → BitVec w → BitVec w → BitVec w) (_ : LaneF) (w m b c : Nat) : Nat :=
  (x w (BitVec.ofNat w m) (BitVec.ofNat w b) (BitVec.ofNat w c)).toNat

/-- The atomics, with the new value from the width, the old value, b and c (R201). -/
def atomRows : List ((LaneF → Instr) × LaneOp × (LaneF → Nat → Nat → Nat → Nat → Nat)) :=
  [(.atomAdd, .atomAdd, onWords fun _ m b _ => m + b),
   (.atomMin, .atomMin, onWords fun _ m b _ => if b.toInt < m.toInt then b else m),
   (.atomMax, .atomMax, onWords fun _ m b _ => if m.toInt < b.toInt then b else m),
   (.atomMinn, .atomMinn, onWords fun _ m b _ => if b.toNat < m.toNat then b else m),
   (.atomMaxn, .atomMaxn, onWords fun _ m b _ => if m.toNat < b.toNat then b else m),
   (.atomAnd, .atomAnd, onWords fun _ m b _ => m &&& b), (.atomOr, .atomOr, onWords fun _ m b _ => m ||| b),
   (.atomXor, .atomXor, onWords fun _ m b _ => m ^^^ b), (.atomExch, .atomExch, onWords fun _ _ b _ => b),
   (.atomCas, .atomCas, onWords fun _ m b c => if m = b then c else m),
   (.atomFadd, .atomFadd, fun f _ m b _ => mapElems2 f.ty ((Ty.fmt f.ty).add 0 false false) m b)]

end Sys2Proof.Safety

/-- Each of the 11 atomics whose on lanes pass their checks and meet no bad data: exec answers a next state in which
the lanes have acted one after another in ascending order, each on what the ones before left: its place holds the new
value (for the integer members on 32 and 64 bits the operation of R201 of the old value, b and c; for atom.fadd the
sum per element), and the reply brings the old values for DST and the latch; a place in the harbour window gives 0 and
is not written. Every other place reads as before, and UST is one higher. An atomic with release first does its
release, one through G, L or P commits an open version, and one with acquire empties the L1 after it (R195, R196,
R201, R202, R170, R261, R367, R221, R229). -/
def Obligations.LaneAtomics : Prop :=
  ∀ row ∈ atomRows, ∀ (f : LaneF) (s t : State) (accs : List LaneAcc), laneOk s row.2.1 f → s.g.ust < 255 →
    s.laneChecks f true false = (allOk accs, t) → (ordRel f = true → s.g.loadsBack = true ∧ s.g.ust = 0) → agrees s →
    memoriesWf s = true → homesWf s = true →
    ∃ r w v, onlyCaches s t ∧ (if ordRel f then releasedAt t r (scopeOf f) else r = t) ∧
      (if segOf f = .s then w = r else committed r w r.g.ref.crew false) ∧ onlyCaches w v ∧
      (((s.core s.g.core).l1.map fun l => l.num).Nodup → ∀ a ∈ accs, ∀ pa, .phys pa ∈ a.2.1 →
        ∀ l ∈ (v.core s.g.core).l1, l.num ≠ pa / 128) ∧
      ((∀ a ∈ accs, ∀ p ∈ a.2.1, v.placeBad true p = false) →
        let new (i old : Nat) : Nat :=
          row.2.2 f (if f.ty.is64 then 64 else 32) old (s.g.src f f.ty f.sb i) (s.g.src f f.ty f.sc i)
        let run := lanesAct new accs (foundByte v)
        let mt := (accs.map fun a => a.2.2).foldl max 0
        ∃ u p, exec (row.1 f) s = .next u ∧
          (∀ q, outsideWindow q → (∀ a, q = .phys a → apartFrom v (uncached accs) a) → u.placeByte q = run.2 q) ∧
          u.g.ust = s.g.ust + 1 ∧ u.g.pend = s.g.pend ++ [p] ∧ p.id = s.nextId ∧ p.regs = s.g.writeSlots row.2.1 f ∧
          loadReply s f p (valueOf run.1) ∧ nextIndex s u row.2.1 f ∧
          (ordAcq f = true → 1 ≤ scopeOf f → (u.core s.g.core).l1 = []) ∧
          u.g = marked { s.g with lane := u.g.lane, ust := u.g.ust, pend := u.g.pend } u.g ∧ completes true s u ∧
          storeFrame { v with nextId := v.nextId + 1 } u mt)

namespace Sys2Proof.Safety

/-- A per-lane copy accepted: last among the copies, counted by IFC_CP, in the open batch, nothing moved yet (R238,
R245, R248). -/
def accepted (s t : State) (op : LaneOp) (f : LaneF) (x : CopyOp) : Prop :=
  t.copies = s.copies ++ [x] ∧ freshCopy s x ∧ (∃ n ∈ t.g.notes, n.num = (s.g.sealed + 1).toNat) ∧
    t.g = marked { s.g with ifc := s.g.ifc ++ [{ path := .cp, id := x.id, done := false }], notes := t.g.notes,
                            lane := t.g.lane } t.g ∧
    nextIndex s t op f ∧ completes true s t ∧ t = { s with g := t.g, copies := t.copies, nextId := s.nextId + 1 }

/-- The places of one side of a copy: those its check gives in G; in S and P the bank bytes that its addresses name,
whatever state their page is in now (R42, R237, R246). -/
def sideOf (s : State) (seg : SegName) (o n : Nat) (c : Chk) : List Place :=
  if seg = .s ∨ seg = .p then (List.range n).filterMap fun j => s.bankPlace s.g seg (o + j)
  else
    match c with
    | .ok ps _ => ps
    | _ => []

/-- cpa and cpt, where both sides of every on lane pass their checks and IFC_CP has room, answer a next state in which
one copy of the gang, with an item for each on lane in ascending order, the places of its two sides (cpt: its source,
bank, column, first slot and scale), its size and its barrier, joins the copies in the open batch; IFC_CP counts it
and the slot goes to the next index; no register and no byte of memory changes until it lands. A cpa that writes peer
bytes first commits an open version; a page that cannot be reached now is no cause to wait (R240, R241, R243, R244,
R238, R248, R245, R246, R367). -/
def laneCopiesAccepted : Prop :=
  (∀ (f : LaneF) (s t u : State) (a b : List (Nat × Chk)), laneOk s .cpa f →
    let sd := cpaSegs f
    let n := 4 * 2 ^ field f.md 2 2
    s.checkLanes (fun t i => t.check t.g sd.1 i (t.g.cpaSrc f i) n false false) (Mask.lanes (s.g.onMask f)) = (a, t) →
    t.checkLanes (fun t i => t.check t.g sd.2 i (t.g.cpaDst f i) n true false) (Mask.lanes (s.g.onMask f)) = (b, u) →
    (∀ x ∈ a ++ b, x.2.cause? = none) → s.g.ifcOf .cp < 63 → agrees s →
    onlyCaches s u ∧ ∃ w v x vas, (if sd.2 = .p then committed u w u.g.ref.crew false else w = u) ∧
      exec (.cpa f) s = .next v ∧ accepted w v .cpa f x ∧
      x.act = .lanes ((a.zip b).map fun y =>
          (y.1.1, sideOf s sd.1 (s.g.cpaSrc f y.1.1) n y.1.2, sideOf s sd.2 (s.g.cpaDst f y.1.1) n y.2.2))
        vas n (field f.md 0 2 == 1) (if f.md.getLsbD 5 then some (field f.sc 0 4) else none) ∧
      vas.length = a.length ∧ a.map Prod.fst = Mask.lanes (s.g.onMask f) ∧
      ∀ l, l ∈ x.direct ↔ sd.2 = .g ∧ ∃ y ∈ b, ∃ ps, y.2 = .ok ps 2 ∧ ∃ pa, .phys pa ∈ ps ∧ pa / 128 = l) ∧
  (∀ (f : LaneF) (s t : State) (a : List (Nat × Chk)), laneOk s .cpt f →
    let run := 8 * 2 ^ field f.md 2 2
    let n := if field f.md 0 2 = 1 then run / 2 else run
    let seg : SegName := if f.md.getLsbD 5 then .s else .g
    let desc (i : Nat) : Nat := (s.g.src32 f f.sb i).toNat
    s.checkLanes (fun t i => t.check t.g seg i (t.g.cptSrc f i) n false false) (Mask.lanes (s.g.onMask f)) = (a, t) →
    (∀ x ∈ a, x.2.cause? = none) →
    (∀ i ∈ Mask.lanes (s.g.onMask f), ∃ p, s.page s.g.ref.crew (desc i % 16) = some p ∧ p.comp = true ∧
      desc i < 2 ^ 19 ∧ desc i / 2 ^ 12 % run = 0 ∧ desc i / 2 ^ 12 + run ≤ 128) →
    s.g.ifcOf .cp < 63 → agrees s →
    onlyCaches s t ∧ ∃ v x vas, exec (.cpt f) s = .next v ∧ accepted t v .cpt f x ∧
      x.act = .transpose (a.map fun y => (desc y.1 % 16, sideOf s seg (s.g.cptSrc f y.1) n y.2, desc y.1 / 2 ^ 4 % 256,
          desc y.1 / 2 ^ 12 % 128, (s.g.src32 f f.sc y.1).setWidth 9))
        vas run (field f.md 0 2 == 1) (f.md.getLsbD 4) (if f.imm.getLsbD 20 then some (field f.imm 16 4) else none) ∧
      vas.length = a.length ∧ a.map Prod.fst = Mask.lanes (s.g.onMask f) ∧ x.direct = [])

/-- cpm with the feature, whose descriptor lies in readable scratch without bad data, names receivers that exist, has
legal fields and a source and destination within the scratch of the launch, with room in IFC_CP: it commits the open
version, and a multicast from that source to every receiver of the descriptor, with nothing read or moved yet, joins
the copies in the open batch; IFC_CP counts it and pc advances by 4. With no receiver it lands at once: no copy joins
and IFC_CP is as before. Nothing else changes (R176, R249, R245, R367). -/
def multicastAccepted : Prop :=
  ∀ (a : Reg) (s t : State) (ps : List Place) (mt : Nat) (c : Crew) (k : Kernel), s.hasFeature 8 = true → sound s a →
    s.check s.g .s 0 (s.getK a).toNat 32 false false = (.ok ps mt, t) →
    (∀ p ∈ ps, t.gangBad t.g.ref.crew t.g.core false p = false) → s.myCrew = some c →
    s.kernelOf s.g.ref.crew = some k → agrees s → s.g.ifcOf .cp < 63 →
    let m := mcastOf (leNat (ps.map (ownByte t)))
    let e := segVa s.g.segs.s m.src
    m.fails k.desc k.each c.die = none → m.zero = true → 128 ≤ m.bytes → m.bytes ≤ 65536 → m.bytes % 128 = 0 →
    m.src % 128 = 0 → m.dst % 128 = 0 → m.src + m.bytes ≤ s.g.segs.s.limit.toNat →
    e + m.bytes ≤ k.desc.scratch * 8192 → m.dst + m.bytes ≤ k.desc.scratch * 8192 →
    s.scratchStored e m.bytes = true →
    (m.mask ≠ 0 → ∃ v u x, committed t v t.g.ref.crew false ∧ exec (.cpm a) s = .next u ∧ u.copies = s.copies ++ [x] ∧
      freshCopy v x ∧ x.direct = [] ∧ x.used = [] ∧
      x.act = .multicast e m.bytes m.dst (if 128 ≤ m.bar then some (m.bar % 32) else none) m.stage (m.receivers c k)
        (m.receivers c k) [] [] ∧
      u.g = marked { s.g with ifc := s.g.ifc ++ [{ path := .cp, id := x.id, done := false }], notes := u.g.notes,
                              pc := s.g.pc + 4, wait := none, kept := u.g.kept } u.g ∧
      u = { v with g := u.g, copies := u.copies, nextId := v.nextId + 1 }) ∧
    (m.mask = 0 → s.g.ifcOf .cp = 0 → s.g.status ≠ .absent → (∀ x ∈ s.copies, x.id ≠ s.nextId) →
      (∀ c ∈ s.crews, c.state = .running) → ∃ v u, committed t v t.g.ref.crew false ∧ exec (.cpm a) s = .next u ∧
        u.copies = s.copies ∧ u.g.ifc = s.g.ifc ∧ u.g.pc = s.g.pc + 4 ∧ u.g.k = s.g.k ∧
        u = { v with g := u.g, nextId := v.nextId + 1 })

end Sys2Proof.Safety

/-- cpa and cpt, where both sides of every on lane pass their checks and IFC_CP has room, answer a next state in which
one copy of the gang, with an item for each on lane in ascending order, the places of its two sides (cpt: its source,
bank, column, first slot and scale), its size and its barrier, joins the copies in the open batch; IFC_CP counts it
and the slot goes to the next index; no register and no byte of memory changes until it lands. A cpa that writes peer
bytes first commits an open version; a page that cannot be reached now is no cause to wait. cpm with the feature,
whose descriptor lies in readable scratch without bad data, names receivers that exist, has legal fields and a source
and destination within the scratch of the launch, with room in IFC_CP: it commits the open version, and a multicast
from that source to every receiver of the descriptor, with nothing read or moved yet, joins the copies in the open
batch; IFC_CP counts it and pc advances by 4. With no receiver it lands at once: no copy joins and IFC_CP is as
before. Nothing else changes (R240, R241, R243, R244, R238, R248, R245, R246, R367, R176, R249). -/
def Obligations.CopiesAccepted : Prop :=
  laneCopiesAccepted ∧ multicastAccepted

namespace Sys2Proof.Safety

/-- An operation of the column port issued: last at the port of bank h, or outside it where another gang has the bank in
step mode; IFC_FX counts it, q waits for it, the slot goes on; nothing else changes (R238, R279, R282, R296). -/
def portGets (s t : State) (op : LaneOp) (f : LaneF) (h : Nat) (p : Page) (q : Pend) (act : BankAct) : Prop :=
  ∃ u, pageSet s u h (sentTo p { id := s.nextId, gang := s.g.ref, act := act, steps := 0 }) ∧
    t = { u with g := t.g, nextId := s.nextId + 1 } ∧
    t.g = marked { s.g with ifc := s.g.ifc ++ [{ path := .fx, id := s.nextId, done := false }], pend := s.g.pend ++ [q],
                            lane := t.g.lane } t.g ∧
    nextIndex s t op f ∧ completes true s t

/-- For each of the 19 row operations: with the feature, sound registers, a legal descriptor k[ka] that names rows of
a compute bank of the crew, the operation is sent to the port of that bank with the descriptor and, for those with kb,
the scalar k[kb]; IFC_FX is raised and pc advances by 4. A descriptor that R290 or R291 refuses raises OPND; else a
bank that is not there, or a range beyond row 1,023, SEG; else a storage bank BANKMODE (R288, R290, R291, R293, R279).
-/
def rowOperationsIssue : Prop :=
  ∀ row ∈ rowOps, ∀ (a b : Reg) (s : State), s.hasFeature 15 = true → sound s a → sound s b →
    let bad := row.2.1.badDesc (s.getK a)
    let x := rowDesc (s.getK a)
    (∀ p, s.page s.g.ref.crew x.h = some p → bad = false → row.2.1.outside x = false → p.comp = true →
      s.g.ifcOf .fx < 63 → agrees s →
      ∃ t, exec (row.1 a b) s = .next t ∧ sent s t x.h (.bv row.2.1 (s.getK a) (if row.2.2 then s.getK b else 0))) ∧
    (bad = true → exec (row.1 a b) s = .next (trapped s false .opnd 0)) ∧
    (bad = false → (s.page s.g.ref.crew x.h = none ∨ row.2.1.outside x = true) →
      exec (row.1 a b) s = .next (trapped s false .seg 0)) ∧
    (∀ p, s.page s.g.ref.crew x.h = some p → bad = false → row.2.1.outside x = false → p.comp = false →
      exec (row.1 a b) s = .next (trapped s false .bankmode 0))

/-- cpr and cpw whose descriptor is legal and names rows and columns of a compute bank of the crew, with room in
IFC_FX, send their operation to the port of that bank with the on lanes of the word (cpw: and the lanes' data); IFC_FX
counts it, the slot goes to the next index, and what it will write waits: for cpr DST and latch 0. A descriptor with a
reserved bit set, or with row fields where none are used, raises OPND; a bank that is not there, a column above 224 or
rows beyond 1,023 SEG; a storage bank BANKMODE: each with all on lanes in its mask (R295, R296, R279, R282, R94). -/
def columnPortIssues : Prop :=
  ∀ (f : LaneF) (s : State),
    let x := (s.g.src32 f f.sa 0).toNat
    let sel := field f.md 0 3
    let h := x % 16
    let bad : Prop := x / 2 ^ 27 ≠ 0 ∨ (sel ≠ 0 ∧ x / 2 ^ 12 % 2 ^ 15 ≠ 0)
    let beyond : Prop := 224 < x / 2 ^ 4 % 2 ^ 8 ∨ (sel = 0 ∧ 1024 < x / 2 ^ 12 % 2 ^ 10 + (x / 2 ^ 22 % 2 ^ 5 + 1))
    (∀ p, s.page s.g.ref.crew h = some p → ¬bad → ¬beyond → p.comp = true → s.g.ifcOf .fx < 63 → agrees s →
      (laneOk s .cpr f → ∃ t q, exec (.cpr f) s = .next t ∧ q.id = s.nextId ∧ q.kind = .cpr ∧ q.dead = 0 ∧
        q.regs = s.g.writeSlots .cpr f ∧ q.latch = some (0, []) ∧
        portGets s t .cpr f h p q (.cpr sel (field f.md 3 2) (s.g.src32 f f.sa 0) (s.g.onMask f)
          (s.g.slotOf f.dst.toNat) f.ty.is64)) ∧
      (laneOk s .cpw f → ∃ t, exec (.cpw f) s = .next t ∧
        portGets s t .cpw f h p
          { id := s.nextId, kind := .cpr, writes := [], regs := [], dead := 0, latch := none }
          (.cpw sel (field f.md 3 2) (s.g.src32 f f.sa 0) (s.g.onMask f)
            ((List.range 32).map fun i => BitVec.ofNat 64 (s.g.src f f.ty f.sb i))))) ∧
    ∀ row ∈ [(Instr.cpr, LaneOp.cpr), (Instr.cpw, LaneOp.cpw)], laneOk s row.2 f →
      let stops (c : Cause) : Prop :=
        exec (row.1 f) s = .next (trapped s true c (s.g.laneInfo 0 s.g.slotNow.pc (s.g.onMask f)))
      (bad → stops .opnd) ∧ (¬bad → s.page s.g.ref.crew h = none ∨ beyond → stops .seg) ∧
      (∀ p, ¬bad → ¬beyond → s.page s.g.ref.crew h = some p → p.comp = false → stops .bankmode)

end Sys2Proof.Safety

/-- For each of the 19 row operations: with the feature, sound registers, a legal descriptor k[ka] that names rows of
a compute bank of the crew, the operation is sent to the port of that bank with the descriptor and, for those with kb,
the scalar k[kb]; IFC_FX is raised and pc advances by 4. A descriptor that R290 or R291 refuses raises OPND; else a
bank that is not there, or a range beyond row 1,023, SEG; else a storage bank BANKMODE. cpr and cpw whose descriptor
is legal and names rows and columns of a compute bank of the crew, with room in IFC_FX, send their operation to the
port of that bank with the on lanes of the word (cpw: and the lanes' data); IFC_FX counts it, the slot goes to the
next index, and what it will write waits: for cpr DST and latch 0. A descriptor with a reserved bit set, or with row
fields where none are used, raises OPND; a bank that is not there, a column above 224 or rows beyond 1,023 SEG; a
storage bank BANKMODE: each with all on lanes in its mask (R288, R290, R291, R293, R279, R295, R296, R282, R94). -/
def Obligations.BankOperationsIssue : Prop :=
  rowOperationsIssue ∧ columnPortIssues

namespace Sys2Proof.Safety

/-- The lanes that take a bra, after its any and all forms (R191, R192). -/
def taken (s : State) (f : LaneF) : Mask :=
  let t := s.g.active &&& s.g.guardMask f
  if field f.md 0 2 = 1 then (if t = 0 then 0 else s.g.active)
  else if field f.md 0 2 = 2 then (if t = s.g.active then t else 0)
  else t

/-- The cells of a divergence entry: four words at their places (R93). -/
def entryCells (ps : List Place) (x : DivEntry) : List (Place × Byte) :=
  ps.zip ((divWords x).flatMap fun w => leBytes 4 w.toNat)

/-- t is u (which is s with pushes written, or the top entry read) with the two slots and the depth as given, the chain
broken, and no register or predicate changed (R92, R107). -/
def slotsAre (s t u : State) (now other : Slot) (depth : Nat) : Prop :=
  t.g.slotNow = now ∧ t.g.slotOther = other ∧
    t.g.lane = { s.g.lane with s0 := t.g.lane.s0, s1 := t.g.lane.s1, depth := depth } ∧
    (∀ l ∈ t.g.latches, l.valid = false) ∧ t.g.pend.map Pend.writes = s.g.pend.map Pend.writes ∧
    t.g = marked { s.g with lane := t.g.lane, latches := t.g.latches, pend := t.g.pend } t.g ∧ completes true s t ∧
    t = { u with g := t.g } ∧ sameMemory u t

/-- v is u with an entry pushed: a store of the gang to its L segment, held in an open version (R93, R366). -/
def pushed (u v : State) (mt : Nat) (cells : List (Place × Byte)) : Prop :=
  stored u v mt cells ∧ storeFrame u v mt ∧ v.g = u.g

/-- The top entry of the divergence stack reads as e without fault or bad data; u is s with the caches the read has
brought (R92, R93). -/
def topEntry (s u : State) (e : DivEntry) : Prop :=
  s.g.lane.depth ≠ 0 ∧ ∃ ps mt v, s.divPlaces (s.g.lane.depth - 1) false = (.ok ps mt, v) ∧
    u = v.touch v.g.core (viaL1 mt false) ps ∧
    (∀ p ∈ ps, u.gangBad u.g.ref.crew u.g.core (viaL1 mt false) p = false) ∧
    e = divEntry ((List.range 4).map fun i => BitVec.ofNat 32
      (leNat (((ps.map fun p => u.gangByte u.g.ref.crew u.g.core (viaL1 mt false) p).drop (4 * i)).take 4)))

end Sys2Proof.Safety

/-- bra: with no lane taken the slot goes to the next index, with every active lane taken to the target; where lanes
differ it pushes a merge entry (and, with the other slot in use, a side entry) and splits the lanes; beyond 64 entries
it raises DIVSTACK code 0, without room in an open version VERSION. join at an index that is not the slot's join goes
on, lend there raises DIVSTACK code 1. At the slot's join both act alike: a side entry of that join on top resumes its
side; a merge entry of that index on top merges unless the other slot still comes there; otherwise the slot parks
where the other slot runs, and DIVSTACK code 1 is raised where it does not. lend of a slot without a join ends the
block where it is the last, and else parks. Each breaks the chain. lnop only goes on (R91, R92, R93, R191, R192, R193,
R203, R107, R369). -/
def Obligations.LaneControl : Prop :=
  (∀ (f : LaneF) (s : State), laneOk s .lnop f → ∃ t, exec (.lnop f) s = .next t ∧ nextIndex s t .lnop f ∧
    laneFrame s t ∧ t.g.regs = s.g.regs ∧ t.g.vPoison = s.g.vPoison ∧ t.g.q = s.g.q ∧ t.g.latches = s.g.latches ∧
    t.g.pend = s.g.pend ∧ t.gangs = s.gangs) ∧
  (∀ (f : LaneF) (s : State), laneOk s .bra f →
    (taken s f = 0 → ∃ t, exec (.bra f) s = .next t ∧
      slotsAre s t s { s.g.slotNow with pc := s.g.slotNow.pc + 1 } s.g.slotOther s.g.lane.depth) ∧
    (taken s f ≠ 0 → s.g.active &&& ~~~taken s f = 0 → ∃ t, exec (.bra f) s = .next t ∧
      slotsAre s t s { s.g.slotNow with pc := f.imm.setWidth 24 } s.g.slotOther s.g.lane.depth) ∧
    (taken s f ≠ 0 → s.g.active &&& ~~~taken s f ≠ 0 →
      let d := s.g.lane.depth
      let t := taken s f
      let n := s.g.active &&& ~~~t
      let join := f.sa ++ f.sb ++ f.sc
      let merge : DivEntry := { kind := .merge, index := join, mask := t ||| n, join := s.g.slotNow.join }
      let side : DivEntry := { kind := .side, index := s.g.slotNow.pc + 1, mask := n, join := some join }
      (64 < d + (if s.g.slotOther.valid then 2 else 1) →
        exec (.bra f) s = .next (trapped s true .divstack (s.g.laneInfo 0 s.g.slotNow.pc 0))) ∧
      (∀ u ps mt, s.g.slotOther.valid = false → d < 64 → s.divPlaces d true = (.ok ps mt, u) → agrees s →
        memoriesWf s = true → homesWf s = true → onlyCaches s u ∧
        (roomFor u true (entryCells ps merge) → ∃ v w, exec (.bra f) s = .next w ∧ pushed u v mt (entryCells ps merge) ∧
          slotsAre s w v (slotAt (s.g.slotNow.pc + 1) n (some join)) (slotAt (f.imm.setWidth 24) t (some join)) (d + 1)) ∧
        (¬roomFor u true (entryCells ps merge) → exec (.bra f) s = .next (u.takeTrap true .version 1))) ∧
      (∀ u u' ps qs mt mt', s.g.slotOther.valid = true → d < 63 → s.divPlaces (d + 1) true = (.ok qs mt, u) →
        u.divPlaces d true = (.ok ps mt', u') → agrees s → memoriesWf s = true → homesWf s = true →
        onlyCaches s u' ∧
        (roomFor u' true (entryCells ps merge) → ∃ v, pushed u' v mt' (entryCells ps merge) ∧
          ∀ v' ps' mt'', v.divPlaces (d + 1) true = (.ok ps' mt'', v') → roomFor v' true (entryCells ps' side) →
            ∃ w x, exec (.bra f) s = .next x ∧ onlyCaches v v' ∧ pushed v' w mt'' (entryCells ps' side) ∧
              slotsAre s x w (slotAt (f.imm.setWidth 24) t (some join)) s.g.slotOther (d + 2))))) ∧
  (∀ (i : Instr) (s : State), (i = .join ∧ laneOk s .join LaneF.zero) ∨ (i = .lend ∧ laneOk s .lend LaneF.zero) →
    let a := s.g.slotNow.pc
    let d := s.g.lane.depth
    let live (m : Mask) : Mask := m &&& ~~~s.g.dead
    let otherComes : Prop := s.g.slotOther.valid = true ∧ s.g.slotOther.parked = false ∧ s.g.slotOther.join = some a
    let otherRuns : Prop := s.g.slotOther.valid = true ∧ s.g.slotOther.parked = false
    let refuses (u : State) : Prop :=
      exec i s = .next (if s.g.uncompared then s else u.takeTrap true .divstack (s.g.laneInfo 0 a 1))
    let parks (u : State) : Prop :=
      ∃ t, exec i s = .next t ∧ slotsAre s t u { s.g.slotNow with parked := true } s.g.slotOther d
    (i = .join → s.g.slotNow.join ≠ some a → ∃ t, exec i s = .next t ∧
      slotsAre s t s { s.g.slotNow with pc := a + 1 } s.g.slotOther d) ∧
    (i = .lend → s.g.slotNow.join ≠ some a → s.g.slotNow.join ≠ none → refuses s) ∧
    (s.g.slotNow.join = some a → d = 0 → (otherRuns → parks s) ∧ (¬otherRuns → refuses s)) ∧
    (∀ u e, s.g.slotNow.join = some a → topEntry s u e →
      (e.kind = .side → e.join = some a → ∃ t, exec i s = .next t ∧
        slotsAre s t u (slotAt e.index (live e.mask) (some a)) s.g.slotOther (d - 1)) ∧
      (e.kind = .merge → e.index = a → ¬otherComes →
        ∃ t, exec i s = .next t ∧ slotsAre s t u (slotAt a (live e.mask) e.join)
          (if s.g.slotOther.valid ∧ s.g.slotOther.parked ∧ s.g.slotOther.pc = a then
            { s.g.slotOther with valid := false } else s.g.slotOther) (d - 1)) ∧
      (¬(e.kind = .side ∧ e.join = some a) → ¬(e.kind = .merge ∧ e.index = a ∧ ¬otherComes) →
        (otherRuns → parks u) ∧ (¬otherRuns → refuses u)))) ∧
  (∀ s : State, laneOk s .lend LaneF.zero → s.g.slotNow.join = none →
    (s.g.lane.depth = 0 → s.g.slotOther.valid = false → ∃ t, exec .lend s = .next t ∧
      t.g.lane = { s.g.lane with running := false, snap := [], s0 := t.g.lane.s0, s1 := t.g.lane.s1, depth := 0,
                                 cur := false } ∧
      t.g.lane.s0.valid = false ∧ t.g.lane.s1.valid = false ∧ (∀ l ∈ t.g.latches, l.valid = false) ∧
      t.g.pend.map Pend.writes = s.g.pend.map Pend.writes ∧
      t.g.early = (if s.g.lane.queue = [] then [] else s.g.early) ∧
      t.g = marked { s.g with lane := t.g.lane, latches := t.g.latches, pend := t.g.pend, early := t.g.early } t.g ∧
      completes true s t ∧ t = { s with g := t.g } ∧ sameMemory s t) ∧
    ((s.g.lane.depth ≠ 0 ∨ s.g.slotOther.valid = true) → ∃ t, exec .lend s = .next t ∧
      slotsAre s t s { s.g.slotNow with parked := true } s.g.slotOther s.g.lane.depth))

namespace Sys2Proof.Safety

/-- a[i]; a0 reads 0 (R328). -/
def readA (s : State) (i : Reg) : Word := if i = 0 then 0 else s.inst.a.getD i.toNat 0

/-- t is s with a[d] := x (nothing for a0) and pc + 8 in the instance whose turn it is, and nothing else changed: no
other register, no local SRAM, no memory. -/
def wroteA (s t : State) (d : Reg) (x : Word) : Prop :=
  t = { s with inst := { s.inst with a := if d = 0 then s.inst.a else s.inst.a.set d.toNat x, pc := s.inst.pc + 8 } }

/-- The stack instructions with two a sources, with the value of each (R340). -/
def stackRows : List ((Reg → Reg → Reg → Instr) × (Word → Word → Word)) :=
  [(.sadd, fun x y => x + y), (.ssub, fun x y => x - y), (.sand, fun x y => x &&& y), (.sor, fun x y => x ||| y),
   (.sxor, fun x y => x ^^^ y), (.sshl, fun x y => x <<< (y.toNat % 64)), (.sshr, fun x y => x >>> (y.toNat % 64)),
   (.ssra, fun x y => x.sshiftRight (y.toNat % 64)), (.smul, fun x y => x * y),
   (.sslt, fun x y => if x.toInt < y.toInt then 1 else 0), (.ssltn, fun x y => if x.toNat < y.toNat then 1 else 0)]

end Sys2Proof.Safety

namespace Sys2Proof.Safety

/-- The conditional branches of a stack core, with their conditions (R342). -/
def stackBranches : List ((Reg → Reg → Half → Instr) × (Word → Word → Bool)) :=
  [(.sbeq, fun x y => x == y), (.sbne, fun x y => x != y), (.sblt, fun x y => decide (x.toInt < y.toInt)),
   (.sbge, fun x y => decide (y.toInt ≤ x.toInt))]

/-- sadd, ssub, sand, sor, sxor, sshl, sshr, ssra, smul, sslt, ssltn, saddi, sli and slhi, from every state and
operands, answer a next state in which a[d] holds the value of R340 (nothing is written for a0, which reads 0), pc is
pc + 8, and every other register of the instance, its local SRAM and all memory are as before (R340, R328, R336). -/
def stackScalarResults : Prop :=
  (∀ row ∈ stackRows, ∀ (d a b : Reg) (s : State),
    ∃ t, exec (row.1 d a b) s = .next t ∧ wroteA s t d (row.2 (readA s a) (readA s b))) ∧
  ∀ (d a : Reg) (i : Half) (s : State),
    (∃ t, exec (.saddi d a i) s = .next t ∧ wroteA s t d (readA s a + i.signExtend 64)) ∧
    (∃ t, exec (.sli d i) s = .next t ∧ wroteA s t d (i.signExtend 64)) ∧
    ∃ t, exec (.slhi d i) s = .next t ∧ wroteA s t d (i ++ (readA s d).setWidth 32)

/-- sbeq, sbne, sblt and sbge go to pc + imm32 exactly when their comparison holds and to pc + 8 otherwise, sjal links
a[d] := pc + 8 and goes to pc + imm32, each with no other change; an offset that is not a multiple of 8 is a stack
ILL, taken or not; sjr links and goes to a[a] + imm32, or is a stack ALIGN where that is not a multiple of 8 (R342,
R334, R336). -/
def stackBranchesAndJumps : Prop :=
  (∀ row ∈ stackBranches, ∀ (a b : Reg) (i : Half) (s : State),
    if i.toNat % 8 = 0 then exec (row.1 a b i) s = .next { s with inst := { s.inst with
        pc := s.inst.pc + if row.2 (readA s a) (readA s b) then i.signExtend 64 else 8 } }
    else exec (row.1 a b i) s = .next (s.stackTrap .ill)) ∧
  (∀ (d : Reg) (i : Half) (s : State),
    if i.toNat % 8 = 0 then exec (.sjal d i) s = .next { s with inst := { s.inst with
        a := if d = 0 then s.inst.a else s.inst.a.set d.toNat (s.inst.pc + 8), pc := s.inst.pc + i.signExtend 64 } }
    else exec (.sjal d i) s = .next (s.stackTrap .ill)) ∧
  (∀ (d a : Reg) (i : Half) (s : State),
    if (readA s a + i.signExtend 64).toNat % 8 = 0 then exec (.sjr d a i) s = .next { s with inst := { s.inst with
        a := if d = 0 then s.inst.a else s.inst.a.set d.toNat (s.inst.pc + 8), pc := readA s a + i.signExtend 64 } }
    else exec (.sjr d a i) s = .next (s.stackTrap .align))

end Sys2Proof.Safety

/-- sadd, ssub, sand, sor, sxor, sshl, sshr, ssra, smul, sslt, ssltn, saddi, sli and slhi, from every state and
operands, answer a next state in which a[d] holds the value of R340 (nothing is written for a0, which reads 0), pc is
pc + 8, and every other register of the instance, its local SRAM and all memory are as before. sbeq, sbne, sblt and
sbge go to pc + imm32 exactly when their comparison holds and to pc + 8 otherwise, sjal links a[d] := pc + 8 and goes
to pc + imm32, each with no other change; an offset that is not a multiple of 8 is a stack ILL, taken or not; sjr
links and goes to a[a] + imm32, or is a stack ALIGN where that is not a multiple of 8 (R340, R328, R336, R342, R334).
-/
def Obligations.StackScalarInstructions : Prop :=
  stackScalarResults ∧ stackBranchesAndJumps

namespace Sys2Proof.Safety

/-- A byte of memory as the instance whose turn it is reads it: the harbour window; else what its task keeps of its input
regions from the flush, else DRAM (R221, R271). -/
def stackSees (s : State) (a : Nat) : Byte :=
  if inWindow a then s.windowByte a
  else
    match s.tasks.find? fun k => k.serial == s.inst.task with
    | none => s.dramByte a
    | some k => ((k.kept.find? fun c => c.1 == a).map (·.2)).getD (s.dramByte a)

/-- Accesses of a stack core that pass every check and read the byte lists xs: u is the state with what the accesses
have brought into the caches or written back (R341, R343). -/
def stackReads (s : State) (ls : Bool) (n : Nat) (os : List Word) (u : State) (xs : List (List Byte)) : Prop :=
  ∃ ps t, s.stackChecks ls n false os = (.ok ps, t) ∧ u = t.stackTouch ps ∧ (∀ p ∈ ps, u.stackBad p = false) ∧
    xs = ps.map fun p =>
      match p with
      | .phys pa => (List.range n).map fun i => stackSees u (pa + i)
      | .sram o => (List.range n).map fun i => u.inst.sram.read (o + i)

/-- What the loads of a stack core may change: cached translations, and dirty lines of an L2 that have been written back,
the input bytes of tasks in them kept. No byte at its home changes but those that share DRAM with such a line; DRAM changes
only there. -/
def writtenBack (s u : State) : Prop :=
  u = { s with tlb := u.tlb, l2 := u.l2, dram := u.dram, poison := u.poison, tasks := u.tasks } ∧
    u.tasks.map (fun k => { k with kept := [] }) = s.tasks.map (fun k => { k with kept := [] }) ∧ (∀ l ∈ u.l2, l ∈ s.l2) ∧
    (homesWf s = true → memoriesWf s = true → (∀ l ∈ s.l2, l ∉ u.l2 → l.dirty = true) ∧
      (∀ a, (∀ l ∈ s.l2, l ∉ u.l2 → apartFrom s [l.num] a) → u.homeByte a = s.homeByte a) ∧
      ∀ q, u.dram.read q ≠ s.dram.read q →
        ∃ l ∈ s.l2, l ∉ u.l2 ∧ ∃ b, b / 128 = l.num ∧ s.placeOf b = some q)

/-- t is s with w[d] := x and pc + 8 in the instance whose turn it is, and nothing else changed. -/
def wroteW (s t : State) (d : WReg) (x : List Half) : Prop :=
  t = { s with inst := { s.inst with w := s.inst.w.set d.toNat x, pc := s.inst.pc + 8 } }

end Sys2Proof.Safety

/-- sld, vld and vlds whose accesses pass every check of R341 and meet no poisoned data answer a next state with a[d],
or the 16 lanes of w[d], equal to the little-endian bytes read (narrow sld values extended as the width says), pc + 8
and no other register changed; nothing is stored: translations may be cached, and a dirty L2 line that the load
touches may have been written back first (the model's free choice, log 6), which changes no byte at its home; DRAM
changes only at the lines written back. A byte of an input region of the task reads as the flush of the task left it
(R341, R343, R337, R271). -/
def Obligations.StackLoads : Prop :=
  (∀ (d a : Reg) (w : BitVec 3) (ls : Bool) (i : Half) (s u : State) (x : List Byte), w ≠ 7 →
    stackReads s ls (2 ^ (w.toNat / 2)) [readA s a + i.signExtend 64] u [x] →
    ∃ t, exec (.sld d a w ls i) s = .next t ∧ writtenBack s u ∧
      wroteA u t d (if w.toNat % 2 = 1 then (BitVec.ofNat (8 * 2 ^ (w.toNat / 2)) (leNat x)).signExtend 64
        else BitVec.ofNat 64 (leNat x))) ∧
  (∀ (d : WReg) (a : Reg) (ls : Bool) (i : Half) (s u : State) (xs : List (List Byte)),
    stackReads s ls 4 ((List.range 16).map fun n => readA s a + i.signExtend 64 + BitVec.ofNat 64 n * 4) u xs →
    ∃ t, exec (.vld d a ls i) s = .next t ∧ writtenBack s u ∧ wroteW u t d (xs.map fun x => BitVec.ofNat 32 (leNat x))) ∧
  (∀ (d : WReg) (a b : Reg) (ls : Bool) (i : Half) (s u : State) (xs : List (List Byte)),
    stackReads s ls 4 ((List.range 16).map fun n => readA s a + i.signExtend 64 + BitVec.ofNat 64 n * readA s b) u xs →
    ∃ t, exec (.vlds d a b ls i) s = .next t ∧ writtenBack s u ∧
      wroteW u t d (xs.map fun x => BitVec.ofNat 32 (leNat x)))

namespace Sys2Proof.Safety

/-- The byte that a list of (address, byte) pairs, taken in order, leaves at an address. -/
def lastAt (cells : List (Nat × Byte)) (a : Nat) : Option Byte := (findBy (fun c => c.1 == a) cells.reverse).map (·.2)

/-- The DRAM bytes of stores to physical addresses; a store to the harbour window has none (R221, R224). -/
def dramCells (s : State) (cells : List (Nat × Byte)) : List (Nat × Byte) :=
  cells.filterMap fun c => if inWindow c.1 then none else (s.placeOf c.1).map fun p => (p, c.2)

/-- The stores of one instruction of a stack core have performed (R337, R343, R271). -/
def stackStored (s t : State) (l : List (SPlace × List Byte)) : Prop :=
  (∀ q, t.dram.read q = (lastAt (dramCells s (physStackCells l)) q).getD (s.dram.read q)) ∧
    (∀ o, t.inst.sram.read o = (lastAt (sramCells l) o).getD (s.inst.sram.read o)) ∧
    (∀ a, (∀ c ∈ physStackCells l, s.placeOf c.1 ≠ s.placeOf a) → t.homeByte a = s.homeByte a) ∧
    ((∀ k ∈ s.tasks, k.inLines = [] → k.kept = []) → ∀ a, inWindow a = false → (s.placeOf a).isSome = true →
      (∀ c ∈ physStackCells l, c.1 = a ∨ s.placeOf c.1 ≠ s.placeOf a) →
      stackSees t a = (lastAt (physStackCells l) a).getD (stackSees s a)) ∧
    t.tasks.map (fun k => { k with kept := [] }) = s.tasks.map (fun k => { k with kept := [] }) ∧
    t.inst = { s.inst with sram := t.inst.sram, poison := t.inst.poison, pc := s.inst.pc + 8 } ∧
    t = { s with inst := t.inst, tlb := t.tlb, l2 := t.l2, dram := t.dram, poison := t.poison, checks := t.checks,
                 tasks := t.tasks, errlog := t.errlog }

end Sys2Proof.Safety

/-- sst, vst and vsts whose accesses pass every check of R341 answer a next state in which each DRAM and SRAM byte of
the accesses holds the byte stored (of lanes that store to one byte, the highest-numbered lane's), every other byte of
DRAM and of the local SRAM reads as before, every byte at its home that shares no DRAM byte with the accesses reads as
before, the instance reads its own stores back even in an input region of its task, no register changes and pc is pc +
8. The places are those the checks give for the addresses (R341, R343, R337, R271). -/
def Obligations.StackStores : Prop :=
  (∀ (d a : Reg) (w : BitVec 2) (ls : Bool) (i : Half) (s u : State) (p : SPlace), memoriesWf s = true →
    s.stackCheck ls (readA s a + i.signExtend 64) (2 ^ w.toNat) true = (.ok p, u) →
    ∃ t, exec (.sst d a w ls i) s = .next t ∧ stackStored s t [(p, leBytes (2 ^ w.toNat) (readA s d).toNat)]) ∧
  (∀ (d : WReg) (a : Reg) (ls : Bool) (i : Half) (s u : State) (ps : List SPlace), memoriesWf s = true →
    s.stackChecks ls 4 true ((List.range 16).map fun n => readA s a + i.signExtend 64 + BitVec.ofNat 64 n * 4)
      = (.ok ps, u) →
    ∃ t, exec (.vst d a ls i) s = .next t ∧
      stackStored s t (ps.zip ((s.inst.w.getD d.toNat []).map fun (x : Half) => leBytes 4 x.toNat))) ∧
  (∀ (d : WReg) (a b : Reg) (ls : Bool) (i : Half) (s u : State) (ps : List SPlace), memoriesWf s = true →
    s.stackChecks ls 4 true ((List.range 16).map fun n => readA s a + i.signExtend 64 + BitVec.ofNat 64 n * readA s b)
      = (.ok ps, u) →
    ∃ t, exec (.vsts d a b ls i) s = .next t ∧
      stackStored s t (ps.zip ((s.inst.w.getD d.toNat []).map fun (x : Half) => leBytes 4 x.toNat)))

namespace Sys2Proof.Safety

/-- w[i]. -/
def readW (s : State) (i : WReg) : List Half := s.inst.w.getD i.toNat []

/-- An operation on the lanes of two w registers. -/
def lanes2 (s : State) (a b : WReg) (x : Half → Half → Half) : List Half := List.zipWith x (readW s a) (readW s b)

/-- The vector operations with an integer and a floating form (R344). -/
def vectorRows : List ((WReg → WReg → WReg → Bool → BitVec 3 → Bool → Instr) × (Half → Half → Half) ×
    (Nat → Bool → Nat → Nat → Nat)) :=
  [(.vadd, fun x y => x + y, fun r z => Fmt.f32.add r false z), (.vsub, fun x y => x - y, fun r z => Fmt.f32.sub r false z),
   (.vmul, fun x y => x * y, fun r z => Fmt.f32.mul r false z)]

end Sys2Proof.Safety

namespace Sys2Proof.Safety

/-- t is s with every lane of ba[d] replaced and pc + 8 in the instance whose turn it is, and nothing else changed. -/
def wroteBa (s t : State) (d : WReg) (x : Nat → Word → Word) : Prop :=
  t = { s with inst := { s.inst with
          ba := s.inst.ba.set d.toNat ((List.range 16).map fun i => x i ((s.inst.ba.getD d.toNat []).getD i 0)),
          pc := s.inst.pc + 8 } }

/-- vadd, vsub, vmul, vfma, vmin, vmax, vcvt and vsplat write the 16 lanes of w[d] with the value of their rule (s32
modulo 2^32, floating with the rounding and FTZ of the word; vfma reads the old w[d]; vcvt to a half keeps the other
half), pc + 8, and nothing else; a rounding field above 4, or a field R344 and R345 do not list, is a stack ILL with
no lane written (R343, R344, R345, R334, R336). -/
def stackVectorResults : Prop :=
  (∀ row ∈ vectorRows, ∀ (d a b : WReg) (s32 : Bool) (rnd : BitVec 3) (ftz : Bool) (s : State),
    if rnd.toNat ≤ 4 ∧ (s32 = true → rnd = 0 ∧ ftz = false) then
      ∃ t, exec (row.1 d a b s32 rnd ftz) s = .next t ∧ wroteW s t d (lanes2 s a b fun x y =>
        if s32 then row.2.1 x y else BitVec.ofNat 32 (row.2.2 rnd.toNat ftz x.toNat y.toNat))
    else exec (row.1 d a b s32 rnd ftz) s = .next (s.stackTrap .ill)) ∧
  (∀ row ∈ [(Instr.vmin, false), (Instr.vmax, true)], ∀ (d a b : WReg) (s32 ftz : Bool) (s : State),
    if s32 = true → ftz = false then
      ∃ t, exec (row.1 d a b s32 ftz) s = .next t ∧ wroteW s t d (lanes2 s a b fun x y =>
        if s32 then (if (if row.2 then decide (x.toInt < y.toInt) else decide (y.toInt < x.toInt)) then y else x)
        else BitVec.ofNat 32 (Fmt.f32.minMax row.2 ftz x.toNat y.toNat))
    else exec (row.1 d a b s32 ftz) s = .next (s.stackTrap .ill)) ∧
  (∀ (d a b : WReg) (rnd : BitVec 3) (ftz : Bool) (s : State),
    if rnd.toNat ≤ 4 then
      ∃ t, exec (.vfma d a b rnd ftz) s = .next t ∧ wroteW s t d ((List.range 16).map fun i =>
        BitVec.ofNat 32 (Fmt.f32.fma rnd.toNat false ftz ((readW s a).getD i 0).toNat ((readW s b).getD i 0).toNat
          ((readW s d).getD i 0).toNat))
    else exec (.vfma d a b rnd ftz) s = .next (s.stackTrap .ill)) ∧
  (∀ (d a : WReg) (code : BitVec 4) (rnd : BitVec 3) (ftz : Bool) (s : State),
    if code.toNat ≤ 9 ∧ rnd.toNat ≤ 4 ∧ (code.toNat ∈ [2, 3, 6, 7] → rnd = 0) then
      ∃ t, exec (.vcvt d a code rnd ftz) s = .next t ∧
        wroteW s t d (lanes2 s a d fun x old => vcvtLane code.toNat rnd.toNat ftz x old)
    else exec (.vcvt d a code rnd ftz) s = .next (s.stackTrap .ill)) ∧
  ∀ (d : WReg) (a : Reg) (s : State),
    ∃ t, exec (.vsplat d a) s = .next t ∧ wroteW s t d (List.replicate 16 ((readA s a).setWidth 32))

/-- vbacc.f32, vbacc.mul.f32 and vbacc.mul.bf16 add a lane's value, its product rounded once, or its two exact
products one after the other to the 40-bit accumulator of the lane; vbrd reads every lane rounded into w[d], vbclr
clears ba[d], vhsum reads the tree sum of the 16 lanes into a[d]: each with pc + 8 and nothing else changed (R346,
R142, R219). -/
def stackAccumulators : Prop :=
  (∀ (d a : WReg) (s : State), ∃ t, exec (.vbaccF32 d a) s = .next t ∧
    wroteBa s t d fun i acc => accAdd acc (Fmt.f32.value ((readW s a).getD i 0).toNat)) ∧
  (∀ (d a b : WReg) (s : State), ∃ t, exec (.vbaccMulF32 d a b) s = .next t ∧
    wroteBa s t d fun i acc => accAdd acc (extRound
      (Machine.Num.mul (Fmt.f32.value ((readW s a).getD i 0).toNat) (Fmt.f32.value ((readW s b).getD i 0).toNat)))) ∧
  (∀ (d a b : WReg) (s : State), ∃ t, exec (.vbaccMulBf16 d a b) s = .next t ∧
    wroteBa s t d fun i acc =>
      let low (r : WReg) : Machine.Num := Fmt.bf16.value (((readW s r).getD i 0).toNat % 2 ^ 16)
      let high (r : WReg) : Machine.Num := Fmt.bf16.value (((readW s r).getD i 0).toNat / 2 ^ 16)
      accAdd (accAdd acc (Machine.Num.mul (low a) (low b))) (Machine.Num.mul (high a) (high b))) ∧
  (∀ (d a : WReg) (s : State), ∃ t, exec (.vbrd d a) s = .next t ∧
    wroteW s t d ((s.inst.ba.getD a.toNat []).map extRead)) ∧
  (∀ (d : WReg) (s : State), ∃ t, exec (.vbclr d) s = .next t ∧ wroteBa s t d fun _ _ => 0) ∧
  ∀ (d : Reg) (a : WReg) (s : State), ∃ t, exec (.vhsum d a) s = .next t ∧
    wroteA s t d ((extRead (accNode (s.inst.ba.getD a.toNat []) 4 0)).setWidth 64)

end Sys2Proof.Safety

/-- vadd, vsub, vmul, vfma, vmin, vmax, vcvt and vsplat write the 16 lanes of w[d] with the value of their rule (s32
modulo 2^32, floating with the rounding and FTZ of the word; vfma reads the old w[d]; vcvt to a half keeps the other
half), pc + 8, and nothing else; a rounding field above 4, or a field R344 and R345 do not list, is a stack ILL with
no lane written. vbacc.f32, vbacc.mul.f32 and vbacc.mul.bf16 add a lane's value, its product rounded once, or its two
exact products one after the other to the 40-bit accumulator of the lane; vbrd reads every lane rounded into w[d],
vbclr clears ba[d], vhsum reads the tree sum of the 16 lanes into a[d]: each with pc + 8 and nothing else changed
(R343, R344, R345, R334, R336, R346, R142, R219). -/
def Obligations.StackVectorInstructions : Prop :=
  stackVectorResults ∧ stackAccumulators

namespace Sys2Proof.Safety

/-- A mailbox selector that names mailbox n of a base die: bits 5:0 the mailbox, bits 10:8 the die, all others 0 (R347). -/
abbrev boxAt (x : Word) (die n : Nat) : Prop := n < 64 ∧ die < 8 ∧ x = BitVec.ofNat 64 (die * 256 + n)

end Sys2Proof.Safety

namespace Sys2Proof.Safety

/-- msend to an empty mailbox of an instance of the task that has not ended puts the 16 lanes of w[b], the sender and
FULL into it; mrecv of a full own mailbox moves its message to w[d], clears FULL and counts it; mwait reads which of
the named mailboxes are full once one is (at once for none named); mpoll reads the wake register. A full target of
msend, and an empty mailbox of mrecv or mwait, leave the state unchanged; a selector with other bits set is SEG,
another core's mailbox for mrecv and mpoll is PROT (R347, R348). -/
def stackMailboxes : Prop :=
  (∀ (a : Reg) (b : WReg) (s : State) (die core n : Nat) (x : Instance), boxAt (readA s a) die (core * 4 + n) → n < 4 →
    s.instanceOf s.inst.task die core = some x → x.state ≠ .ended →
    ((x.mail.getD n Mailbox.empty).full = false → n < x.mail.length →
      ∃ t, exec (.msend a b) s = .next t ∧
        (∃ y, t.instanceOf s.inst.task die core = some y ∧ y.mail.getD n Mailbox.empty =
          { (x.mail.getD n Mailbox.empty) with full := true, msg := readW s b, sstack := s.inst.die, score := s.inst.core } ∧
          ∀ m, m ≠ n → y.mail.getD m Mailbox.empty = x.mail.getD m Mailbox.empty) ∧
        t.inst.pc = s.inst.pc + 8 ∧ t.inst.a = s.inst.a ∧ t.inst.w = s.inst.w ∧
        t = { s with inst := t.inst, insts := t.insts }) ∧
    ((x.mail.getD n Mailbox.empty).full = true → exec (.msend a b) s = .next s)) ∧
  (∀ (d : WReg) (a : Reg) (s : State) (n : Nat), boxAt (readA s a) s.inst.die (s.inst.core * 4 + n) → n < 4 →
    let m := s.inst.mail.getD n Mailbox.empty
    (m.full = true → exec (.mrecv d a) s = .next { s with inst := { s.inst with
        mail := s.inst.mail.set n { m with full := false, rcvd := m.rcvd + 1 }, w := s.inst.w.set d.toNat m.msg,
        pc := s.inst.pc + 8 } }) ∧
    (m.full = false → exec (.mrecv d a) s = .next s)) ∧
  (∀ (d a : Reg) (s : State), (readA s a).toNat < 16 →
    let full := (List.range 4).filter fun i => (readA s a).getLsbD i && (s.inst.mail.getD i Mailbox.empty).full
    (full ≠ [] ∨ readA s a = 0 → ∃ t, exec (.mwait d a) s = .next t ∧
      wroteA s t d (BitVec.ofNat 64 (sumNat (full.map fun i => 2 ^ i)))) ∧
    (full = [] → readA s a ≠ 0 → exec (.mwait d a) s = .next s)) ∧
  (∀ (d a : Reg) (s : State) (n : Nat), boxAt (readA s a) s.inst.die (s.inst.core * 4 + n) → n < 4 →
    ∃ t x, exec (.mpoll d a) s = .next t ∧ wroteA s t d x ∧
      let m := s.inst.mail.getD n Mailbox.empty
      x = BitVec.ofNat 64 ((if m.full then 2 ^ 31 else 0) + m.rcvd.toNat * 2 ^ 16 + m.sstack * 2 ^ 8 + m.score)) ∧
  (∀ (d : WReg) (e a : Reg) (s : State) (x : Word), readA s a = x →
    ((∀ die n, ¬ boxAt x die n) → exec (.msend a d) s = .next (s.stackTrap .seg) ∧
      exec (.mrecv d a) s = .next (s.stackTrap .seg) ∧ exec (.mpoll e a) s = .next (s.stackTrap .seg)) ∧
    (∀ die n, boxAt x die n → (die ≠ s.inst.die ∨ n / 4 ≠ s.inst.core) →
      exec (.mrecv d a) s = .next (s.stackTrap .prot) ∧ exec (.mpoll e a) s = .next (s.stackTrap .prot)))

/-- sfence goes on; syield goes on and notes whether an instance of equal or higher priority waits; scsrr reads a
listed register and scsrw writes SC_SCRATCH (other numbers are a stack ILL); sflag at a checked DRAM address writes,
or adds modulo 2^64 to, the 8 bytes at their home, with every other byte as before; shalt ends the instance, counts it
(no longer among the failed of a failing task), and makes the task FINISHING with its last, or with the last that
still runs of a failing task (R349, R350, R338, R334, R335, R337). -/
def stackControl : Prop :=
  (∀ s : State, exec .sfence s = .next { s with inst := { s.inst with pc := s.inst.pc + 8 } }) ∧
  (∀ s : State, exec .syield s = .next { s with inst := { s.inst with
      pc := s.inst.pc + 8,
      yielded := (s.nextInst s.inst.die s.inst.core).any fun y => decide (s.inst.prio ≤ y.prio) } }) ∧
  (∀ (d : Reg) (n : BitVec 12) (s : State),
    if scsrListed n.toNat then ∃ t, exec (.scsrr d n) s = .next t ∧ wroteA s t d (s.readSc n.toNat)
    else exec (.scsrr d n) s = .next (s.stackTrap .ill)) ∧
  (∀ (n : BitVec 12) (a : Reg) (s : State),
    if n = 0x020 then
      exec (.scsrw n a) s = .next { s with inst := { s.inst with scratch := readA s a, pc := s.inst.pc + 8 } }
    else exec (.scsrw n a) s = .next (s.stackTrap .ill)) ∧
  (∀ (a b : Reg) (add : Bool) (s u : State) (pa : Nat), s.stackCheck false (readA s a) 8 true = (.ok (.phys pa), u) →
    homesWf s = true → inWindow pa = false → (add = true → u.badSector true pa 8 = none) →
    ∃ t, exec (.sflag a b add) s = .next t ∧
      t.homeBytes pa 8 = leBytes 8 (((if add then s.homeVal pa 8 else 0) + (readA s b).toNat) % 2 ^ 64) ∧
      (∀ x, x < pa ∨ pa + 8 ≤ x → t.homeByte x = s.homeByte x) ∧
      t = { s with inst := { s.inst with pc := s.inst.pc + 8 }, tlb := t.tlb, l2 := t.l2, poison := t.poison,
                   checks := t.checks, errlog := t.errlog }) ∧
  ∀ (s : State) (k : Task), s.myTask = some k →
    ∃ t, exec .shalt s = .next t ∧ t.inst = { s.inst with state := .ended } ∧
      t.task s.inst.task = some { k with
        ended := k.ended + 1, failedCount := if k.state = .failing then k.failedCount - 1 else k.failedCount,
        state := if k.ended + 1 = k.count ∨ (k.state = .failing ∧ ∀ x ∈ s.insts, x.task = s.inst.task → x.state ≠ .running)
          then .finishing else k.state } ∧
      (∀ n, n ≠ s.inst.task → t.task n = s.task n) ∧ t = { s with inst := t.inst, tasks := t.tasks }

end Sys2Proof.Safety

/-- msend to an empty mailbox of an instance of the task that has not ended puts the 16 lanes of w[b], the sender and
FULL into it; mrecv of a full own mailbox moves its message to w[d], clears FULL and counts it; mwait reads which of
the named mailboxes are full once one is (at once for none named); mpoll reads the wake register. A full target of
msend, and an empty mailbox of mrecv or mwait, leave the state unchanged; a selector with other bits set is SEG,
another core's mailbox for mrecv and mpoll is PROT. sfence goes on; syield goes on and notes whether an instance of
equal or higher priority waits; scsrr reads a listed register and scsrw writes SC_SCRATCH (other numbers are a stack
ILL); sflag at a checked DRAM address writes, or adds modulo 2^64 to, the 8 bytes at their home, with every other byte
as before; shalt ends the instance, counts it (no longer among the failed of a failing task), and makes the task
FINISHING with its last, or with the last that still runs of a failing task (R347, R348, R349, R350, R338, R334, R335,
R337). -/
def Obligations.StackMailboxesAndControl : Prop :=
  stackMailboxes ∧ stackControl

namespace Sys2Proof.Safety

/-- The cause of a fetch fault, and the level of its walk for an XLAT (R352). -/
def whyCause : FetchFault → Cause × Nat
  | .seg _ => (.seg, 0)
  | .align _ => (.align, 0)
  | .xlat _ level => (.xlat, level)
  | .prot _ => (.prot, 0)
  | .ue _ => (.ue, 0)

/-- An instruction fetch fault of a gang with a cause and a level takes that trap in the scalar stream, TRAP_INFO 0
but for the level of an XLAT; of a stack core it is a stack trap with that cause. An illegal scalar word takes ILL
with TRAP_INFO 0, an illegal lane word ILL in the lane stream with its index and no lane, an illegal stack word a
stack ILL (R121, R336, R352, R353, R356). -/
def fetchedWordsThatTrap : Prop :=
  (∀ (why : FetchFault) (s : State), s.g.status ≠ .absent →
    exec (.instructionFetchFault .scalar why) s = .next (s.takeTrap false (whyCause why).1
      (match why with
       | .xlat va level => xlatInfo va.toNat level
       | _ => 0)) ∧
    exec (.instructionFetchFault .lane why) s =
      .next (s.takeTrap true (whyCause why).1 (s.g.laneInfo (whyCause why).2 s.g.slotNow.pc s.g.active)) ∧
    exec (.illegalInstruction .scalar) s = .next (s.takeTrap false .ill 0) ∧
    exec (.illegalInstruction .lane) s = .next (s.takeTrap true .ill (s.g.laneInfo 0 s.g.slotNow.pc 0))) ∧
  ∀ (why : FetchFault) (s : State), s.inst.state = .running →
    exec (.instructionFetchFault .stack why) s = .next (s.stackTrap (whyCause why).1) ∧
    exec (.illegalInstruction .stack) s = .next (s.stackTrap .ill)

/-- A stack trap of an instance of a task ends that instance and every instance of the task that does not run on a
core, and counts as failed those that had not ended. The task is failing from that stack cycle, or FINISHING where no
instance still runs; the rank and cause of the trap are recorded, of several in the stack cycle of the first those of
the lowest rank. Registers, memory and every other task are as before (R331, R334, R335). -/
def stackTrapFailsTheTask : Prop :=
  ∀ (s : State) (c : Cause) (k : Task), s.myTask = some k →
    let t := s.stackTrap c
    let goes (x : Instance) : Instance :=
      if x.task = s.inst.task ∧ (x.rank = s.inst.rank ∨ x.state ≠ .running) then { x with state := .ended } else x
    let recorded : Prop := k.state ≠ .failing ∨ (k.failAt = s.stackCycle ∧ ∃ r, k.first = some r ∧ s.inst.rank < r)
    (∃ k', t.task s.inst.task = some k' ∧ k' = { k with state := k'.state, failAt := k'.failAt, first := k'.first,
                                                        cause := k'.cause, failedCount := k.count - k.ended } ∧
      k'.state = (if ∃ x ∈ s.insts, x.task = s.inst.task ∧ x.rank ≠ s.inst.rank ∧ x.state = .running then .failing
        else .finishing) ∧
      k'.failAt = (if k.state = .failing then k.failAt else s.stackCycle) ∧
      (recorded → k'.first = some s.inst.rank ∧ k'.cause = c.code) ∧
      (¬recorded → k'.first = k.first ∧ k'.cause = k.cause)) ∧
    (∀ n, n ≠ s.inst.task → t.task n = s.task n) ∧ t.insts = s.insts.map goes ∧
    (s.inst.state ≠ .absent → t.inst = { s.inst with state := .ended }) ∧
    t = { s with inst := t.inst, insts := t.insts, tasks := t.tasks }

end Sys2Proof.Safety

/-- An instruction fetch fault of a gang with a cause and a level takes that trap in the scalar stream, TRAP_INFO 0
but for the level of an XLAT; of a stack core it is a stack trap with that cause. An illegal scalar word takes ILL
with TRAP_INFO 0, an illegal lane word ILL in the lane stream with its index and no lane, an illegal stack word a
stack ILL. A stack trap of an instance of a task ends that instance and every instance of the task that does not run
on a core, and counts as failed those that had not ended. The task is failing from that stack cycle, or FINISHING
where no instance still runs; the rank and cause of the trap are recorded, of several in the stack cycle of the first
those of the lowest rank. Registers, memory and every other task are as before (R121, R336, R352, R353, R356, R331,
R334, R335). -/
def Obligations.FetchFaultsAndStackTraps : Prop :=
  fetchedWordsThatTrap ∧ stackTrapFailsTheTask

namespace Sys2Proof.Safety

/-- A gang has the turn. -/
abbrev hasTurn (s : State) : Prop := s.g.status ≠ .absent

/-- What ends a wait that WAIT_END can end (R89, R90, R125, R166, R170 to R174). -/
def comeAbout (s : State) (w : Wait) : Prop :=
  match w with
  | .laneIdle => s.g.laneIdle = true
  | .laneSpace => s.g.lane.queue.length < 4
  | .stores => s.g.ust = 0
  | .loads => s.g.loadsBack = true
  | .drain => s.g.ust = 0 ∧ s.g.ifc = []
  | .counter p n => s.g.ifcOf p ≤ n
  | .batchSpace => (s.g.sealed - s.g.batchDone).toNat < 15
  | .batchGap n => (s.g.sealed - s.g.batchDone).toNat ≤ n
  | .kendBatches => s.g.sealed = s.g.batchDone
  | .kendCounters => ∀ p ∈ [Path.cp, .mx, .xf, .fx], s.g.ifcOf p = 0
  | .loadsAndStores bd => s.g.loadsBack = true ∧ s.g.ust = 0 ∧ (bd = true → s.g.ifcOf .bd = 0)
  | _ => False

/-- An instruction that is the oldest in flight of its path (R238). -/
def oldestOf (g : Gang) (p : Path) (id : Nat) : Prop :=
  ∃ rest, g.ifc.filter (fun e => e.path == p) = { path := p, id := id, done := false } :: rest ∧
    ∀ e ∈ rest, e.done = false ∧ e.id ≠ id

/-- The reply p of a unit has been written back: the lanes its data makes dead are dead, its registers hold its values
in the lanes that are not dead, its latch holds its values (0 in dead lanes), older replies write that latch no more, and it
is no longer in flight (R106, R197, R198); a halt that is due takes place (R214, R254). -/
def replied (s t : State) (p : Pend) (ifc : List Ifc) : Prop :=
  t.g.dead = s.g.dead ||| p.dead ∧ t.g.pend.map Pend.id = (dropBy (fun (x : Pend) => x.id == p.id) s.g.pend).map Pend.id ∧
    t.g.pend.map Pend.writes = (dropBy (fun (x : Pend) => x.id == p.id) s.g.pend).map Pend.writes ∧ t.g.ifc = ifc ∧
    (wroteLanes s t fun slot i x =>
      if t.g.dead.getLsbD i then x
      else ((findBy (fun w => w.1 == slot && w.2.1 == i) p.writes.reverse).map fun w => w.2.2).getD x) ∧
    t.g.latches = (match p.latch with
      | none => s.g.latches
      | some (l, vals) => s.g.latches.set l
          { valid := true, vals := (List.range 32).map fun i => if t.g.dead.getLsbD i then 0 else vals.getD i 0 }) ∧
    (p.latch = none → t.gangs = s.gangs) ∧
    (s.g.haltDue = false → t.g.status = s.g.status ∧ t.g.stepOne = s.g.stepOne ∧ t.g.haltDue = false) ∧
    (s.g.haltDue = true → t.g.pend = [] → t.g.status = .halted) ∧ (s.g.shadow = none → t.g.trail = s.g.trail) ∧
    t = { s with gangs := t.gangs, g := { s.g with
            dead := t.g.dead, pend := t.g.pend, ifc := t.g.ifc, regs := t.g.regs, vPoison := t.g.vPoison,
            latches := t.g.latches, trail := t.g.trail, status := t.g.status, haltDue := t.g.haltDue,
            stepOne := t.g.stepOne } }

end Sys2Proof.Safety

/-- Each event of the gang whose turn it is. WAIT_END ends a wait whose condition has come about and no other;
KYIELD_EXPIRE ends the hold; CHAIN_BREAK of a chain whose next word has waited 4 cycles for another operand clears
every latch; LANE_BLOCK_START starts the first block with S0 at its index and the lanes that are not dead;
LOAD_RETURN, SMM_COMPLETE and XFM_REPLY write the registers of their reply for lanes that are not dead, and its latch
(XFM_REPLY lowers IFC_XF), whereupon a halt that was due takes place; STORE_ACK lowers UST. For another gang, each
event but STORE_ACK is the event with that gang's turn, after which the turn is back (R87, R88, R91, R107, R127, R159,
R169, R197, R198, R214, R238, R254). -/
def Obligations.GangEventsAct : Prop :=
  (∀ (s : State) (w : Wait), hasTurn s → s.g.wait = some w → w.carries = false →
    (comeAbout s w → exec (.waitEnd s.g.ref) s = .next { s with g := { s.g with wait := none } }) ∧
    (¬comeAbout s w → exec (.waitEnd s.g.ref) s = .next s)) ∧
  (∀ s : State, hasTurn s → s.g.yieldUntil ≤ s.cycle →
    exec (.kyieldExpire s.g.ref) s = .next { s with g := { s.g with yieldUntil := 0 } }) ∧
  (∀ s : State, hasTurn s → s.chainHeld = true → s.g.laneAge + 4 ≤ s.cycle →
    ∃ t, exec (.chainBreak s.g.ref) s = .next t ∧ (∀ l ∈ t.g.latches, l.valid = false) ∧
      t = { s with g := { s.g with latches := t.g.latches, pend := t.g.pend } } ∧
      t.g.pend.map Pend.writes = s.g.pend.map Pend.writes) ∧
  (∀ (s : State) (b : Block) (rest : List Block), hasTurn s → s.g.lane.queue = b :: rest → s.g.lane.running = false →
    s.g.level = .u → s.g.status = .run →
    ∃ t, exec (.laneBlockStart s.g.ref) s = .next t ∧ (s.g.shadow = none → t.g.trail = s.g.trail) ∧
      t = { s with g := { s.g with trail := t.g.trail, lane :=
        { queue := rest, running := true, snap := b.snap,
          s0 := { valid := true, pc := b.idx, mask := ~~~s.g.dead, join := none, parked := false }, s1 := Slot.empty,
          depth := 0, cur := false, chainHead := b.idx, enqueued := s.g.lane.enqueued } } }) ∧
  (∀ (s : State) (p : Pend), hasTurn s → (∀ w ∈ p.writes, s.g.res ≤ w.1) →
    (∀ id, findBy (fun (x : Pend) => x.id == id && x.kind == .load) s.g.pend = some p →
      ∃ t, exec (.loadReturn s.g.ref id) s = .next t ∧ replied s t p s.g.ifc) ∧
    (s.g.oldest .smm = some p → ∃ t, exec (.smmComplete s.g.ref) s = .next t ∧ replied s t p s.g.ifc) ∧
    (s.g.oldest .xfm = some p → oldestOf s.g .xf p.id →
      ∃ t, exec (.xfmReply s.g.ref) s = .next t ∧
        replied s t p (s.g.ifc.erase { path := .xf, id := p.id, done := false }))) ∧
  (∀ (s : State) (c : Crew), hasTurn s → s.myCrew = some c → c.state = .running →
    exec (.storeAck s.g.ref) s = .next { s with g := { s.g with ust := s.g.ust - 1 } }) ∧
  ∀ (r : GangRef) (id : Nat) (s : State), r ≠ s.g.ref → (s.gang r).isSome = true → hasTurn (s.bring r) →
    ∀ e ∈ [Instr.waitEnd r, .kyieldExpire r, .chainBreak r, .laneBlockStart r, .loadReturn r id, .smmComplete r,
        .xfmReply r],
      ∃ t, exec e (s.bring r) = .next t ∧ exec e s = .next (t.bring s.g.ref)

namespace Sys2Proof.Safety

/-- rgrow of n units, and racq of what the full allotment lacks, at an empty grant queue with enough free units, raise
the allotment by n with zero slots at the top and write the new allotment to k[kd]; rshrk of n < ALLOT units at an
idle lane stream, where the window stays resident, lowers it by n and writes it; a request of 0 units only reads the
allotment (R100, R101, R104). -/
def allotmentChanges : Prop :=
  (∀ (d a : Reg) (s : State) (n : Nat), sound s a → (s.getK a).toNat = n → 0 < n → s.g.allot + n ≤ 64 →
    (s.core s.g.core).grants = [] → s.g.cost n ≤ s.poolFree s.g.core → s.g.status = .run → s.g.shadow = none →
    ∃ t, exec (.rgrow d a) s = .next t ∧ grewBy s t d n) ∧
  (∀ (d : Reg) (s : State), 0 < s.fullUnits - s.g.allot → s.fullUnits ≤ 64 → (s.core s.g.core).grants = [] →
    s.g.cost (s.fullUnits - s.g.allot) ≤ s.poolFree s.g.core → s.g.status = .run → s.g.shadow = none →
    ∃ t, exec (.racq d) s = .next t ∧ grewBy s t d (s.fullUnits - s.g.allot)) ∧
  (∀ (d a : Reg) (s : State), sound s a → s.getK a = 0 →
    ∃ t, exec (.rgrow d a) s = .next t ∧ wroteK s t d (BitVec.ofNat 64 s.g.allot) ∧ t.g.pc = s.g.pc + 4) ∧
  (∀ (d a : Reg) (s : State) (n : Nat), sound s a → (s.getK a).toNat = n → n < s.g.allot → s.g.laneIdle = true →
    s.g.pend = [] → s.g.win + min 64 (8 * (s.g.allot - n)) ≤ s.g.res + 8 * (s.g.allot - n) →
    ∃ t, exec (.rshrk d a) s = .next t ∧ t.g.allot = s.g.allot - n ∧ t.g.pc = s.g.pc + 4 ∧
      t.g.regs = s.g.regs.take (8 * (s.g.allot - n)) ∧
      t.g.k = (if d = 0 then s.g.k else s.g.k.set d.toNat (BitVec.ofNat 64 (s.g.allot - n))) ∧ t = { s with g := t.g } ∧
      sameMemory s t)

/-- GRANT with the gang whose turn it is at the head of its core's queue and enough free units takes it off the queue
and leaves it with the units, new slots zero, k[kd] the new allotment and pc + 4. DEADLOCK, once the condition of R102
has held for 1,024 cycles, takes the trap DEADLOCK with the units asked for, in every gang of the queue that waits for
its grant: at U with a handler it enters K, and its request is gone. REGBANK_POWER_GATE gates a bank no unit of which
is held. Nothing else changes (R100, R102, R104, R353). -/
def grantsAndGates : Prop :=
  (∀ (s : State) (x : Grant) (rest : List Grant), hasTurn s → (s.core s.g.core).grants = x :: rest → x.gang = s.g.ref →
    s.g.cost x.n ≤ s.poolFree s.g.core → s.g.shadow = none → s.g.stepOne = none →
    ∃ t, exec (.grant s.g.core) s = .next t ∧ t.g.allot = s.g.allot + x.n ∧ t.g.wait = none ∧ t.g.pc = s.g.pc + 4 ∧
      t.g.regs = s.g.regs ++ List.replicate (8 * x.n) (List.replicate 32 0) ∧
      t.g.units.length = s.g.units.length + x.n ∧
      t.g.k = (if x.kd = 0 then s.g.k else s.g.k.set x.kd.toNat (BitVec.ofNat 64 (s.g.allot + x.n))) ∧
      (t.core s.g.core).grants = rest ∧
      t.g = marked { s.g with allot := t.g.allot, units := t.g.units, regs := t.g.regs, k := t.g.k,
                              kPoison := t.g.kPoison, wait := none, kept := t.g.kept, pc := t.g.pc } t.g ∧
      completes false s t ∧ t = { s with g := t.g, cores := t.cores }) ∧
  (∀ (s : State) (core since : Nat) (l : List Grant), (s.core core).stuckSince = some since → since + 1024 ≤ s.cycle →
    s.stuck core = true → l = (s.core core).grants → (l.map Grant.gang).Nodup → (s.allGangs.map Gang.ref).Nodup →
    (∀ x ∈ l, ∃ g, s.gang x.gang = some g ∧ g.core = core ∧ g.wait = some .grant ∧ g.level = .u ∧ g.trapVec ≠ 0 ∧
      g.dbgHaltTrap = false ∧ g.stepOne = none ∧ g.shadow = none ∧
      ∀ c, s.crew x.gang.crew = some c → c.version.versioned = false) →
    ∃ t, exec (.deadlock core) s = .next t ∧ (t.core core).grants = [] ∧ (t.core core).stuckSince = none ∧
      (∀ x ∈ l, ∀ g, s.gang x.gang = some g → ∃ g', t.gang x.gang = some g' ∧ g'.level = .k ∧ g'.wait = none ∧
        g'.pc = g.trapVec ∧ g'.trapPc = g.pc ∧ g'.trapInfo = BitVec.ofNat 64 x.n ∧ g'.trapCause = 11 ∧
        g'.allot = g.allot ∧ g'.regs = g.regs ∧ g'.k = g.k.take 24 ++ g.kAlt) ∧
      (∀ r, r ∉ l.map Grant.gang → t.gang r = s.gang r) ∧ t = { s with g := t.g, gangs := t.gangs, cores := t.cores }) ∧
  (∀ (s : State) (core bank : Nat), bank < 16 → s.bankFree core bank = 16 → bank ∉ (s.core core).gated →
    ∃ t, exec (.regbankPowerGate core bank) s = .next t ∧ bank ∈ (t.core core).gated ∧
      (∀ b, b ≠ bank → (b ∈ (t.core core).gated ↔ b ∈ (s.core core).gated)) ∧ t = { s with cores := t.cores })

end Sys2Proof.Safety

/-- rgrow of n units, and racq of what the full allotment lacks, at an empty grant queue with enough free units, raise
the allotment by n with zero slots at the top and write the new allotment to k[kd]; rshrk of n < ALLOT units at an idle
lane stream, where the window stays resident, lowers it by n and writes it; a request of 0 units only reads the
allotment. GRANT with the gang whose turn it is at the head of its core's queue and enough free units takes it off the
queue and leaves it with the units, new slots zero, k[kd] the new allotment and pc + 4. DEADLOCK, once the condition of
R102 has held for 1,024 cycles, takes the trap DEADLOCK with the units asked for, in every gang of the queue that waits
for its grant: at U with a handler it enters K, and its request is gone. REGBANK_POWER_GATE gates a bank no unit of
which is held. Nothing else changes. (Which banks the units of one request come from is the model's choice, log 72.)
(R100, R101, R104, R102, R353). -/
def Obligations.AllotmentsAndGrants : Prop :=
  allotmentChanges ∧ grantsAndGates

namespace Sys2Proof.Safety

/-- A place that a copy can read and write now: memory, or a byte of a PINNED page whose port is free (R237, R279). -/
def atRest (s : State) (p : Place) : Prop :=
  match p with
  | .phys _ => True
  | .bank e h _ => ∃ q, s.page e h = some q ∧ q.state = .pinned ∧ q.port = [] ∧ q.owner = none

/-- Whether a place is one of a span of bytes; crew 0 stands for memory. -/
def inSpan (p : Place) (a : Span) : Prop :=
  match p with
  | .phys x => a.crew = 0 ∧ a.page = 0 ∧ a.first ≤ x ∧ x < a.first + a.n
  | .bank e h y => a.crew = e ∧ a.page = h ∧ a.first ≤ y ∧ y < a.first + a.n

/-- A copy of gang g that nothing holds back: none of its gang is before it, nothing of it has been read, its places are
at rest, no source holds bad data, no mtx in flight reads what it writes (R245, R246); no crew is ending. -/
def canLand (s : State) (c : CopyOp) (g : Gang) (src dst : List Place) : Prop :=
  c ∈ s.copies ∧ (∀ x ∈ s.copies, x.id = c.id → x = c) ∧
    (∀ x ∈ s.copies, x.gang = c.gang → x.squashed = true ∨ c.id ≤ x.id) ∧ c.work = none ∧ c.squashed = false ∧
    c.void = false ∧ s.gang c.gang = some g ∧ g.ref = c.gang ∧ (s.allGangs.map Gang.ref).Nodup ∧ oldestOf g .cp c.id ∧
    (∀ x ∈ s.crews, x.state = .running) ∧ (s.crews.map Crew.id).Nodup ∧ memoriesWf s = true ∧ homesWf s = true ∧
    (∀ x ∈ s.crews, ∀ p ∈ x.pages, ∀ o ∈ p.port, ∀ n, o.act ≠ .copy c.id n) ∧
    (∀ p ∈ src ++ dst, atRest s p) ∧ (∀ p ∈ src, s.gangBad c.gang.crew 0 false p = false) ∧
    ∀ m ∈ s.mxs, ∀ a ∈ m.active, 0 < a.n ∧ ∀ p ∈ dst, ¬inSpan p a

/-- What a copy leaves when it lands, and all that it leaves alone: it is gone, IFC_CP counts it no more, and BATCH_DONE has
moved where its batch was the next to be done and had no other copy (R238, R245, R248). -/
def copyLeft (s t : State) (c : CopyOp) (g : Gang) (bar : Option Nat) : Prop :=
  t.copies = dropBy (fun (x : CopyOp) => x.id == c.id) s.copies ∧
    (∃ g', t.gang c.gang = some g' ∧ g'.ifc = g.ifc.erase { path := .cp, id := c.id, done := false } ∧
      g' = { g with ifc := g'.ifc, notes := g'.notes, batchDone := g'.batchDone, lastBatch := g'.lastBatch,
                    errCnt := g'.errCnt, wait := g'.wait, kept := g'.kept } ∧
      (g.batchDone = g.sealed → g'.batchDone = g.batchDone ∧ g'.errCnt = g.errCnt) ∧
      (g.batchDone ≠ g.sealed → (∀ x ∈ t.copies, x.gang = c.gang → x.batch ≠ g.batchDone + 1) →
        g'.batchDone ≠ g.batchDone)) ∧
    (∀ r, r ≠ c.gang → (t.gang r).map (fun x => { x with wait := none, kept := none }) =
      (s.gang r).map fun x => { x with wait := none, kept := none }) ∧
    (bar = none → ∀ r, (t.gang r).map Gang.wait = (s.gang r).map Gang.wait) ∧
    t.crews.map (fun x => { bareCrew x with pages := [], barriers := [] }) =
      s.crews.map (fun x => { bareCrew x with pages := [], barriers := [] }) ∧
    (bar = none → t.crews.map Crew.barriers = s.crews.map Crew.barriers) ∧
    t = { s with g := t.g, gangs := t.gangs, crews := t.crews, copies := t.copies, l2 := t.l2, dram := t.dram,
                 poison := t.poison, checks := t.checks, cores := t.cores, tasks := t.tasks, errlog := t.errlog }

/-- A barrier counted down by the bytes of a copy; a phase that this completes ends (R251, R321). -/
def counted (s t : State) (a : BarAt) (bytes : Nat) : Prop :=
  ∀ x, s.barrier a = some x → t.barrierAt a = phaseDone { x with tx := max (-(2 ^ 39 - 1)) (x.tx - bytes) }

/-- Element j of a run of bytes: a byte, or for E2M1 half a byte, the low half first (R244). -/
def elementAt (e2m1 : Bool) (bytes : List Byte) (j : Nat) : Nat :=
  if e2m1 then (bytes.getD (j / 2) 0).toNat / 16 ^ (j % 2) % 16 else (bytes.getD j 0).toNat

/-- The 8 bits of an element in its slot: an MXINT8 element as it is, an E2M1 element as sign and number of halves
(R136). -/
def inSlot (e2m1 : Bool) (x : Nat) : Nat :=
  if e2m1 then (e2m1Half x).natAbs + (if e2m1Half x < 0 then 16 else 0) else x

end Sys2Proof.Safety

/-- COPY_LAND of a per-lane copy with nothing read yet, no earlier copy of its gang, every bank page it names PINNED
with a free port, no mtx in flight on what it writes and no bad data. cpa: every destination place holds the source byte
(of lanes that write one place, the highest lane's), as the crew reads it: in G held in its open version, else at its
home, and the L1 of the issuing core gives up those lines; cpt: the rows of each run of its column hold the elements in
slot form, and with a scale its scale slot holds it. Every other place and column is as before. The copy is gone, IFC_CP
counts it no more, a batch that this completes is done, and its crew barrier is counted down once by all bytes. (That
sources are read at one moment is the model's choice, log 38.) (R238, R241, R242, R243, R244, R245, R248, R251, R136).
-/
def Obligations.CopiesLand : Prop :=
  (∀ (s : State) (c : CopyOp) (g : Gang) (items : List (Nat × List Place × List Place)) (vas : List Nat) (size : Nat)
    (s2g : Bool) (bar : Option Nat), c.act = .lanes items vas size s2g bar →
    canLand s c g (items.flatMap fun x => x.2.1) (items.flatMap fun x => x.2.2) →
    (∀ x ∈ items, ∀ p ∈ x.2.2, s2g = true ↔ ∃ a, p = .phys a) →
    let cells := items.flatMap fun x => x.2.2.zip (x.2.1.map (s.gangByte c.gang.crew 0 false))
    (s2g && s.versionOpen c.gang.crew && s.holdFull c.gang.crew (physCells cells)) = false →
    ∃ t, exec (.copyLand c.id) s = .next t ∧ copyLeft s t c g bar ∧
      (∀ p, (p ∈ cells.map Prod.fst → outsideWindow p) → (∀ a, p = .phys a → apartFrom s c.direct a) →
        t.gangByte c.gang.crew 0 false p = (lastOf cells p).getD (s.gangByte c.gang.crew 0 false p)) ∧
      (∀ a, (.phys a ∉ cells.map Prod.fst ∨ s.versionOpen c.gang.crew = true) → apartFrom s c.direct a →
        t.homeByte a = s.homeByte a) ∧
      (∀ e h p, s.page e h = some p → ∃ q, t.page e h = some q ∧
        q = { p with cells := q.cells, poison := q.poison, dirty := q.dirty }) ∧
      (∀ x a, s.crew c.gang.crew = some x → ((s.core x.core).l1.map fun l => l.num).Nodup →
        .phys a ∈ cells.map Prod.fst → ∀ l ∈ (t.core x.core).l1, l.num ≠ a / 128) ∧
      ∀ b y, bar = some b → (∀ x ∈ items, ∀ p ∈ x.2.2, ∃ h z, p = .bank y h z) → items ≠ [] →
        (∀ x ∈ items, x.2.2 ≠ []) → counted s t (.crew y b) (size * items.length)) ∧
  (∀ (s : State) (c : CopyOp) (g : Gang) (items : List (Nat × List Place × Nat × Nat × BitVec 9)) (vas : List Nat)
    (run : Nat) (e2m1 scale : Bool) (bar : Option Nat), c.act = .transpose items vas run e2m1 scale bar →
    canLand s c g (items.flatMap fun x => x.2.1) (items.flatMap fun x => (List.range (8 * run)).map fun i =>
      .bank c.gang.crew x.1 (32 * (8 * x.2.2.2.1 + i) + x.2.2.1 / 8)) →
    run ∈ [8, 16, 32] → (∀ x ∈ items, x.2.1.length = (if e2m1 then run / 2 else run) ∧ x.2.2.1 < 256 ∧
      x.2.2.2.1 % run = 0 ∧ x.2.2.2.1 + run ≤ 128) →
    items.Pairwise (fun x y => x.1 ≠ y.1 ∨ x.2.2.1 ≠ y.2.2.1 ∨ x.2.2.2.1 ≠ y.2.2.2.1) →
    ∃ t, exec (.copyLand c.id) s = .next t ∧ copyLeft s t c g bar ∧ (∀ a, t.homeByte a = s.homeByte a) ∧
      (∀ e h, (e ≠ c.gang.crew ∨ ∀ x ∈ items, x.1 ≠ h) → t.page e h = s.page e h) ∧
      (∀ h p, s.page c.gang.crew h = some p → (p.cols.map Prod.fst).Pairwise (· < ·) →
        (∀ y ∈ p.cols, y.2.scale.length = 4) → ∃ q, t.page c.gang.crew h = some q ∧
        q = { p with cells := q.cells, cols := q.cols, dirty := q.dirty } ∧
        (∀ x ∈ items, x.1 = h → ∀ j < run, ∀ b < 8, q.cell (8 * (x.2.2.2.1 + j) + b) x.2.2.1 =
          (inSlot e2m1 (elementAt e2m1 (x.2.1.map (s.gangByte c.gang.crew 0 false)) j)).testBit b) ∧
        (∀ r k, r < 1024 → k < 256 → (∀ x ∈ items, ¬(x.1 = h ∧ x.2.2.1 = k ∧ 8 * x.2.2.2.1 ≤ r ∧
          r < 8 * (x.2.2.2.1 + run))) → q.cell r k = p.cell r k) ∧
        (∀ n, q.col n = { p.col n with scale := (q.col n).scale }) ∧
        (scale = false → ∀ n, q.col n = p.col n) ∧
        ∀ x ∈ items, x.1 = h → scale = true →
          (∀ y ∈ items, y.1 = h → y.2.2.1 = x.2.2.1 → y.2.2.2.1 / 32 = x.2.2.2.1 / 32 → y = x) →
          (q.col x.2.2.1).scale.getD (x.2.2.2.1 / 32) 0 = x.2.2.2.2) ∧
      ∀ b, bar = some b → counted s t (.crew c.gang.crew b) ((if e2m1 then run / 2 else run) * items.length))

/-- MULTICAST_DELIVERY of a multicast whose source pages are at rest: it reads the source once; a receiver that has
begun, with its destination pages PINNED, in storage mode and with free ports, holds the bytes; for one not yet begun
they are buffered while the cluster has room; one that has ended is dropped, and DROP_CNT rises. The receiver is no
longer to be reached. COPY_LAND with no receiver left counts the kernel barrier of the cluster down by all bytes
delivered and the copy leaves. MX_START of an operation at the head of all its ports, with every page of its ranges
PINNED, starts it; where one is not, nothing changes. (Which deliveries count as dropped, and that the source is read
once, are the model's choices, log 36.) (R250, R251, R249, R245, R306, R280, R246). -/
def Obligations.MulticastsAndMatrixStart : Prop :=
  (∀ (s : State) (c : CopyOp) (g : Gang) (k : Kernel) (x : Crew) (src bytes dst stage r : Nat) (bar : Option Nat)
    (all left : List Nat), c.act = .multicast src bytes dst bar stage all left [] [] → r ∈ left → left.Nodup →
    0 < bytes → bytes % 128 = 0 → s.kernelOf c.gang.crew = some k → s.crew c.gang.crew = some x →
    let from_ (i : Nat) : Place :=
      .bank c.gang.crew (scratchHandle k.desc.banks (src + i)) (scratchByte (src + i))
    canLand s c g ((List.range bytes).map from_) [] →
    let data := (List.range bytes).map fun i => s.gangByte c.gang.crew 0 false (from_ i)
    let is (y : Crew) : Prop :=
      y.kernel = x.kernel ∧ y.die = x.die ∧ y.cluster = x.cluster ∧ y.stage = stage ∧ y.rank = r
    let done (n lost : Nat) (lines : List (Nat × Nat)) : CopyOp := { c with
      act := .multicast src bytes dst bar stage all (left.filter fun z => z != r) data [], lines := lines,
      delivered := c.delivered + n, dropped := c.dropped + lost }
    ((∀ y ∈ s.crews, ¬is y) → ∃ t g', exec (.multicastDelivery c.id r) s = .next t ∧
      t.copies = updBy (fun (y : CopyOp) => y.id == c.id) (fun _ => done 0 1 c.lines) s.copies ∧
      t.gang c.gang = some g' ∧ g' = { g with dropCnt := min 65535 (g.dropCnt + 1), notes := g'.notes } ∧
      (∀ q, q ≠ c.gang → t.gang q = s.gang q) ∧
      t = { s with g := t.g, gangs := t.gangs, copies := t.copies }) ∧
    (∀ y ∈ s.crews, is y → (∀ z ∈ s.crews, is z → z = y) →
      (y.begun = false → sumNat ((s.multicast.filter fun b => b.cluster == coreCluster y.core).map fun b => b.data.length)
          + bytes ≤ 65536 →
        exec (.multicastDelivery c.id r) s = .next { s with
          multicast := s.multicast ++ [{ kernel := y.kernel, cluster := coreCluster y.core, stage := stage, rank := r,
                                         dst := dst, data := data, poison := [] }],
          copies := updBy (fun (y : CopyOp) => y.id == c.id) (fun _ => done 1 0 c.lines) s.copies }) ∧
      (y.begun = true → c.lines = [] → c.lost = [] →
        let into (i : Nat) : Place := .bank y.id (scratchHandle k.desc.banks (dst + i)) (scratchByte (dst + i))
        dst % 128 = 0 → (∀ i < bytes, ∃ e h z, into i = .bank e h z ∧ ∃ p, s.page e h = some p ∧ p.state = .pinned ∧
          p.comp = false ∧ p.port = [] ∧ p.owner = none ∧ ∀ m ∈ s.mxs, ∀ a ∈ m.active, ¬inSpan (into i) a) →
        ∃ t lines, exec (.multicastDelivery c.id r) s = .next t ∧
          t.copies = updBy (fun (y : CopyOp) => y.id == c.id) (fun _ => done 1 0 lines) s.copies ∧
          (∀ q, t.placeByte q = (lastOf (((List.range bytes).map into).zip data) q).getD (s.placeByte q)) ∧
          t.crews.map bareCrew = s.crews.map bareCrew ∧ t = { s with crews := t.crews, copies := t.copies }))) ∧
  (∀ (s : State) (c : CopyOp) (g : Gang) (x : Crew) (src bytes dst stage : Nat) (bar : Option Nat) (all : List Nat)
    (data : List Byte), c.act = .multicast src bytes dst bar stage all [] data [] → data ≠ [] → canLand s c g [] [] →
    s.crew c.gang.crew = some x →
    ∃ t, exec (.copyLand c.id) s = .next t ∧ t.copies = dropBy (fun (y : CopyOp) => y.id == c.id) s.copies ∧
      ((t.gang c.gang).map Gang.ifc = some (g.ifc.erase { path := .cp, id := c.id, done := false })) ∧
      (∀ a, t.homeByte a = s.homeByte a) ∧ (∀ e h, t.page e h = s.page e h) ∧
      (bar = none → copyLeft s t c g none) ∧
      ∀ b, bar = some b → let a : BarAt := .kernel x.kernel 1 (coreCluster x.core) b
        (s.kernel x.kernel).isSome = true → t.barrierAt a =
          phaseDone { s.barrierAt a with tx := max (-(2 ^ 39 - 1)) ((s.barrierAt a).tx - (bytes * c.delivered : Nat)) }) ∧
  ∀ (s : State) (m : MxOp), findBy (fun (x : MxOp) => x.id == m.id) s.mxs = some m → m.started = false →
    let may : Prop := (∀ h ∈ m.banks, ∃ p op rest, s.page m.gang.crew h = some p ∧ p.port = op :: rest ∧ op.act = .mx m.id ∧
        (p.owner = none ∨ 1 ≤ op.steps)) ∧
      ∀ x ∈ m.pages, ∀ p, s.page x.1 x.2 = some p → p.state = .pinned
    (may → exec (.mxStart m.id) s =
      .next { s with mxs := updBy (fun (x : MxOp) => x.id == m.id) (fun x => { x with started := true }) s.mxs }) ∧
    (¬may → exec (.mxStart m.id) s = .next s)

namespace Sys2Proof.Safety

/-- A write of CPCTL_CMD from a level that may make one, to a port that is not busy, with a descriptor address whose low
seven bits are 0 (R33). -/
abbrev ready (s : State) (lvl : HostLevel) (desc : Word) : Prop := lvl ≠ .u ∧ s.cp.busy = false ∧ desc.toNat % 128 = 0

/-- A little-endian field of a list of bytes: its offset and its length (R5). -/
def at_ (b : List Byte) (o n : Nat) : Nat := leNat ((b.drop o).take n)

/-- s but for what stores to memory change: the L2 homes, the sectors' marks and check values, and the error log. -/
def homed (s t : State) : State := { s with l2 := t.l2, poison := t.poison, checks := t.checks, errlog := t.errlog }

/-- n bytes at a physical address that a store reaches (R221). -/
abbrev stores (s : State) (pa n : Nat) : Prop :=
  ∀ i < n, (s.regionOf (pa + i)).isSome = true ∧ inWindow (pa + i) = false

/-- Two ranges of bytes that share none. -/
abbrev asunder (a n b m : Nat) : Prop := a + n ≤ b ∨ b + m ≤ a

/-- The context that a descriptor address names, alone with its asid (R413). -/
abbrev names (s : State) (desc : Word) (c : Ctx) : Prop := s.ctxAt desc.toNat = some c ∧ s.ctx c.asid = some c

/-- A descriptor without BADDESC, but for the comparisons with what CREATE or ENABLE read (R35). -/
def goodDesc (b : List Byte) : Prop :=
  at_ b 8 8 % 4096 = 0 ∧ at_ b 0x10 8 % 64 = 0 ∧ at_ b 0x20 8 % 2 ^ 21 = 0 ∧ at_ b 4 4 = 0 ∧ at_ b 0x19 7 = 0 ∧
    at_ b 0x68 24 = 0 ∧ 1 ≤ at_ b 0 2 ∧ at_ b 0 2 ≤ 4095 ∧ at_ b 3 1 ≠ 0 ∧ 1 ≤ at_ b 0x18 1 ∧ at_ b 0x18 1 ≤ 64 ∧
    at_ b 2 1 ≤ 7

/-- A context with the fields of its descriptor (R31). -/
def describes (c : Ctx) (b : List Byte) : Prop :=
  (c.asid, c.prioCeil, c.dieMask, c.ptRoot, c.queueTable, c.queueCount) =
      (at_ b 0 2, at_ b 2 1, at_ b 3 1, at_ b 8 8, at_ b 0x10 8, at_ b 0x18 1) ∧
    (c.saveBase, c.saveSize, c.trapVec, c.faultRec) =
      (at_ b 0x20 8, at_ b 0x28 8, BitVec.ofNat 64 (at_ b 0x30 8), at_ b 0x38 8) ∧
    c.featEn = (List.range 4).map fun i => BitVec.ofNat 64 (at_ b (0x40 + 8 * i) 8)

/-- The code with which ENABLE, or RESUME, refuses a descriptor that it has read (R35, R37). -/
def refusal (s : State) (c : Ctx) (b : List Byte) (again : Bool) : Option Nat :=
  let feat (i : Nat) : Word := BitVec.ofNat 64 (at_ b (0x40 + 8 * i) 8)
  if badDesc b || at_ b 0 2 != c.asid
      || (again && (at_ b 3 1 != c.dieMask || at_ b 0x20 8 != c.saveBase || at_ b 0x28 8 != c.saveSize)) then some 2
  else if (List.range 4).any fun i => feat i &&& ~~~(featCap i) != 0 || (again && c.featEn.getD i 0 &&& ~~~(feat i) != 0) then
    some 3
  else if at_ b 0x28 8 < 80 * 2 ^ 20 * ((List.range 8).filter fun d => (at_ b 3 1).testBit d).length then some 4
  else if 64 ≤ (s.ctxs.filter fun x => x.state == .active).length then some 5
  else none

/-- A command of the control port that completes with a code, and changes nothing else (R33 to R35). -/
def refused (e : Instr) (s : State) (desc : Word) (op : BitVec 4) (code : Nat) : Prop :=
  ∃ t, exec e s = .next t ∧ t = { s with cp := { s.cp with desc := desc, op := op, asid := t.cp.asid, busy := false,
                                                           code := code } } ∧
    ∀ c, s.ctxAt desc.toNat = some c → t.cp.asid = c.asid

/-- A command whose descriptor cannot be read: it completes with BADDESC, and what it met there is logged (R35, R378,
R384). -/
def unread (e : Instr) (s : State) (desc : Word) (op : BitVec 4) : Prop :=
  ∃ t, exec e s = .next t ∧ t = { s with cp := { s.cp with desc := desc, op := op, asid := t.cp.asid, busy := false,
                                                           code := 2 }, errlog := t.errlog } ∧
    (∀ c, s.ctxAt desc.toNat = some c → t.cp.asid = c.asid) ∧ (s.errlog.recs.length < 4096 →
      ∃ l, t.errlog = { s.errlog with recs := s.errlog.recs ++ l } ∧ l.length ≤ 1 ∧ ∀ r ∈ l, r.kind = 2)

/-- What the queue of a context becoming ACTIVE takes from its entry: fields and IDLE, or ERROR with why (R51, R52, R65). -/
def opens (s : State) (q : Queue) (e : Nat) (c : Ctx) : Prop :=
  match s.cpPhys e 64 with
  | none => q.state = .error ∧ q.error = 4
  | some b =>
    if at_ b 0 8 % 4096 = 0 ∧ at_ b 0x10 8 % 8 = 0 ∧ 4 ≤ at_ b 8 1 ∧ at_ b 8 1 ≤ 16 ∧ at_ b 9 1 ≤ 2 ∧ at_ b 0xB 5 = 0 ∧
        at_ b 0x30 16 = 0 then
      if at_ b 9 1 = 2 ∧ (c.featEn.getD 0 0).getLsbD 9 = false then q.state = .error ∧ q.error = 2
      else
        q.state = .idle ∧ q.error = 0 ∧ (q.ringBase, q.ringLog2, q.kind, q.prio, q.widxAddr) =
          (at_ b 0 8, at_ b 8 1, at_ b 9 1, min (at_ b 0xA 1) c.prioCeil, at_ b 0x10 8)
    else q.state = .error ∧ q.error = 1

/-- Every save of a context is done (R36). -/
def savesDone (s : State) (asid : Nat) : Prop :=
  ∀ x ∈ s.crews, s.asidOf x.id = asid → x.state = .waiting ∨
    (x.state = .saved ∧ x.id ∉ (s.core x.core).shadowBank ∧ ∀ p ∈ x.pages, p.state = .backed)

/-- An active context whose crews and instances can all be saved (R364), its parts each under one name. -/
def quiet (s : State) (c : Ctx) : Prop :=
  (s.crews.map Crew.id).Nodup ∧ (c.queues.map Queue.num).Nodup ∧ (s.allGangs.map Gang.ref).Nodup ∧
    (s.rings.map fun r => (r.asid, r.land)).Nodup ∧
    (∀ x ∈ s.crews, s.asidOf x.id = c.asid → (x.state = .starting ∨ x.state = .running) → s.pagesCovered x = true) ∧
    ∀ x ∈ s.allInsts, x.state = .running → ∀ k, s.task x.task = some k → k.asid = c.asid →
      k.state ≠ .failing ∧ s.canSave x = true

/-- The actions of QUIESCE (R36, R65, R80, R333, R335, R359). -/
def quiesces (s t : State) (c d : Ctx) : Prop :=
  t.ctx c.asid = some d ∧ d = { c with state := d.state, destroying := d.destroying, queues := d.queues } ∧
    (∀ n, n ≠ c.asid → t.ctx n = s.ctx n) ∧
    (∀ q ∈ c.queues, t.queue c.asid q.num = some (if q.state = .off then q else
      { q with state := .halted, cmds := q.cmds.map fun x => { x with suspended := x.started && x.op == 2 } })) ∧
    (∀ r ∈ t.rings, r.asid = c.asid → r.q.state = .off ∨ r.q.state = .halted) ∧
    t.kernels = s.kernels.map (fun k =>
      if k.asid == c.asid && k.state != .done then { k with state := .suspended } else k) ∧
    t.tasks = s.tasks.map (fun k => if k.asid == c.asid && (k.state == .flushing || k.state == .running) then
      { k with before := k.state, state := .suspended } else k) ∧
    (∀ x ∈ s.crews, s.asidOf x.id = c.asid → (x.state = .starting ∨ x.state = .running) →
      ∃ y, t.crew x.id = some y ∧ y.state = .stopping ∧ y.stopAt = s.cycle ∧ y.drainAt = s.cycle + s.cp.drain ∧
        y.begun = (x.begun || x.state == .starting) ∧ ∀ p ∈ y.pages, p.owner = none ∧ p.outside = []) ∧
    (∀ x ∈ s.crews, (s.asidOf x.id ≠ c.asid ∨ (x.state ≠ .starting ∧ x.state ≠ .running)) → t.crew x.id = some x) ∧
    (∀ x ∈ s.crews, s.asidOf x.id = c.asid → x.id ∉ (t.core x.core).queue) ∧
    (∀ x ∈ t.allInsts, x.state = .running → ∀ k, s.task x.task = some k → k.asid ≠ c.asid) ∧
    (∀ x ∈ s.allInsts, x.state = .running → (∀ k, s.task x.task = some k → k.asid ≠ c.asid) → x ∈ t.allInsts)

/-- What goes on at RESUME (R37, R77, R80, R335). -/
def resumes (s t : State) (asid : Nat) : Prop :=
  (∀ k ∈ s.kernels, ∃ x, t.kernel k.serial = some x ∧ x = { k with state := x.state } ∧
    x.state = (if k.asid = asid ∧ k.state = .suspended then (if k.unadmitted = 0 then .running else .placing)
      else k.state)) ∧
    t.tasks = s.tasks.map (fun k => if k.asid == asid && k.state == .suspended then { k with state := k.before } else k) ∧
    t.crews = s.crews ∧
    ∀ x ∈ s.crews, s.asidOf x.id = asid → (x.state = .waiting ∨ x.state = .saved) →
      s.coreCount (coreCluster x.core) ≠ 0 → x.id ∈ (t.core x.core).queue

/-- Each kernel, crew, aggregate, task of a context under one name, and commands that started kernels and tasks its own. -/
def owned (s : State) (asid : Nat) : Prop :=
  (s.kernels.map Kernel.serial).Nodup ∧ (s.crews.map Crew.id).Nodup ∧ (s.aggregates.map Aggregate.id).Nodup ∧
    (s.tasks.map Task.serial).Nodup ∧ (∀ x ∈ s.crews, ∃ k ∈ s.kernels, k.serial = x.kernel) ∧
    (∀ k ∈ s.kernels, ∀ a q i, k.owner = some (.command a q i) → (k.asid = asid ↔ a = asid)) ∧
    (∀ k ∈ s.tasks, ∀ a q i, k.owner = .command a q i → (k.asid = asid ↔ a = asid))

/-- Nothing is left of a context, and its descriptor says FREE (R31, R36). -/
def freed (s t : State) (c : Ctx) : Prop :=
  t.ctxs = dropBy (fun x => x.asid == c.asid) s.ctxs ∧ t.kernels = s.kernels.filter (fun k => k.asid != c.asid) ∧
    t.crews = s.crews.filter (fun x => s.asidOf x.id != c.asid) ∧
    t.aggregates = s.aggregates.filter (fun a => a.asid != c.asid) ∧
    t.tasks = s.tasks.filter (fun k => k.asid != c.asid) ∧ t.rings = s.rings.filter (fun r => r.asid != c.asid) ∧
    (∀ g ∈ t.allGangs, ∀ x ∈ s.crews, x.id = g.ref.crew → s.asidOf x.id ≠ c.asid) ∧
    (∀ x ∈ t.allInsts, ∀ k ∈ s.tasks, k.serial = x.task → k.asid ≠ c.asid) ∧
    (stores s (c.desc + 0x60) 4 → t.homeBytes (c.desc + 0x60) 4 = leBytes 4 0)

end Sys2Proof.Safety

/-- From host S or M with the port not busy; a refused command changes only the port, and one whose descriptor cannot be
read the error log too. CREATE of a legal free descriptor
lists a CREATED context with its fields. ENABLE of a CREATED one whose descriptor passes makes it ACTIVE with its fields
and its queues IDLE, or in ERROR for a bad entry. QUIESCE of an ACTIVE one makes it QUIESCING and the port busy, with
queues HALTED and COPYs suspended, kernels and tasks SUSPENDED, its crews STOPPING and out of the core queues, its
running instances saved. RESUME of a QUIESCED one takes the new fields, reopens its queues and goes on with kernels,
tasks and crews. DESTROY of a CREATED or QUIESCED one leaves nothing of it; of an ACTIVE one begins with the QUIESCE
actions. QUIESCE_DONE, once every save is done, makes a QUIESCING context QUIESCED with code 0. While busy a write only
sets OVERRUN; from host U it faults. (The model's choices among these: the code of a descriptor that cannot be read, log
50.) (R31, R33, R34, R35, R36, R37, R51, R52, R65, R80, R335, R413). -/
def Obligations.ContextControl : Prop :=
  (∀ e ∈ [Instr.create, .enable, .quiesce, .resume, .destroy, .cpctlBadop], ∀ (desc : Word) (s : State),
    exec (e .u desc) s = .next { s with reply := .fault } ∧
    ∀ lvl, lvl ≠ .u → s.cp.busy = true → exec (e lvl desc) s = .next { s with cp := { s.cp with overrun := true } }) ∧
  (∀ (lvl : HostLevel) (desc : Word) (s : State), ready s lvl desc →
    (∀ e ∈ [(Instr.enable, 2), (.quiesce, 3), (.resume, 4), (.destroy, 5)], s.ctxAt desc.toNat = none →
      refused (e.1 lvl desc) s desc e.2 1) ∧
    (s.ctxAt desc.toNat ≠ none → refused (.create lvl desc) s desc 1 1) ∧
    (s.ctxAt desc.toNat = none → s.cpPhys desc.toNat 128 = none → unread (.create lvl desc) s desc 1) ∧
    ∀ b, s.ctxAt desc.toNat = none → s.cpPhys desc.toNat 128 = some b →
      (¬goodDesc b → refused (.create lvl desc) s desc 1 2) ∧
      (goodDesc b → s.ctx (at_ b 0 2) ≠ none → refused (.create lvl desc) s desc 1 6) ∧
      (goodDesc b → s.ctx (at_ b 0 2) = none →
        ∃ t c, exec (.create lvl desc) s = .next t ∧ t.ctxs = s.ctxs ++ [c] ∧ describes c b ∧ c.desc = desc.toNat ∧
          c.state = .created ∧ c.destroying = false ∧ c.queues = [] ∧ (stores s (desc.toNat + 0x60) 4 →
            t.homeBytes (desc.toNat + 0x60) 4 = leBytes 4 1) ∧
          t = { homed s t with
                  ctxs := t.ctxs, creates := s.creates + 1,
                  cp := { s.cp with desc := desc, op := 1, asid := c.asid, busy := false, code := 0 } })) ∧
  (∀ (lvl : HostLevel) (desc : Word) (s : State) (c : Ctx), ready s lvl desc → names s desc c →
    let port (op : BitVec 4) (code : Nat) : CpPort :=
      { s.cp with desc := desc, op := op, asid := c.asid, busy := false, code := code }
    (c.state ≠ .created → refused (.enable lvl desc) s desc 2 1) ∧
    (c.state ≠ .active → refused (.quiesce lvl desc) s desc 3 1) ∧
    (c.state ≠ .quiesced → refused (.resume lvl desc) s desc 4 1) ∧
    (c.state = .quiescing → refused (.destroy lvl desc) s desc 5 1) ∧
    (∀ e ∈ [(Instr.enable, (2 : BitVec 4), CtxState.created), (.resume, 4, .quiesced)], c.state = e.2.2 →
      (s.cpPhys c.desc 128 = none → unread (e.1 lvl desc) s desc e.2.1) ∧
      ∀ b code, s.cpPhys c.desc 128 = some b → refusal s c b (e.2.1 == 4) = some code →
        refused (e.1 lvl desc) s desc e.2.1 code) ∧
    (∀ b, c.state = .created → s.cpPhys c.desc 128 = some b → refusal s c b false = none →
      ∃ t d, exec (.enable lvl desc) s = .next t ∧ t.ctx c.asid = some d ∧ describes d b ∧ d.desc = c.desc ∧
        d.key = c.key ∧ d.state = .active ∧ d.destroying = false ∧ (∀ n, n ≠ c.asid → t.ctx n = s.ctx n) ∧
        t = { homed s t with ctxs := t.ctxs, rings := t.rings, cp := port 2 0 } ∧
        ((s.rings.any fun r => r.asid == c.asid) = false → t.rings = s.rings ∧
          (asunder (c.desc + 0x60) 4 d.queueTable (64 * d.queueCount) → stores s (c.desc + 0x60) 4 →
            t.homeBytes (c.desc + 0x60) 4 = leBytes 4 2) ∧
          ∀ n < d.queueCount, homesWf s = true → asunder (c.desc + 0x60) 4 d.queueTable (64 * d.queueCount) →
            ∃ q, t.queue c.asid n = some q ∧ q.num = n ∧ q.cmds = [] ∧ q.ridx = 0 ∧ q.failed = false ∧
              opens s q (d.queueTable + 64 * n) d)) ∧
    (c.state = .active → quiet s c →
      (∃ t d, exec (.quiesce lvl desc) s = .next t ∧ quiesces s t c d ∧ d.state = .quiescing ∧ d.destroying = c.destroying ∧
        t.cp = { port 3 s.cp.code with busy := true }) ∧
      ∃ t d, exec (.destroy lvl desc) s = .next t ∧ quiesces s t c d ∧ d.state = .active ∧ d.destroying = true ∧
        t.cp = { port 5 s.cp.code with busy := true }) ∧
    (∀ b, c.state = .quiesced → s.cpPhys c.desc 128 = some b → refusal s c b true = none →
      ∃ t d, exec (.resume lvl desc) s = .next t ∧ t.ctx c.asid = some d ∧ d.state = .active ∧ t.cp = port 4 0 ∧
        (∀ n, n ≠ c.asid → t.ctx n = s.ctx n) ∧
        (d.ptRoot, d.queueTable, d.queueCount, d.prioCeil, d.trapVec, d.faultRec) =
          (at_ b 8 8, at_ b 0x10 8, at_ b 0x18 1, at_ b 2 1, BitVec.ofNat 64 (at_ b 0x30 8), at_ b 0x38 8) ∧
        d.featEn = (List.range 4).map (fun i => BitVec.ofNat 64 (at_ b (0x40 + 8 * i) 8)) ∧
        (d.asid, d.desc, d.dieMask, d.saveBase, d.saveSize, d.key) =
          (c.asid, c.desc, c.dieMask, c.saveBase, c.saveSize, c.key) ∧
        (∀ n, d.queueCount ≤ n → t.queue c.asid n = none) ∧
        ((∀ q ∈ c.queues, q.num < d.queueCount) → (s.crews.map Crew.id).Nodup → (s.kernels.map Kernel.serial).Nodup →
          resumes s t c.asid ∧
          ((s.rings.any fun r => r.asid == c.asid) = false → (∀ q ∈ c.queues, ∀ x ∈ q.cmds, x.op ≠ 4) →
            (c.queues.map Queue.num).Nodup → homesWf s = true →
            ∀ o ∈ c.queues, ∃ q, t.queue c.asid o.num = some q ∧ opens s q (d.queueTable + 64 * o.num) d ∧
              q.cmds = o.cmds.map (fun x => { x with suspended := false }) ∧ q.ridx = o.ridx ∧ q.failed = o.failed))) ∧
    ((c.state = .created ∨ c.state = .quiesced ∨ c.state = .faulted) →
      (savesDone s c.asid → owned s c.asid → ∃ t, exec (.destroy lvl desc) s = .next t ∧ t.cp = port 5 0 ∧ freed s t c) ∧
      (¬savesDone s c.asid → exec (.destroy lvl desc) s = .next { s with
          ctxs := updBy (fun x => x.asid == c.asid) (fun x => { x with destroying := true }) s.ctxs,
          cp := { port 5 s.cp.code with busy := true } }))) ∧
  (∀ (s : State) (c : Ctx), s.ctx c.asid = some c →
    (¬savesDone s c.asid → exec (.quiesceDone c.asid) s = .next s) ∧
    (savesDone s c.asid → c.destroying = true → owned s c.asid →
      ∃ t, exec (.quiesceDone c.asid) s = .next t ∧ t.cp = { s.cp with busy := false, code := 0 } ∧ freed s t c) ∧
    (savesDone s c.asid → c.destroying = false → c.state ≠ .quiescing → exec (.quiesceDone c.asid) s = .next s) ∧
    (savesDone s c.asid → c.destroying = false → c.state = .quiescing →
      ∃ t, exec (.quiesceDone c.asid) s = .next t ∧
        t = { homed s t with ctxs := updBy (fun x => x.asid == c.asid) (fun x => { x with state := .quiesced }) s.ctxs,
                             cp := { s.cp with busy := false, code := 0 } } ∧
        (stores s (c.desc + 0x60) 4 → t.homeBytes (c.desc + 0x60) 4 = leBytes 4 4))) ∧
  ∀ (lvl : HostLevel) (value : Word) (s : State) (op : Nat), lvl ≠ .u → s.cp.busy = false →
    op = value.toNat % 16 → (op = 0 ∨ 5 < op) →
    ∃ t, exec (.cpctlBadop lvl value) s = .next t ∧ t.cp.code = 7 ∧ t.cp.busy = false ∧ t.cp.op = BitVec.ofNat 4 op ∧
      t.cp.desc = value &&& ~~~(127#64) ∧ t = { s with cp := t.cp }

namespace Sys2Proof.Safety

/-- A context has become FAULTED (R36, R38, R39): every crew of it that had not ended fails with the cause, nothing of it
is ACTIVE, and its descriptor and its fault record say so. What its record holds is stated where no completion record,
failure list or done block is written over it. -/
def faults (s t : State) (c : Ctx) (kind cause address agents die : Nat) : Prop :=
  (∃ d, t.ctx c.asid = some d ∧ d = { c with state := .faulted, queues := d.queues }) ∧
    (∀ n, n ≠ c.asid → (∀ k ∈ s.kernels, ∀ q i, k.owner ≠ some (.command n q i)) → t.ctx n = s.ctx n) ∧
    (∀ x ∈ s.liveCrews c.asid, ∀ y, t.crew x.id = some y → y.state = .failing ∧ y.cause = cause ∧ y.failAt = s.cycle) ∧
    (∀ x ∈ s.crews, x ∉ s.liveCrews c.asid → t.crew x.id = some x) ∧
    ((∀ k ∈ s.kernels, k.owner = none ∧ ∀ h ∈ k.children, h.completion = 0 ∧ h.failList = 0) →
      stores s (c.desc + 0x60) 8 → stores s c.faultRec 64 → asunder (c.desc + 0x60) 8 c.faultRec 64 →
      t.homeBytes (c.desc + 0x60) 8 = leBytes 4 5 ++ leBytes 4 cause ∧
      ∃ first rec, t.homeBytes c.faultRec 64 = leBytes 1 kind ++ leBytes 1 cause ++ leBytes 2 c.asid ++
          leBytes 4 (s.liveCrews c.asid).length ++ leBytes 8 address ++ leBytes 4 first ++ leBytes 4 0 ++ leBytes 8 rec ++
          leBytes 4 agents ++ leBytes 1 die ++ leBytes 3 0 ++ leBytes 8 s.heartbeat.toNat ++ leBytes 16 0 ∧
        (match s.liveCrews c.asid with
         | [] => first = 0xFFFFFFFF ∧ rec = 0
         | x :: _ => ∀ k, s.kernel x.kernel = some k → first = x.global k ∧ rec = k.recAddr))

/-- ktlbi at K for its own asid, with UST 0, adds one invalidation of the page or of all pages, with no
acknowledgement yet, and waits for it; waiting for one that has its 17 acknowledgements, it removes it and goes on to
pc + 4; one that failed raises UE with the mask of the agents that had not acknowledged when its time ran out; at U it
raises PRIV (R48, R49, R168). -/
def ktlbiBroadcastsAndCompletes : Prop :=
  (∀ (a b : Reg) (s : State), s.g.level = .k → sound s a → sound s b → agrees s → s.g.wait = none → s.g.ust = 0 →
    (s.getK a).toNat < 2 ^ 13 → (s.getK a).toNat % 2 ^ 12 = s.myAsid → s.myAsid ≠ 0 →
    ((s.getK a).getLsbD 12 = false → (s.getK b).toNat < 2 ^ 57) →
    ∃ t, exec (.ktlbi a b) s = .next t ∧ t.g = { s.g with wait := some (.tlbi s.nextId) } ∧
      t.tlbis = s.tlbis ++ [{ id := s.nextId, asid := s.myAsid, all := (s.getK a).getLsbD 12,
                              va := (s.getK b).toNat % 2 ^ 57, acked := [], start := s.cycle, port := false,
                              gang := some s.g.ref, failed := none }] ∧
      t = { s with g := t.g, tlbis := t.tlbis, nextId := s.nextId + 1 }) ∧
  (∀ (a b : Reg) (s : State) (x : Tlbi), s.g.wait = some (.tlbi x.id) →
    findBy (fun (y : Tlbi) => y.id == x.id) s.tlbis = some x → x.failed = none → x.acked.length = 17 →
    ∃ t, exec (.ktlbi a b) s = .next t ∧ t.tlbis = dropBy (fun (y : Tlbi) => y.id == x.id) s.tlbis ∧
      wroteK { s with tlbis := t.tlbis } t 0 0 ∧ t.g.pc = s.g.pc + 4) ∧
  (∀ (a b : Reg) (s : State) (x : Tlbi) (m : BitVec 17), s.g.wait = some (.tlbi x.id) → agrees s →
    findBy (fun (y : Tlbi) => y.id == x.id) s.tlbis = some x → x.failed = some m →
    exec (.ktlbi a b) s = .next (({ s with tlbis := dropBy (fun (y : Tlbi) => y.id == x.id) s.tlbis } : State).takeTrap
      false .ue (m.setWidth 64))) ∧
  (∀ (a b : Reg) (s : State), s.g.level = .u → s.g.wait = none →
    exec (.ktlbi a b) s = .next (trapped s false .priv 0))

/-- A CPTLBI command accepted for a context lists an invalidation with its mode and address and makes the port busy;
one for no context completes with code 1; while busy it sets OVERRUN. TLBI_ACK of an agent that has not acknowledged
it, has acknowledged every earlier one, and has no copy in flight under a matching translation, removes the agent's
translations and instruction words that match and records it; the seventeenth of a CPTLBI completes it with code 0; of
another agent it does nothing. TLBI_TIMEOUT after 1,000,000 cycles completes a CPTLBI with code 2 and the missing
agents, or marks a ktlbi failed with them; an ACTIVE context becomes FAULTED with a record of kind 3, and the waiting
gang records UE with the mask (R38, R39, R48, R49, R50, R230). -/
def translationInvalidation : Prop :=
  (∀ e ∈ [(Instr.cptlbiPage, false), (Instr.cptlbiAll, true)], ∀ (lvl : HostLevel) (asid : BitVec 12) (s : State),
    exec (e.1 .u asid) s = .next { s with reply := .fault } ∧ (lvl ≠ .u →
    (s.cp.tlbiBusy = true → exec (e.1 lvl asid) s = .next { s with cp := { s.cp with tlbiOverrun := true } }) ∧
    (s.cp.tlbiBusy = false →
      let u : State := { s with cp := { s.cp with tlbiAsid := asid, tlbiMode := e.2 } }
      (((asid = 0 ∧ lvl = .s) ∨ (asid ≠ 0 ∧ s.ctx asid.toNat = none)) →
        exec (e.1 lvl asid) s = .next { u with cp := { u.cp with tlbiCode := 1 } }) ∧
      (((asid = 0 ∧ lvl = .m) ∨ (asid ≠ 0 ∧ s.ctx asid.toNat ≠ none)) →
        exec (e.1 lvl asid) s = .next { u with
          nextId := s.nextId + 1, cp := { u.cp with tlbiBusy := true },
          tlbis := s.tlbis ++ [{ id := s.nextId, asid := asid.toNat, all := e.2, va := s.cp.tlbiVa.toNat, acked := [],
                                 start := s.cycle, port := true, gang := none, failed := none }] })))) ∧
  (∀ (s : State) (id agent : Nat) (x : Tlbi), findBy (fun (t : Tlbi) => t.id == id) s.tlbis = some x →
    let may : Prop := agent < 17 ∧ agent ∉ x.acked ∧ (∀ y ∈ s.tlbis, y.id < x.id → agent ∈ y.acked) ∧
      ∀ c ∈ s.copies, c.squashed = false → s.asidOf c.gang.crew = x.asid →
        (∀ y, s.crew c.gang.crew = some y → y.die = agent → ∀ p ∈ c.used, x.all = false ∧ ¬(p.1 ≤ x.va ∧ x.va < p.1 + p.2))
    (¬may → exec (.tlbiAck id agent) s = .next s) ∧
    (may → ∃ t, exec (.tlbiAck id agent) s = .next t ∧
      (∀ e, e ∈ t.tlb ↔ e ∈ s.tlb ∧ ¬(e.agent = agent ∧ e.asid = x.asid ∧
        (x.all = true ∨ (e.va ≤ x.va ∧ x.va < e.va + e.size)))) ∧
      t.cores.map (fun c => { c with code := [] }) = s.cores.map (fun c => { c with code := [] }) ∧
      (∀ c ∈ t.cores, ∀ w ∈ c.code, c.id / 256 = agent → w.asid = x.asid → x.all = false ∧
        ¬(w.va ≤ x.va ∧ x.va < w.va + w.len)) ∧
      (∀ c ∈ t.cores, ∃ c0 ∈ s.cores, c0.id = c.id ∧ (∀ w ∈ c.code, w ∈ c0.code) ∧
        ∀ w ∈ c0.code, (c.id / 256 ≠ agent ∨ w.asid ≠ x.asid) → w ∈ c.code) ∧
      (if x.port = true ∧ x.acked.length = 16 then
        t = { s with tlb := t.tlb, cores := t.cores, tlbis := dropBy (fun (y : Tlbi) => y.id == id) s.tlbis,
                     cp := { s.cp with tlbiBusy := false, tlbiCode := 0 } }
      else
        t = { s with tlb := t.tlb, cores := t.cores,
                     tlbis := updBy (fun (y : Tlbi) => y.id == id) (fun _ => { x with acked := x.acked ++ [agent] }) s.tlbis }))) ∧
  ∀ (s : State) (id : Nat) (x : Tlbi) (m : BitVec 17), findBy (fun (t : Tlbi) => t.id == id) s.tlbis = some x →
    (∀ a < 17, m.getLsbD a = true ↔ a ∉ x.acked) →
    ((x.failed ≠ none ∨ x.acked.length = 17 ∨ s.cycle < x.start + 1000000) → exec (.tlbiTimeout id) s = .next s) ∧
    (x.failed = none → x.acked.length ≠ 17 → x.start + 1000000 ≤ s.cycle →
      let u : State :=
        if x.port then
          { s with tlbis := dropBy (fun (y : Tlbi) => y.id == id) s.tlbis,
                   cp := { s.cp with tlbiBusy := false, tlbiCode := 2, tlbiMissing := m } }
        else
          { s with tlbis := updBy (fun (y : Tlbi) => y.id == id) (fun y => { y with failed := some m }) s.tlbis }
      (s.ctxActive x.asid = false → exec (.tlbiTimeout id) s = .next u) ∧
      ∀ c, s.ctx x.asid = some c → c.state = .active → c.destroying = false → (s.crews.map Crew.id).Nodup →
        (s.allGangs.map Gang.ref).Nodup →
        ∃ t, exec (.tlbiTimeout id) s = .next t ∧ t.tlbis = u.tlbis ∧ t.cp = u.cp ∧ faults s t c 3 16 0 m.toNat 20 ∧
          ∀ r g g', x.gang = some r → s.gang r = some g → g.wait = some (.tlbi x.id) → t.gang r = some g' →
            g'.trapInfo = m.setWidth 64 ∧ g'.trapPc = g.pc ∧ g'.trapCause.toNat % 256 = 16)

end Sys2Proof.Safety

/-- ktlbi at K for its own asid, with UST 0, adds one invalidation of the page or of all pages, with no acknowledgement
yet, and waits for it; waiting for one that has its 17 acknowledgements, it removes it and goes on to pc + 4; one that
failed raises UE with the mask of the agents that had not acknowledged when its time ran out; at U it raises PRIV. A
CPTLBI command accepted for a context lists an invalidation with its mode and address and makes the port busy; one for
no context completes with code 1; while busy it sets OVERRUN. TLBI_ACK of an agent that has not acknowledged it, has
acknowledged every earlier one, and has no copy in flight under a matching translation, removes the agent's translations
and instruction words that match and records it; the seventeenth of a CPTLBI completes it with code 0; of another agent
it does nothing. TLBI_TIMEOUT after 1,000,000 cycles completes a CPTLBI with code 2 and the missing agents, or marks a
ktlbi failed with them; an ACTIVE context becomes FAULTED with a record of kind 3, and the waiting gang records UE with
the mask. (The model's choices among these: which copies an acknowledgement waits for, and that a timeout faults ACTIVE
contexts alone, log 49.) (R48, R49, R168, R38, R39, R50, R230). -/
def Obligations.TranslationsInvalidated : Prop :=
  ktlbiBroadcastsAndCompletes ∧ translationInvalidation

namespace Sys2Proof.Safety

/-- The state of a queue that fetches, by its commands (R60, R65): the first not started can start, or is held back by those
before it. -/
def nextState (cmds : List Cmd) : QueueState :=
  match findBy (fun (c : Cmd) => !c.started) cmds with
  | none => if cmds.isEmpty then .idle else .active
  | some c =>
    let before := cmds.filter fun x => x.index < c.index
    let flags := at_ c.bytes 1 1
    if (before.all fun x => x.started) && decide (before.length < 16)
        && (before.isEmpty || !(flags.testBit 0 || flags.testBit 1 || at_ c.bytes 0 1 == 5)) then .active
    else .blocked

/-- The state that a change of its commands leaves a queue in: one that is OFF, HALTED or in ERROR stays so (R65). -/
def restState (st : QueueState) (cmds : List Cmd) : QueueState :=
  if st = .off ∨ st = .halted ∨ st = .error then st else nextState cmds

/-- t is s but for one queue of one context, and memory. -/
def queueOnly (s t : State) (asid n : Nat) : Prop :=
  t = { homed s t with ctxs := t.ctxs, tlb := t.tlb } ∧ (∀ m, m ≠ asid → t.ctx m = s.ctx m) ∧
    ∀ c, s.ctx asid = some c → ∃ d, t.ctx asid = some d ∧ d = { c with queues := d.queues } ∧
      ∀ m, m ≠ n → d.queue m = c.queue m

/-- The write index of a queue has been read, and its commands fetched (R53 to R55, R65); q is the queue before. -/
def fetched (s t : State) (c : Ctx) (q : Queue) : Prop :=
  queueOnly s t c.asid q.num ∧ ∃ x, t.queue c.asid q.num = some x ∧
    x = { q with state := x.state, rung := x.rung, cmds := x.cmds, ridx := x.ridx, error := x.error,
                 errorIdx := x.errorIdx } ∧
    (¬(q.state = .idle ∨ q.state = .active ∨ q.state = .blocked) → x = q) ∧
    ((q.state = .idle ∨ q.state = .active ∨ q.state = .blocked) →
      let entry := c.queueTable + 64 * q.num
      (s.cpPhys q.widxAddr 8 = none → x = { q with state := .error, error := 4, errorIdx := q.ridx }) ∧
      ∀ b, s.cpPhys q.widxAddr 8 = some b →
        (leNat b < q.ridx ∨ q.ridx + 2 ^ q.ringLog2 < leNat b →
          x = { q with state := .error, error := 3, errorIdx := q.ridx }) ∧
        (q.ridx ≤ leNat b → leNat b ≤ q.ridx + 2 ^ q.ringLog2 → homesWf s = true → entry % 64 = 0 → q.ringBase % 64 = 0 →
          (∀ i, asunder (q.ringBase + 64 * (i % 2 ^ q.ringLog2)) 64 entry 64) →
          let at' (k : Nat) : Nat := q.ringBase + 64 * ((q.ridx + k) % 2 ^ q.ringLog2)
          let taken (n : Nat) : List Cmd := q.cmds ++ (List.range n).map fun k =>
            { index := q.ridx + k, bytes := s.homeBytes (at' k) 64, started := false, suspended := false, copied := 0,
              hurt := false }
          ((∀ k < leNat b - q.ridx, s.cpPhys (at' k) 64 ≠ none) →
            x = { q with ridx := leNat b, cmds := taken (leNat b - q.ridx), state := nextState (taken (leNat b - q.ridx)),
                         rung := q.rung && leNat b == q.ridx } ∧
            (q.ridx < leNat b → stores s (entry + 0x18) 8 → t.homeBytes (entry + 0x18) 8 = leBytes 8 (leNat b))) ∧
          ∀ m < leNat b - q.ridx, s.cpPhys (at' m) 64 = none → (∀ k < m, s.cpPhys (at' k) 64 ≠ none) →
            x = { q with ridx := q.ridx + m, cmds := taken m, state := .error, error := 4, errorIdx := q.ridx + m,
                         rung := q.rung && m == 0 }))

/-- A command of a queue has started (R60). -/
def started (s u : State) (asid n : Nat) (c : Cmd) : Prop :=
  queueOnly s u asid n ∧ ∀ q, s.queue asid n = some q →
    let l := updBy (fun (x : Cmd) => x.index == c.index) (fun x => { x with started := true }) q.cmds
    u.queue asid n = some { q with cmds := l, state := restState q.state l }

/-- A command has completed with a status (R59, R61, R65): it is off its queue, which notes the failure, and its done block
is written, +0x08 to +0x0F first; where it cannot be written the queue is in ERROR. -/
def completed (s t : State) (asid n : Nat) (c : Cmd) (status cause : Nat) : Prop :=
  queueOnly s t asid n ∧ ∀ q, s.queue asid n = some q → ∃ x, t.queue asid n = some x ∧
    x.cmds = dropBy (fun (y : Cmd) => y.index == c.index) q.cmds ∧
    x.failed = (if at_ c.bytes 0 1 = 5 then false else q.failed || status != 0) ∧
    let addr := at_ c.bytes 8 8
    let body := leBytes 1 status ++ leBytes 1 (if status = 1 then cause else 0) ++ leBytes 2 0 ++ leBytes 4 (at_ c.bytes 4 4)
    let entry := s.queueEntry asid n
    let written := (s.cpWrite asid (addr + 8) body).bind fun u => u.cpWrite asid addr (leBytes 8 (at_ c.bytes 16 8))
    ((addr = 0 ∨ addr % 16 ≠ 0) →
      x = { q with cmds := x.cmds, failed := x.failed, state := restState q.state x.cmds } ∧
      ∀ a, a < entry + 0x20 ∨ entry + 0x24 ≤ a → t.homeByte a = s.homeByte a) ∧
    (addr ≠ 0 → addr % 16 = 0 →
      (∀ v, written = some v → x = { q with cmds := x.cmds, failed := x.failed, state := restState q.state x.cmds } ∧
        ∀ a, a < entry + 0x20 ∨ entry + 0x24 ≤ a → t.homeByte a = v.homeByte a) ∧
      (written = none → x = { q with cmds := x.cmds, failed := x.failed, state := .error, error := 4,
                                     errorIdx := c.index }))

/-- What a started command other than a COPY does: a LAUNCH and a STACKTASK submit their record (R67, R80, R332), a WAIT tests
its word (R62), a SIGNAL writes its own (R63). A COPY moves nothing yet. -/
def commandRuns (u t : State) (asid n : Nat) (q : Queue) (c : Cmd) : Prop :=
  let va := at_ c.bytes 0x18 8
  let unread (e : Cause) : Nat := if e = .ue then 7 else 3
  match at_ c.bytes 0 1 with
  | 1 =>
    (∀ e v, u.cpRead asid va 128 = (.error e, v) → completed v t asid n c (unread e.1) 0) ∧
    ∀ raw v, u.cpRead asid va 128 = (.ok raw, v) → v.ctxActive asid = true →
      let r := launchRec raw
      let w : State := { v with kernelSerial := u.kernelSerial + 1 }
      (State.checkChild (State.failureList w asid r.completion).2 asid raw r.param r.completion).1 = none →
      kernelJoins w t (u.kernelSerial + 1) asid q.prio r (some (.command asid n c.index)) [(r.param, r.completion)]
  | 2 => t = u
  | 3 =>
    (u.feature asid 9 = false → completed u t asid n c 4 0) ∧ (u.feature asid 9 = true →
      (∀ e v, u.cpRead asid va 64 = (.error e, v) → completed v t asid n c (unread e.1) 0) ∧
      ∀ raw v ins outs, u.cpRead asid va 64 = (.ok raw, v) →
        (State.checkTask { v with taskSerial := u.taskSerial + 1 } asid raw).1 = .ok (ins, outs) →
        let r := taskRec raw
        t = { v with taskSerial := u.taskSerial + 1, tlb := t.tlb, errlog := t.errlog, tasks := v.tasks ++ [
          { serial := u.taskSerial + 1, asid := asid, desc := r, ins := ins, outs := outs, prio := q.prio,
            owner := .command asid n c.index, state := .flushing, before := .flushing,
            count := ((List.range 16).filter fun i => r.coreMask.getLsbD i).length *
              ((List.range 8).filter fun i => r.stackMask.getLsbD i).length,
            ended := 0, failedCount := 0, first := none, cause := 0, failAt := 0, inLines := [], kept := [] }] })
  | 4 =>
    (∀ e v, u.cpRead asid va 8 = (.error e, v) → completed v t asid n c 1 e.1.code) ∧
    ∀ b v, u.cpRead asid va 8 = (.ok b, v) →
      if (if at_ c.bytes 0x28 1 = 0 then at_ c.bytes 0x20 8 ≤ leNat b else leNat b = at_ c.bytes 0x20 8) then
        completed v t asid n c 0 0
      else
        queueOnly v t asid n ∧ ∀ x, v.queue asid n = some x →
          t.queue asid n = some { x with state := restState x.state x.cmds }
  | _ =>
    (∀ e v, u.cpResolve asid va 8 .write = (.error e, v) → completed v t asid n c 1 e.1.code) ∧
    ∀ pas v, u.cpResolve asid va 8 .write = (.ok pas, v) →
      let adds := at_ c.bytes 0x28 1 ≠ 0
      (adds → (∃ a ∈ pas, v.homePoison a = true) → ∃ w, w = { v with errlog := w.errlog } ∧ completed w t asid n c 1 16) ∧
      (¬(adds ∧ ∃ a ∈ pas, v.homePoison a = true) → (∀ a ∈ pas, stores v a 1) → pas.Nodup →
        ∃ w, w = homed v w ∧ (∀ a, a ∉ pas → w.homeByte a = v.homeByte a) ∧
          pas.map w.homeByte = leBytes 8 ((if adds then leNat (pas.map v.homeByte) + at_ c.bytes 0x20 8
            else at_ c.bytes 0x20 8) % 2 ^ 64) ∧ completed w t asid n c 0 0)

end Sys2Proof.Safety

/-- DOORBELL of a queue of an ACTIVE context notes the doorbell and reads the write index; WIDX_POLL reads it for a
queue that is IDLE or whose doorbell no read has answered. A read of a fetching queue takes every command up to the
index with its 64 bytes, moves ridx, and puts the queue IDLE, ACTIVE or BLOCKED; an index out of range, or bytes that
cannot be read, put it in ERROR. LAUNCH, COPY, STACKTASK, WAIT and SIGNAL, when the arbiter chooses that queue: a
malformed command completes BADCMD, one after a failure with SKIPFAIL SKIPPED (a SIGNAL runs), any other is marked
started and its kernel or task joins, its condition is tested, its word is written. WAIT_EVAL tests again;
COPY_COMMAND_DONE moves the bytes that are left and completes. A completion takes the command off, keeps the failure,
and writes status, cause and tag, then the value. (The model's choices among these: where the round robin begins, log
76; when a command is judged, log 22; what a queue in ERROR and a FAULTED context leave standing, logs 23 and 77; a
fault at a done block, log 78; the order of a COPY's bytes, log 24.) (R53, R54, R55, R57, R58, R59, R60, R61, R62, R63,
R64, R65). -/
def Obligations.QueuesRun : Prop :=
  (∀ (lvl : HostLevel) (value : Word) (s : State), exec (.doorbell .u value) s = .next { s with reply := .fault } ∧
    (lvl ≠ .u → ∀ (c : Ctx) (q : Queue), s.ctx (field value 16 12) = some c → c.state = .active → c.destroying = false →
      field value 0 6 < c.queueCount → c.queue (field value 0 6) = some q →
      ∃ t, exec (.doorbell lvl value) s = .next t ∧ fetched s t c { q with rung := true }) ∧
    (lvl ≠ .u → (∀ c, s.ctx (field value 16 12) = some c → c.state = .active → c.destroying = true ∨
      c.queueCount ≤ field value 0 6) → exec (.doorbell lvl value) s = .next s)) ∧
  (∀ (s : State) (n : Nat) (c : Ctx) (q : Queue), s.ctx c.asid = some c → c.queue n = some q → s.ctxActive c.asid = true →
    ((q.state = .idle ∨ q.rung = true) → ∃ t, exec (.widxPoll c.asid n) s = .next t ∧ fetched s t c q) ∧
    (q.state ≠ .idle → q.rung = false → exec (.widxPoll c.asid n) s = .next s)) ∧
  (∀ (s : State) (p : Nat × Nat), s.arbitrate = some p → p ∈ s.startables ∧ (∀ x ∈ s.startables, x.1 ≤ p.1) ∧
    let last := ((findBy (fun (r : Nat × Nat) => r.1 == p.1) s.rr).map fun r => r.2 + 1).getD 0
    ∀ x ∈ s.startables, x.1 = p.1 → (last ≤ p.2 → last ≤ x.2 → p.2 ≤ x.2) ∧ (p.2 < last → x.2 < last ∧ p.2 ≤ x.2)) ∧
  (∀ row ∈ ([(.launch, 1), (.copy, 2), (.stacktask, 3), (.wait, 4), (.signal, 5)] : List ((Nat → Nat → Instr) × Nat)),
    ∀ (s : State) (asid n prio : Nat) (q : Queue) (c : Cmd), s.queue asid n = some q →
      s.arbitrate = some (prio, asid * 64 + n) → q.startable = some c →
      (q.cmds.map Cmd.index).Nodup →
      let w : State := { s with rr := (prio, asid * 64 + n) :: s.rr.filter fun r => r.1 != prio }
      (c.legal q.kind = false → ∃ t, exec (row.1 asid n) s = .next t ∧ completed w t asid n c 2 0) ∧
      (c.legal q.kind = true → at_ c.bytes 0 1 = row.2 → (at_ c.bytes 1 1).testBit 1 = true → q.failed = true → row.2 ≠ 5 →
        ∃ t, exec (row.1 asid n) s = .next t ∧ completed w t asid n c 5 0) ∧
      (c.legal q.kind = true → at_ c.bytes 0 1 = row.2 →
        ((at_ c.bytes 1 1).testBit 1 = true → q.failed = true → row.2 = 5) →
        ∃ t u, exec (row.1 asid n) s = .next t ∧ started w u asid n c ∧ commandRuns u t asid n q { c with started := true })) ∧
  (∀ (s : State) (asid n index : Nat) (q : Queue) (c : Cmd), s.queue asid n = some q → s.startedCmd asid n index 4 = some c →
    (q.cmds.map Cmd.index).Nodup →
    ∃ t, exec (.waitEval asid n index) s = .next t ∧ commandRuns s t asid n q c) ∧
  ∀ (s : State) (asid n index : Nat) (q : Queue) (c : Cmd), s.queue asid n = some q → s.startedCmd asid n index 2 = some c →
    (q.cmds.map Cmd.index).Nodup →
    let left := at_ c.bytes 0x28 8 - c.copied
    let moved (b : Bool) : Cmd := { c with copied := at_ c.bytes 0x28 8, hurt := b }
    (∀ (cause : Cause) (k : Nat) (b : Bool) (u : State), c.copied ≤ at_ c.bytes 0x28 8 →
      s.copyBytes asid (left / 2048 + 3) (at_ c.bytes 0x18 8 + c.copied) (at_ c.bytes 0x20 8 + c.copied) left c.copied
        c.hurt = ((some cause, k, b), u) →
      ∃ t w, exec (.copyCommandDone asid n index) s = .next t ∧ w = { u with ctxs := w.ctxs } ∧
        w.queue asid n = some { q with
          cmds := updBy (fun x => x.index == index) (fun x => { x with copied := k, hurt := b }) q.cmds } ∧ completed w t asid n { c with copied := k, hurt := b } 1 (if b then 16 else cause.code)) ∧
    ∀ (pa pb ma mb : Nat) (u v : State), 0 < left → left ≤ 4096 - (at_ c.bytes 0x18 8 + c.copied) % 4096 →
      left ≤ 4096 - (at_ c.bytes 0x20 8 + c.copied) % 4096 →
      s.resolve harbourAgent asid (at_ c.bytes 0x18 8 + c.copied) .read = (.ok (pa, ma), u) →
      u.resolve harbourAgent asid (at_ c.bytes 0x20 8 + c.copied) .write = (.ok (pb, mb), v) → stores s pb left →
      ∃ t w b, exec (.copyCommandDone asid n index) s = .next t ∧
        w.queue asid n = some { q with cmds := updBy (fun x => x.index == index) (fun _ => moved b) q.cmds } ∧
        w.homeBytes pb left = s.homeBytes pa left ∧
        (∀ a, a < pb ∨ pb + left ≤ a → w.homeByte a = s.homeByte a) ∧
        (b = true ↔ c.hurt = true ∨ ∃ i < left, s.homePoison (pa + i) = true ∨ (s.checkFails (pa + i) = true ∧
          ¬(pa % 32 = pb % 32 ∧ pa ≤ (pa + i) / 32 * 32 ∧ (pa + i) / 32 * 32 + 32 ≤ pa + left))) ∧
        (∀ i < left, s.homePoison (pa + i) = true → w.homePoison (pb + i) = true) ∧
        w = { homed s w with ctxs := w.ctxs, tlb := w.tlb } ∧
        completed w t asid n (moved b) (if b then 1 else 0) (if b then 16 else 0)

namespace Sys2Proof.Safety

/-- The KMAC128 tag of a 4 KiB chunk of a saved slot, at its place (R364). -/
def tagged (x : Ctx) (t : State) (chunk place : Nat) : Prop :=
  t.homeVal place 16 = (Config.kmac128 x.key (leBytes 8 chunk ++ t.homeBytes chunk 4096)).toNat

/-- n chunks of a saved slot, and the chunk of their tags, without an uncorrectable error and with matching tags (R38,
R365). -/
def chunksOk (s : State) (x : Ctx) (first n tags : Nat) : Prop :=
  (∀ a ∈ sectors tags 4096, s.homePoison a = false) ∧ ∀ i < n,
    (∀ a ∈ sectors (first + 4096 * i) 4096, s.homePoison a = false) ∧ tagged x s (first + 4096 * i) (tags + 16 * i)

/-- A crew has been admitted (R42, R76 to R78, R86, R234): STARTING, with pages at the lowest free sites, its barriers, and
a gang in each of its slots. -/
def admitted (s t : State) (c : Crew) (k : Kernel) (x : Ctx) (slots : List (Nat × Option Nat)) : Prop :=
  (∃ y, t.crew c.id = some y ∧ y = { c with
      state := .starting, started := s.lastStart + 1, pages := y.pages, barriers := y.barriers } ∧
    y.pages.map (fun p => p.site) = ((List.range 16).filter fun p => s.siteFreeBut c.core [] p).take k.desc.sites ∧
    (∀ (i : Nat) (p : Page), y.pages[i]? = some p → p = {
      site := p.site, comp := decide (i < k.desc.banks), state := .pinned, cells := [], poison := [], dirty := List.range 256, cols := [], owner := none, port := [], outside := [],
      backing := x.pageSlot c.core p.site, moved := 0 }) ∧
    y.barriers = (List.range 16).map fun n => {
        level := 0, dom := 0, num := n, phase := false, memb := BitVec.ofNat 32 (2 ^ k.desc.gangs - 1), arr := 0, tx := 0,
        next := none, excess := false }) ∧
    (∀ i p, slots[i]? = some p → ∃ g, t.gang { crew := c.id, idx := i } = some g ∧ g.core = c.core ∧ g.slot = p.1 ∧
      g.status = .run ∧ g.level = .u ∧ g.pc = k.desc.code ∧ g.k = List.replicate 32 0 ∧ g.q = List.replicate 8 0 ∧
      g.trapVec = x.trapVec &&& ~~~(3#64) ∧ g.allot = k.desc.prologue ∧
      g.regs = List.replicate (8 * k.desc.prologue) (List.replicate 32 0) ∧ (g.win, g.res) = (0, 0) ∧
      g.units.length = k.desc.prologue * (if p.2.isSome then 2 else 1) ∧ g.lane = LaneStream.empty ∧
      g.segs.g = { base := 0, limit := 0x200000000000000 } ∧ g.segs.p = { base := 0, limit := 0x8000000 } ∧
      g.segs.s = { base := 0, limit := BitVec.ofNat 64 (k.desc.scratch * 8192) } ∧
      g.segs.c = { base := k.desc.constBase, limit := BitVec.ofNat 64 k.desc.constLimit } ∧
      g.segs.l = {
        base := k.desc.localBase + BitVec.ofNat 64 (((coreCluster c.core * 128 + s.coreRank c.core) * 32 + p.1) * 32
          * k.desc.localBytes),
        limit := BitVec.ofNat 64 k.desc.localBytes }) ∧
    (∀ r, r.crew ≠ c.id → t.gang r = s.gang r) ∧ (∀ id, id ≠ c.id → t.crew id = s.crew id) ∧
    (t.core c.core).queue = (s.core c.core).queue.drop 1 ∧ (t.core c.core).admitAt = s.cycle + 4 ∧
    t.kernel k.serial = some { k with
      unadmitted := k.unadmitted - 1,
      state := if k.unadmitted ≤ 1 ∧ k.state = .placing then .running else k.state } ∧
    t = { s with crews := t.crews, kernels := t.kernels, gangs := t.gangs, cores := t.cores, shadows := t.shadows,
                 lastStart := s.lastStart + 1 }

/-- A STARTING crew runs for the first time (R78, R86, R250): multicasts buffered for it are in its pages, and its core's L1
is empty. -/
def woken (s t : State) (c : Crew) : Prop :=
  (∃ y, t.crew c.id = some y ∧ y = { c with state := .running, begun := true, pages := y.pages } ∧
    y.pages.length = c.pages.length ∧ ∀ h p, c.page h = some p → ∃ q, y.page h = some q ∧
      q = { p with cells := q.cells, poison := q.poison, dirty := q.dirty }) ∧
    (∀ id, id ≠ c.id → t.crew id = s.crew id) ∧ (t.core c.core).l1 = [] ∧
    (∀ n, n ≠ c.core → t.core n = s.core n) ∧ t = { s with crews := t.crews, multicast := t.multicast, cores := t.cores } ∧
    let mine (b : Buffered) : Bool := b.kernel == c.kernel && b.cluster == coreCluster c.core && b.stage == c.stage
      && b.rank == c.rank
    t.multicast = s.multicast.filter (fun b => !mine b) ∧
    (s.multicast.filter mine = [] → ∀ p, t.placeByte p = s.placeByte p) ∧
    ∀ b k, s.multicast.filter mine = [b] → s.kernel c.kernel = some k → memoriesWf s = true →
      let into (i : Nat) : Place := .bank c.id (scratchHandle k.desc.banks (b.dst + i)) (scratchByte (b.dst + i))
      (∀ i < b.data.length, ∃ p, s.page c.id (scratchHandle k.desc.banks (b.dst + i)) = some p) →
      ∀ p, t.placeByte p = (lastOf (((List.range b.data.length).map into).zip b.data) p).getD (s.placeByte p)

/-- A drained crew is SAVED (R362), and each of its pinned pages that no work names begins to unpin (R235, R360). -/
def unpinned (s : State) (c y : Crew) : Prop :=
  y = { c with state := .saved, swapped := true, pages := y.pages } ∧ y.pages.length = c.pages.length ∧
    ∀ h p, c.page h = some p → y.page h = some { p with state :=
      if p.state = .pinned ∧ p.port = [] ∧ p.outside = [] ∧ (∀ m ∈ s.mxs, (c.id, h) ∉ m.pages) ∧
          (∀ o ∈ s.copies, o.squashed = true ∨ s.copyNames o c.id h = false) then .unpinning
      else p.state }

end Sys2Proof.Safety

/-- AGGREGATE_CLOSE starts the grid of an aggregate after 2,000 ns. CREW_ADMIT of a waiting head of a core's queue that
passes R76 makes it STARTING with its pages, barriers and gangs in free slots. CREW_WAKE_DONE makes it RUNNING with its
buffered multicasts in its pages and the L1 empty. PREEMPT makes the crews of the first smallest set of candidates that
lets the head pass STOPPING. SHADOW_SWAP_DONE makes a drained one SAVED after 96 cycles, queued, its idle pages
unpinning. SAVE_ENGINE_WRITE writes its register slot with the tags; COPY_DRAIN_LIMIT squashes its copies;
PAGE_WRITEBACK_DONE writes the dirty lines and the periphery, and the page is BACKED. CREW_RESTORE makes it STARTING
again, its pages refilling and its copies issued again, or faults its context; PAGE_REFILL_DONE makes a page PINNED with
its backing's bytes. An event whose condition does not hold does nothing. (The model's choices among these: an aggregate
of a context that is not ACTIVE, log 74; what counts as released for PREEMPT, log 47; a save error in an ACTIVE context,
logs 48 and 79; the die of a fault record, log 80; the numbers of the periphery chunks, log 81.) (R76, R77, R78, R82,
R86, R235, R236, R258, R359, R360, R364, R365). -/
def Obligations.CrewsComeAndGo : Prop :=
  (∀ (s : State) (a : Aggregate), findBy (fun (x : Aggregate) => x.id == a.id) s.aggregates = some a →
    (s.cycle < a.opened + 2000 → exec (.aggregateClose a.id) s = .next s) ∧
    (a.opened + 2000 ≤ s.cycle → s.ctxActive a.asid = true → a.children ≠ [] →
      let v : State := { s with aggregates := dropBy (fun (x : Aggregate) => x.id == a.id) s.aggregates }
      (∀ x ∈ (v.checkChildren a.asid a.raw a.children).1, x.2 = none) →
      ∃ t, exec (.aggregateClose a.id) s = .next t ∧
        kernelJoins v t a.serial a.asid a.prio (launchRec a.raw) none a.children)) ∧
  (∀ (s : State) (c : Crew) (k : Kernel) (x : Ctx) (slots : List (Nat × Option Nat)) (rot : Nat),
    s.headOf c.core = some c → s.crew c.id = some c → s.kernel c.kernel = some k → s.ctx k.asid = some x →
    s.dealSlots c.core [] k.desc.mordant k.desc.gangs (s.core c.core).rot [] = some (slots, rot) →
    slots.length = k.desc.gangs ∧ (slots.map Prod.fst).Nodup ∧
    (∀ p ∈ slots, p.1 < 32 ∧ (p.2.isSome = k.desc.mordant) ∧ ∀ g ∈ s.residentGangs c.core, g.slot ≠ p.1 ∧
      ∀ z, g.shadow = some z → z.slot ≠ p.1) ∧
    ((c.state ≠ .waiting ∨ s.passes c [] = false ∨ s.distributorReady c.core = false) →
      exec (.crewAdmit c.core) s = .next s) ∧
    (c.state = .waiting → s.passes c [] = true → s.distributorReady c.core = true →
      (∀ g ∈ s.g :: s.gangs, g.ref.crew ≠ c.id) → ∃ t, exec (.crewAdmit c.core) s = .next t ∧ admitted s t c k x slots)) ∧
  (∀ (s : State) (c : Crew), s.crew c.id = some c →
    (c.state ≠ .starting → exec (.crewWakeDone c.id) s = .next s) ∧
    (c.state = .starting → c.begun = true → exec (.crewWakeDone c.id) s =
      .next { s with crews := updBy (fun (y : Crew) => y.id == c.id) (fun y => { y with state := .running }) s.crews }) ∧
    (c.state = .starting → c.begun = false → ∃ t, exec (.crewWakeDone c.id) s = .next t ∧ woken s t c)) ∧
  (∀ (s : State) (h : Crew), s.headOf h.core = some h → (s.crews.map Crew.id).Nodup → (s.allGangs.map Gang.ref).Nodup →
    let out := (s.crews.filter fun (x : Crew) => x.core == h.core && (x.state == .stopping || x.state == .saved)
      && x.id != h.id).map Crew.id
    let may (x : Crew) : Prop := x ∈ s.crews ∧ x.core = h.core ∧ x.state = .running ∧ x.prio < h.prio ∧
      (∀ g ∈ s.crewGangs x.id, g.status ≠ .halted) ∧ s.pagesCovered x = true
    (∀ id, id ∈ s.candidates h ↔ ∃ x, may x ∧ x.id = id) ∧
    (s.candidates h).Pairwise (fun a b => ∀ x y, may x → may y → x.id = a → y.id = b → x.started < 2 ^ 64 →
      y.started < 2 ^ 64 → x.prio < y.prio ∨ (x.prio = y.prio ∧ y.started ≤ x.started)) ∧
    (s.passes h out = true → exec (.preempt h.core) s = .next s) ∧
    ((∀ l, l.Sublist (s.candidates h) → s.passes h (l ++ out) = false) → exec (.preempt h.core) s = .next s) ∧
    (s.passes h out = false → (∃ l, l.Sublist (s.candidates h) ∧ s.passes h (l ++ out) = true) →
      ∃ l t, exec (.preempt h.core) s = .next t ∧ l.Sublist (s.candidates h) ∧ s.passes h (l ++ out) = true ∧
        (∀ m, m.Sublist (s.candidates h) → m ≠ [] → s.passes h (m ++ out) = true → l.length ≤ m.length) ∧
        (∀ x ∈ s.crews, x.id ∉ l → t.crew x.id = some x) ∧
        ∀ x ∈ s.crews, x.id ∈ l → ∃ y, t.crew x.id = some y ∧ y = { x with
            state := .stopping, stopAt := s.cycle, drainAt := s.cycle + s.cp.drain, pages := y.pages } ∧
          y.pages = x.pages.map fun p => { p with owner := none, port := p.port ++ p.outside, outside := [] })) ∧
  (∀ (s : State) (c : Crew), s.crew c.id = some c →
    ((c.state ≠ .stopping ∨ s.cycle < c.stopAt + 96 ∨ s.lanesQuiet c = false ∨ s.shadowRoom c.core c.id = false) →
      exec (.shadowSwapDone c.id) s = .next s) ∧
    (c.state = .stopping → c.stopAt + 96 ≤ s.cycle → s.lanesQuiet c = true → s.shadowRoom c.core c.id = true →
      (∀ x ∈ s.crews, x.id ≠ c.id → x.state ≠ .failing ∧ x.state ≠ .saved) → (s.crews.map Crew.id).Nodup →
      ∃ t y, exec (.shadowSwapDone c.id) s = .next t ∧ t.crew c.id = some y ∧ unpinned s c y ∧
        (∀ id, id ≠ c.id → t.crew id = s.crew id) ∧ (t.core c.core).shadowBank = (s.core c.core).shadowBank ++ [c.id] ∧
        (s.ctxActive (s.asidOf c.id) = true → c.id ∈ (t.core c.core).queue) ∧
        (s.ctxActive (s.asidOf c.id) = false → (t.core c.core).queue = (s.core c.core).queue) ∧
        t = { s with crews := t.crews, cores := t.cores })) ∧
  (∀ (s : State) (c : Crew) (x : Ctx) (err : Option SaveError), s.crew c.id = some c →
    (c.id ∉ (s.core c.core).shadowBank → exec (.saveEngineWrite c.id err) s = .next s) ∧
    (c.id ∈ (s.core c.core).shadowBank → s.ctx (s.asidOf c.id) = some x →
      let slot := x.regSlot c.core
      (∃ t, exec (.saveEngineWrite c.id none) s = .next t ∧
        (t.core c.core).shadowBank = (s.core c.core).shadowBank.filter (fun y => y != c.id) ∧
        t = { homed s t with cores := t.cores } ∧ (∀ a, a < slot ∨ slot + 80 * 4096 ≤ a → t.homeByte a = s.homeByte a) ∧
        (stores s slot (80 * 4096) → ∀ i < 79, tagged x t (slot + 4096 * i) (slot + 79 * 4096 + 16 * i))) ∧
      ∀ chunk, (x.state ≠ .quiescing → ∃ t y, exec (.saveEngineWrite c.id (some (.ue chunk))) s = .next t ∧
          t.crew c.id = some y ∧ y = { c with saveBad := some chunk } ∧ t.ctxs = s.ctxs) ∧
        (x.state = .quiescing → x.destroying = false → (s.crews.map Crew.id).Nodup →
          ∃ t d, exec (.saveEngineWrite c.id (some (.ue chunk))) s = .next t ∧ t.ctx x.asid = some d ∧ d.state = .faulted ∧
            t.cp = { s.cp with busy := false, code := 0 } ∧
            ∀ y ∈ s.liveCrews x.asid, ∀ z, t.crew y.id = some z → z.state = .failing ∧ z.cause = 16))) ∧
  (∀ (s : State) (c : Crew), s.crew c.id = some c →
    ((c.drainAt ≤ s.cycle → c.state ≠ .stopping ∧ c.state ≠ .saved) → exec (.copyDrainLimit c.id) s = .next s) ∧
    ((c.state = .stopping ∨ c.state = .saved) → c.drainAt ≤ s.cycle → (∀ x ∈ s.crews, x.state ≠ .failing) →
      ∃ t, exec (.copyDrainLimit c.id) s = .next t ∧ t = { s with crews := t.crews, copies := t.copies } ∧
        t.copies = s.copies.map (fun x => if x.gang.crew = c.id then
          { x with squashed := true, work := none, lines := [], lost := [] } else x) ∧
        ∀ y ∈ t.crews, ∀ p ∈ y.pages, ∀ o ∈ p.port, ∀ n m, o.act = .copy n m →
          ∀ x ∈ s.copies, x.id = n → x.gang.crew ≠ c.id)) ∧
  (∀ (s : State) (id h : Nat) (p : Page), s.page id h = some p →
    (p.state ≠ .unpinning → exec (.pageWritebackDone id h) s = .next s) ∧
    (p.state = .unpinning → p.backing % 128 = 0 → stores s p.backing (44 * 1024) →
      ∃ t, exec (.pageWritebackDone id h) s = .next t ∧
        t.page id h = some { p with state := .backed, cells := [], poison := [], dirty := [], moved := 0 } ∧
        (∀ e n, (e, n) ≠ (id, h) → t.page e n = s.page e n) ∧ t = { homed s t with crews := t.crews } ∧
        (∀ l < 256, t.homeBytes (p.backing + 128 * l) 128 = if p.moved ≤ l ∧ l ∈ p.dirty then
          p.cells.readBytes (128 * l) 128 else s.homeBytes (p.backing + 128 * l) 128) ∧
        (∀ r ∈ p.poison, r < 1024 → p.moved ≤ r / 4 → r / 4 ∈ p.dirty → t.homePoison (p.backing + 32 * r) = true) ∧
        ∀ x, s.ctx (s.asidOf id) = some x → ∀ i < 2,
          tagged x t (p.backing + 32 * 1024 + 4096 * i) (p.backing + 40 * 1024 + 16 * i))) ∧
  (∀ (s : State) (c : Crew) (x : Ctx), s.crew c.id = some c → s.ctx (s.asidOf c.id) = some x → ∀ err : Option SaveError,
    let may : Prop := c.state = .saved ∧ (s.core c.core).queue.head? = some c.id ∧ c.id ∉ (s.core c.core).shadowBank ∧
      (∀ p ∈ c.pages, p.state = .backed) ∧ s.passes c [] = true ∧ s.distributorReady c.core = true
    let sound_ : Prop := c.saveBad = none ∧ err = none ∧ chunksOk s x (x.regSlot c.core) 79 (x.regSlot c.core + 79 * 4096)
    (¬may → exec (.crewRestore c.id err) s = .next s) ∧
    (may → sound_ → (∀ y ∈ s.copies, y.gang.crew = c.id → y.squashed = false) → (s.allGangs.map Gang.ref).Nodup →
      ∃ t y, exec (.crewRestore c.id err) s = .next t ∧ t.crew c.id = some y ∧ y = { c with
          state := .starting, swapped := false, started := s.lastStart + 1,
          pages := c.pages.map fun p => { p with state := .refilling, moved := 0 } } ∧
        (∀ id, id ≠ c.id → t.crew id = s.crew id) ∧ (t.core c.core).queue = (s.core c.core).queue.drop 1 ∧
        (t.core c.core).admitAt = s.cycle + 4 ∧
        (∀ g ∈ s.crewGangs c.id, ∃ g', t.gang g.ref = some g' ∧ g' = { g with units := g'.units } ∧
          g'.units.length = g.cost g.allot) ∧
        t = { s with crews := t.crews, cores := t.cores, gangs := t.gangs, g := t.g, lastStart := s.lastStart + 1 }) ∧
    (may → ¬sound_ → x.state = .active → (s.crews.map Crew.id).Nodup →
      ∃ t kind cause chunk, exec (.crewRestore c.id err) s = .next t ∧ faults s t x kind cause chunk 0 c.die ∧
        (kind, cause) ∈ [(1, 16), (2, 7)] ∧
        (∀ n, c.saveBad = some n → kind = 1 ∧ chunk = n) ∧
        (c.saveBad = none → ∀ n, (err = some (.ue n) → kind = 1 ∧ chunk = n) ∧ (err = some (.tag n) → kind = 2 ∧ chunk = n)) ∧
        (c.saveBad = none → err = none → (kind = 1 ∧ (∃ a ∈ sectors chunk 4096, s.homePoison a = true)) ∨
          (kind = 2 ∧ ∃ i < 79, chunk = x.regSlot c.core + 4096 * i ∧
            ¬tagged x s chunk (x.regSlot c.core + 79 * 4096 + 16 * i))))) ∧
  (∀ (s : State) (c : Crew) (o : CopyOp) (act : CopyAct) (d : List Nat) (u : State),
    s.crew c.id = some c → c.state = .saved → (s.core c.core).queue.head? = some c.id →
    c.id ∉ (s.core c.core).shadowBank → (∀ p ∈ c.pages, p.state = .backed) → s.passes c [] = true →
    s.distributorReady c.core = true → s.restoreBad c none = none → s.copies = [o] → o.gang.crew = c.id →
    o.squashed = true → s.replayAct (coreDie c.core) (s.asidOf c.id) o.act = (.ok (act, d), u) →
    ∃ t x, exec (.crewRestore c.id none) s = .next t ∧ t.copies = [x] ∧ x = { o with
      squashed := false, replayed := true, delivered := 0, dropped := 0, act := act, direct := d, used := x.used }) ∧
  ∀ (s : State) (c : Crew) (h : Nat) (p : Page) (x : Ctx), s.crew c.id = some c → s.page c.id h = some p →
    s.ctx (s.asidOf c.id) = some x → ∀ err : Option SaveError,
    let sound_ : Prop := err = none ∧ chunksOk s x (p.backing + 32 * 1024) 2 (p.backing + 40 * 1024)
    (p.state ≠ .refilling → exec (.pageRefillDone c.id h err) s = .next s) ∧
    (p.state = .refilling → sound_ → memoriesWf s = true →
      ∃ t q, exec (.pageRefillDone c.id h err) s = .next t ∧ t.page c.id h = some q ∧
        q = { p with state := .pinned, cells := q.cells, poison := q.poison, moved := 0 } ∧
        (∀ i < 32768, q.byte i = if 128 * p.moved ≤ i then s.homeByte (p.backing + i) else p.byte i) ∧
        (∀ r, r ∈ q.poison ↔ r ∈ p.poison ∨ (4 * p.moved ≤ r ∧ r < 1024 ∧
          (s.homePoison (p.backing + 32 * r) = true ∨ s.checkFails (p.backing + 32 * r) = true))) ∧
        (∀ e n, (e, n) ≠ (c.id, h) → t.page e n = s.page e n) ∧ t = { s with crews := t.crews, errlog := t.errlog }) ∧
    (p.state = .refilling → ¬sound_ → x.state = .active → (s.crews.map Crew.id).Nodup →
      ∃ t kind cause chunk, exec (.pageRefillDone c.id h err) s = .next t ∧ faults s t x kind cause chunk 0 c.die ∧
        (kind, cause) ∈ [(1, 16), (2, 7)] ∧
        ∀ n, (err = some (.ue n) → kind = 1 ∧ chunk = n) ∧ (err = some (.tag n) → kind = 2 ∧ chunk = n))

namespace Sys2Proof.Safety

/-- A line that holds a byte of one of a list of regions, as far as the context's tables map it (R271, R330). -/
abbrev inRegions (s : State) (asid : Nat) (regions : List (Nat × Nat)) (n : Nat) : Prop :=
  ∃ x ∈ s.regionRanges asid regions, x.1 ≤ n ∧ n ≤ x.2

end Sys2Proof.Safety

/-- STACK_FLUSH_DONE of a FLUSHING task writes the dirty lines of its regions back, queues an instance on each of its
cores with the registers of a start, and makes it RUNNING. STACK_INSTANCE_START gives a free core to the first eligible
instance of its queue, by priority and order; one whose saved state is bad traps with UE instead. STACK_PREEMPT saves a
running instance for a waiting one of higher priority, or of equal priority after its syield, behind which it goes; the
slot of a LOCAL one is written with its tags. STACK_TASK_FINISH of a FINISHING task, or of a failing one in a later
stack cycle, gives up the output lines, removes the task and its instances, writes or adds its flag after status, cause,
count and rank, and completes the command, or lowers IFC_BD. (The model's choices among these: region pages that do not
translate, log 46; LOCAL slots that are not covered, log 48.) (R271, R330, R331, R333, R334, R335, R338, R364). -/
def Obligations.StackTasksProgress : Prop :=
  (∀ (s : State) (k : Task), s.task k.serial = some k →
    (k.state ≠ .flushing → exec (.stackFlushDone k.serial) s = .next s) ∧
    (k.state = .flushing → homesWf s = true → memoriesWf s = true →
      ∃ t, exec (.stackFlushDone k.serial) s = .next t ∧
        t = { s with l2 := t.l2, dram := t.dram, poison := t.poison, tasks := t.tasks, insts := t.insts,
                     nextId := s.nextId + 1 } ∧
        (∀ a, (∀ l ∈ s.l2, l ∉ t.l2 → apartFrom s [l.num] a ∧ (l.num = a / 128 → l.dirty = true)) →
          t.homeByte a = s.homeByte a) ∧ (∀ l ∈ t.l2, l ∈ s.l2) ∧
        (∀ l ∈ s.l2, l ∉ t.l2 → inRegions s k.asid (k.ins ++ k.outs) l.num) ∧ (∀ l ∈ t.l2, l.dirty = true → ¬inRegions s k.asid (k.ins ++ k.outs) l.num) ∧
        t.task k.serial = some { k with state := .running, inLines := s.regionRanges k.asid k.ins, kept := [] } ∧
        t.tasks.map (fun x => (x.serial, x.state)) = (updBy (fun x => x.serial == k.serial)
          (fun x => { x with state := .running }) s.tasks).map (fun x => (x.serial, x.state)) ∧
        let places := ((List.range 128).filter fun i => k.desc.stackMask.getLsbD (i / 16) && k.desc.coreMask.getLsbD (i % 16)).map
          fun i => (i / 16, i % 16)
        t.insts = s.insts ++ (List.range places.length).map fun i => { Instance.empty with
          task := k.serial, die := (places.getD i (0, 0)).1, core := (places.getD i (0, 0)).2, rank := i, prio := k.prio,
          order := s.nextId, state := .queued, pc := k.desc.code })) ∧
  (∀ (s : State) (die core : Nat), s.nextInst die core = none → exec (.stackInstanceStart die core) s = .next s) ∧
  (∀ (s : State) (die core : Nat) (x : Instance), s.nextInst die core = some x →
    (x ∈ s.allInsts ∧ x.die = die ∧ x.core = core ∧ s.instEligible x = true ∧ ∀ y ∈ s.allInsts, y.die = die → y.core = core →
      s.instEligible y = true → y.prio < 8 → x.prio < 8 → y.order < 2 ^ 64 → x.order < 2 ^ 64 →
      y.prio < x.prio ∨ (y.prio = x.prio ∧ x.order ≤ y.order)) ∧
    ((∃ y ∈ s.allInsts, y.die = die ∧ y.core = core ∧ y.state = .running) →
      exec (.stackInstanceStart die core) s = .next s) ∧
    ((∀ y ∈ s.allInsts, y.die = die → y.core = core → y.state ≠ .running) →
      (s.resumeBad x = false → ∃ t, exec (.stackInstanceStart die core) s = .next t ∧
        t.allInsts = s.allInsts.map (fun y => if y.task = x.task ∧ y.die = die ∧ y.core = core then
          { y with state := .running, yielded := false } else y) ∧ t = { s with inst := t.inst, insts := t.insts }) ∧
      (s.resumeBad x = true → ∀ k, s.task x.task = some k → ∃ t k', exec (.stackInstanceStart die core) s = .next t ∧
        t.task x.task = some k' ∧ k' = { k with
          state := k'.state, failAt := s.stackCycle, first := some x.rank, cause := 16, failedCount := k.count - k.ended } ∧
        (k'.state = .failing ∨ k'.state = .finishing) ∧
        (∀ y ∈ t.allInsts, y.task = x.task → y.state = .ended ∨ (y.state = .running ∧ y.rank ≠ x.rank)) ∧
        t = { s with inst := t.inst, insts := t.insts, tasks := t.tasks }))) ∧
  (∀ (s : State) (die core : Nat) (x y : Instance), s.runningOn die core = some x → s.nextInst die core = some y →
    let may : Prop := s.canSave x = true ∧ s.taskFailing x.task = false ∧
      (x.prio < y.prio ∨ (x.yielded = true ∧ x.prio = y.prio))
    (¬may → exec (.stackPreempt die core) s = .next s) ∧
    (may → ∃ t, exec (.stackPreempt die core) s = .next t ∧
      t = { homed s t with inst := t.inst, insts := t.insts, nextId := s.nextId + 1 } ∧
      t.allInsts = s.allInsts.map (fun z => if z.task = x.task ∧ z.die = die ∧ z.core = core then { z with
          state := .saved, yielded := false, order := if x.prio = y.prio then s.nextId else x.order } else z) ∧
      (∀ k, s.task x.task = some k → k.desc.loc = false → ∀ a, t.homeByte a = s.homeByte a) ∧
      ∀ k c, s.task x.task = some k → k.desc.loc = true → s.ctx k.asid = some c →
        let slot := c.stackSlot die core
        (∀ a, a < slot ∨ slot + 132 * 1024 ≤ a → t.homeByte a = s.homeByte a) ∧
        (stores s slot (132 * 1024) → ∀ i < 32, tagged c t (slot + 4096 * i) (slot + 128 * 1024 + 16 * i)))) ∧
  ∀ (s : State) (k : Task), s.task k.serial = some k →
    let may : Prop := k.state = .finishing ∨ (k.state = .failing ∧ k.failAt < s.stackCycle)
    (¬may → exec (.stackTaskFinish k.serial) s = .next s) ∧
    (may → homesWf s = true → ∃ t w, exec (.stackTaskFinish k.serial) s = .next t ∧
      w = { homed s w with
        tasks := dropBy (fun x => x.serial == k.serial) s.tasks, tlb := w.tlb, insts := w.insts, inst := w.inst } ∧
      (∀ x ∈ w.allInsts, x.task ≠ k.serial) ∧ (∀ x ∈ s.allInsts, x.task ≠ k.serial → x ∈ w.allInsts) ∧
      let left (a : Nat) : Byte := if inRegions s k.asid k.outs (a / 128) ∧ (s.l2Line a).isSome = true then s.dramByte a
        else s.homeByte a
      let status := if k.failedCount = 0 then 0 else 1
      let u : State := { s with
        l2 := s.l2.filter fun l => !(s.regionRanges k.asid k.outs).any fun x => decide (x.1 ≤ l.num ∧ l.num ≤ x.2) }
      let lost : Prop := (∃ e v, u.cpResolve k.asid k.desc.flag.toNat 16 .write = (.error e, v)) ∨
        (k.desc.flagAdd = true ∧ ∃ pas v, u.cpResolve k.asid k.desc.flag.toNat 16 .write = (.ok pas, v) ∧
          ∃ a ∈ pas.take 8, v.homePoison a = true)
      let none_ : Prop := k.desc.flag = 0 ∨ k.desc.flag.toNat % 16 ≠ 0
      ((none_ ∨ lost) → ∀ a, w.homeByte a = left a) ∧
      (¬none_ → ¬lost → ∀ pas v, u.cpResolve k.asid k.desc.flag.toNat 16 .write = (.ok pas, v) → pas.Nodup →
        (∀ a ∈ pas, stores s a 1) → (∀ a, a ∉ pas → w.homeByte a = left a) ∧
        pas.map w.homeByte = leBytes 8 (((if k.desc.flagAdd then leNat ((pas.take 8).map left) else 0) + k.desc.value.toNat)
            % 2 ^ 64) ++ leBytes 1 status ++ leBytes 1 (if status = 1 then k.cause else 0) ++
          leBytes 2 (min 65535 k.failedCount) ++ leBytes 4 (k.first.getD 0xFFFFFFFF)) ∧
      match k.owner with
      | .command asid n index => ∀ q c, s.queue asid n = some q → findBy (fun (x : Cmd) => x.index == index) q.cmds = some c →
          (¬none_ → lost → completed w t asid n c 3 k.cause) ∧ ((none_ ∨ ¬lost) → completed w t asid n c status k.cause)
      | .gang r id => ∀ g, s.gang r = some g → oldestOf g .bd id → ∃ g', t.gang r = some g' ∧
          g' = { g with ifc := g.ifc.erase { path := .bd, id := id, done := false } } ∧
          t = { w with g := t.g, gangs := t.gangs })

namespace Sys2Proof.Safety

/-- Each selected gang stands to itself afterwards as f says, and every other gang is as before (R373). -/
def eachGang (s t : State) (f : Gang → Gang → Prop) : Prop :=
  (∀ g ∈ s.selected, ∃ g', t.gang g.ref = some g' ∧ f g g') ∧
    ∀ r, r ∉ s.selected.map Gang.ref → t.gang r = s.gang r

/-- The newest entry of a gang's undo log undone (R372): the registers, predicates, trap registers, segments, window and
DEBUG bits it holds, and the position of its stream, are back; the rest stands. -/
def undone (g g' : Gang) : Prop :=
  ∃ e rest, g.undo = e :: rest ∧ g'.undo = rest ∧
    (e.lane = false → g'.pc = e.pc ∧ g'.lane = g.lane) ∧
    (e.lane = true → g'.pc = g.pc ∧ g'.lane = if e.slot then { g.lane with s1 := { g.lane.s1 with pc := e.index } }
      else { g.lane with s0 := { g.lane.s0 with pc := e.index } }) ∧
    g'.segs = e.segs.getD g.segs ∧ g'.lptBase = e.lptBase.getD g.lptBase ∧
    (g'.dbgHaltTrap, g'.dbgHaltBrk, g'.dbgUndo) = e.dbg.getD (g.dbgHaltTrap, g.dbgHaltBrk, g.dbgUndo) ∧
    (g'.win, g'.res) = e.wb.getD (g.win, g.res) ∧ g'.k.length = g.k.length ∧
    (∀ i < g.k.length, g'.k[i]? = some (((findBy (fun x => x.1 == i) e.k.reverse).map Prod.snd).getD (g.k.getD i 0))) ∧
    (∀ i < g.q.length, g'.q[i]? = some (((findBy (fun x => x.1 == i) e.q.reverse).map Prod.snd).getD (g.q.getD i 0))) ∧
    (e.v = [] → g'.regs = g.regs) ∧
    (∀ x, e.v = [x] → (e.wb.getD (g.win, g.res)).2 ≤ x.1 → ∀ i l, (g'.regs.getD i []).getD l 0 =
      if i + (e.wb.getD (g.win, g.res)).2 = x.1 ∧ l = x.2.1 ∧ i < g.regs.length ∧ l < (g.regs.getD i []).length then x.2.2
      else (g.regs.getD i []).getD l 0) ∧
    (∀ n, let back (d : Word) : Word := ((findBy (fun x => x.1 == n) e.sr).map Prod.snd).getD d
      (n = 0x060 → g'.trapCause = back g.trapCause) ∧ (n = 0x061 → g'.trapPc = back g.trapPc) ∧
      (n = 0x062 → g'.trapInfo = back g.trapInfo) ∧ (n = 0x063 → g'.trapVec = back g.trapVec)) ∧
    g' = { g with
      undo := rest, k := g'.k, q := g'.q, regs := g'.regs, vPoison := g'.vPoison, pc := g'.pc, lane := g'.lane,
      segs := g'.segs, lptBase := g'.lptBase, dbgHaltTrap := g'.dbgHaltTrap, dbgHaltBrk := g'.dbgHaltBrk,
      dbgUndo := g'.dbgUndo, win := g'.win, res := g'.res, trapCause := g'.trapCause, trapPc := g'.trapPc,
      trapInfo := g'.trapInfo, trapVec := g'.trapVec }

/-- The register of a gang that a selector of the debug port names (R373): 0 k, 1 special registers, 2 the window's lane
registers, 3 predicates; none where it names none. -/
def regValue (s : State) (g : Gang) (sel : BitVec 16) : Option Word :=
  let n := sel.toNat
  if n / 2 ^ 14 = 0 then some (if n % 32 = 0 then 0 else g.k.getD (n % 32) 0)
  else if n / 2 ^ 14 = 1 then (if srnListed (n % 1024) then some ((s.bring g.ref).readSr (n % 1024)) else none)
  else if n / 2 ^ 14 = 2 then
    if n % 64 < g.window then some (((g.regs.getD (g.win + n % 64 - g.res) []).getD (n / 256 % 32) 0).setWidth 64) else none
  else some (if n % 8 = 0 then 0xFFFFFFFF else (g.q.getD (n % 8) 0).setWidth 64)

/-- The register of a gang that a selector names takes DBGDATA (R373); k0 and q0 take nothing. -/
def regPut (s : State) (sel : BitVec 16) (g g' : Gang) : Prop :=
  let n := sel.toNat
  let x := s.dbg.data
  (n / 2 ^ 14 = 0 → g' = { g with k := if n % 32 = 0 then g.k else g.k.set (n % 32) x, kPoison := g'.kPoison }) ∧
    (n / 2 ^ 14 = 2 → n % 64 < g.window → g' = { g with
      vPoison := g'.vPoison
      regs := g.regs.set (g.win + n % 64 - g.res)
        ((g.regs.getD (g.win + n % 64 - g.res) []).set (n / 256 % 32) (x.setWidth 32)) }) ∧
    (n / 2 ^ 14 = 3 → g' = { g with q := if n % 8 = 0 then g.q else g.q.set (n % 8) (x.setWidth 32) })

end Sys2Proof.Safety

/-- From host S or M with the port not busy, where gangs are selected: HALT stops each at its boundary and halts it,
once what its lanes have issued is written; RESUME lets each run on, from the recorded pc or at the handler where it
halted at a trap; ARMBRK and DISARMBRK set and clear HALTBRK. All of them halted: STEP lets each make one step of its
stream, or advances the bank by one step; BACK undoes the newest entry of each, registers, stream position and memory;
READ returns the register of the first, WRITE writes that of each. CQUIESCE completes once the counters of the halted
ones are 0. With none selected the code is 2; STEP, BACK, READ and WRITE with one not halted give 1; an empty log 3, a
fence 4; BADOP 5. From host U the write faults; while busy it is discarded. Other gangs are as before. (The model's
choices among these: a command written while busy, STREAM 3, ENDED gangs and READ's first gang, log 52; what BACK
restores, log 44.) (R257, R355, R372, R373, R374, R214). -/
def Obligations.DebugCommands : Prop :=
  -- the command, its DBGCMD word, and whether every selected gang must be halted
  let debugRows : List ((HostLevel → Instr) × Word × Bool) :=
    [(.debugHalt, 1, false), (.debugResume, 2, false), (fun l => .debugStep l 0, 0x03, true),
     (fun l => .debugStep l 1, 0x13, true), (fun l => .debugStep l 2, 0x23, true), (.debugBack, 4, true),
     (.debugCquiesce, 5, false), (.debugArmbrk, 6, false), (.debugDisarmbrk, 7, false),
     (fun l => .debugRead l 0, 8, true), (fun l => .debugWrite l 0, 9, true)]
  (∀ (s : State) (g : Gang), g ∈ s.selected ↔ g ∈ s.residentGangs (field s.dbg.sel 0 3 * 256 + field s.dbg.sel 3 1 * 128
    + field s.dbg.sel 4 7) ∧ g.status ≠ .ended ∧
      (s.dbg.sel.getLsbD 16 = true ∨ g.slot = 8 * field s.dbg.sel 11 2 + field s.dbg.sel 13 3)) ∧
  (∀ e ∈ debugRows, ∀ s : State, exec (e.1 .u) s = .next { s with reply := .fault } ∧
    ∀ lvl, lvl ≠ .u → (s.dbg.busy = true → exec (e.1 lvl) s = .next s) ∧ (s.dbg.busy = false →
      (s.selected = [] → exec (e.1 lvl) s = .next { s with dbg := { s.dbg with cmd := e.2.1, code := 2 } }) ∧
      (e.2.2 = true → (∃ g ∈ s.selected, g.status ≠ .halted) →
        exec (e.1 lvl) s = .next { s with dbg := { s.dbg with cmd := e.2.1, code := 1 } }))) ∧
  (∀ (s : State) (lvl : HostLevel), lvl ≠ .u → s.dbg.busy = false → s.selected ≠ [] → (s.allGangs.map Gang.ref).Nodup →
    let ended (t : State) (cmd : Word) : Prop := t.dbg = { s.dbg with cmd := cmd, code := 0 }
    let released (step : Option Stream) (g g' : Gang) : Prop :=
      (g.status ≠ .halted → g.haltDue = false → g' = g) ∧
      ((g.status = .halted ∨ g.haltDue = true) →
        (g.haltTrap = false → g' = { g with status := .run, haltDue := false, stepOne := step }) ∧
        (g.haltTrap = true → g.trapCause.toNat % 256 = 0 → g'.status = .run ∧ g'.pc = g.trapPc ∧ g'.haltTrap = false ∧
          g' = { g with
            status := .run, haltDue := false, stepOne := step, haltTrap := false, pc := g.trapPc, lane := g'.lane } ∧ (g.trapCause.getLsbD 8 = false → g'.lane = g.lane)) ∧
        (g.haltTrap = true → g.trapCause.toNat % 256 ≠ 0 → g'.status = .run ∧ g'.level = .k ∧ g'.pc = g.trapVec ∧
          g'.haltTrap = false ∧ g'.stepOne = step ∧ g'.k = g.k.take 24 ++ g.kAlt ∧ g'.regs = g.regs ∧ g'.lane = g.lane))
    let enters : Prop := ∀ g ∈ s.selected, (g.status = .halted ∨ g.haltDue = true) → g.haltTrap = true →
      g.trapCause.toNat % 256 ≠ 0 → g.trapVec ≠ 0 ∧ g.level = .u ∧ g.k.length = 32 ∧ g.kAlt.length = 8 ∧
        ∀ c, s.crew g.ref.crew = some c → c.version.versioned = false
    (∃ t, exec (.debugHalt lvl) s = .next t ∧ ended t 1 ∧ t = { s with
        g := t.g, gangs := t.gangs, cores := t.cores, dbg := t.dbg } ∧
      eachGang s t fun g g' => (g.status = .halted → g' = g) ∧ (g.status ≠ .halted →
        g' = { g with
          latches := g'.latches, pend := g'.pend, wait := none, kept := g'.kept, status := g'.status,
          haltDue := g'.haltDue, stepOne := g'.stepOne } ∧ (∀ l ∈ g'.latches, l.valid = false) ∧
        g'.pend = g.pend.map (fun p => { p with latch := none }) ∧
        (g.pend = [] → g'.status = .halted ∧ g'.haltDue = g.haltDue ∧ g'.stepOne = none) ∧
        (g.pend ≠ [] → g'.status = g.status ∧ g'.haltDue = true ∧ g'.stepOne = g.stepOne))) ∧
    (enters → ∃ t, exec (.debugResume lvl) s = .next t ∧ ended t 2 ∧ eachGang s t (released none) ∧
      t = { s with g := t.g, gangs := t.gangs, dbg := t.dbg }) ∧
    (∃ t, exec (.debugArmbrk lvl) s = .next t ∧ ended t 6 ∧ t = { s with g := t.g, gangs := t.gangs, dbg := t.dbg } ∧
      eachGang s t fun g g' => g' = { g with dbgHaltBrk := true }) ∧
    (∃ t, exec (.debugDisarmbrk lvl) s = .next t ∧ ended t 7 ∧ t = { s with g := t.g, gangs := t.gangs, dbg := t.dbg } ∧
      eachGang s t fun g g' => g' = { g with dbgHaltBrk := false }) ∧
    (let quiet_ : Prop := ∀ g ∈ s.selected, g.status = .halted → g.ust = 0 ∧ ∀ e ∈ g.ifc, e.path = .bd
     (quiet_ → exec (.debugCquiesce lvl) s = .next { s with dbg := { s.dbg with cmd := 5, code := 0 } }) ∧
      (¬quiet_ → exec (.debugCquiesce lvl) s = .next { s with dbg := { s.dbg with cmd := 5, busy := true } })) ∧
    ((∀ g ∈ s.selected, g.status = .halted) →
      (∀ e ∈ [((0 : BitVec 2), Stream.scalar, (0x03 : Word)), (1, .lane, 0x13)], enters →
        ∃ t, exec (.debugStep lvl e.1) s = .next t ∧ ended t e.2.2 ∧ eachGang s t (released (some e.2.1)) ∧
          t = { s with g := t.g, gangs := t.gangs, dbg := t.dbg }) ∧
      (∃ t, exec (.debugStep lvl 2) s = .next t ∧ ended t 0x23 ∧
        ((∀ g ∈ s.selected, ∀ p, s.page g.ref.crew (field s.dbg.data 0 4) = some p → p.owner ≠ some g.ref) →
          eachGang s t (fun g g' => g' = g) ∧ t = { s with g := t.g, gangs := t.gangs, dbg := t.dbg }) ∧
        ∀ g h p op rest, s.selected = [g] → h = field s.dbg.data 0 4 → s.page g.ref.crew h = some p →
          p.owner = some g.ref → p.port = op :: rest → op.steps + 1 < op.act.stepCount →
          t.page g.ref.crew h = some { p with port := { op with steps := op.steps + 1 } :: rest } ∧
          t = { s with g := t.g, gangs := t.gangs, crews := t.crews, dbg := t.dbg }) ∧
      ((∃ g ∈ s.selected, g.undo = []) →
        exec (.debugBack lvl) s = .next { s with dbg := { s.dbg with cmd := 4, code := 3 } }) ∧
      ((∀ g ∈ s.selected, g.undo ≠ []) → (∃ g ∈ s.selected, ∃ e rest, g.undo = e :: rest ∧ e.fence = true) →
        exec (.debugBack lvl) s = .next { s with dbg := { s.dbg with cmd := 4, code := 4 } }) ∧
      ((∀ g ∈ s.selected, ∃ e rest, g.undo = e :: rest ∧ e.fence = false) →
        ∃ t, exec (.debugBack lvl) s = .next t ∧ ended t 4 ∧ eachGang s t undone ∧
          ((∀ g ∈ s.selected, ∀ e rest, g.undo = e :: rest → e.mem = [] ∧ e.period = none) →
            t = { s with g := t.g, gangs := t.gangs, dbg := t.dbg }) ∧
          ∀ e rest, s.selected = [s.g] → s.g.status ≠ .absent → s.g.undo = e :: rest → memoriesWf s = true →
            homesWf s = true → (∀ n, e.period = some n → t.hbPeriod = n) ∧ (e.period = none → t.hbPeriod = s.hbPeriod) ∧
            (s.versionOpen s.g.ref.crew = false → stored s t 2 e.mem))) ∧
    ∀ sel : BitVec 16, (∀ g ∈ s.selected, g.status = .halted) → ∀ g rest, s.selected = g :: rest →
      let cmd (op : Nat) : Word := BitVec.ofNat 64 (op + sel.toNat * 65536)
      (∀ x, regValue s g sel = some x →
        exec (.debugRead lvl sel) s = .next { s with dbg := { s.dbg with cmd := cmd 8, data := x, code := 0 } }) ∧
      (regValue s g sel = none → ∀ e ∈ [(Instr.debugRead lvl sel, 8), (.debugWrite lvl sel, 9)],
        exec e.1 s = .next { s with dbg := { s.dbg with cmd := cmd e.2, code := 5 } }) ∧
      (regValue s g sel ≠ none → ∃ t, exec (.debugWrite lvl sel) s = .next t ∧ ended t (cmd 9) ∧
        (sel.toNat / 2 ^ 14 ≠ 1 → t = { s with g := t.g, gangs := t.gangs, shadows := t.shadows, dbg := t.dbg } ∧
          eachGang s t (regPut s sel)) ∧
        (sel.toNat / 2 ^ 14 = 1 → srnWritable (sel.toNat % 1024) = false →
          eachGang s t (fun g g' => g' = g) ∧ t = { s with g := t.g, gangs := t.gangs, dbg := t.dbg }))) ∧
  ∀ (op : BitVec 4) (lvl : HostLevel) (s : State), lvl ≠ .u → s.dbg.busy = false → (op = 0 ∨ 9 < op.toNat) →
    exec (.debugBadop lvl op) s = .next { s with dbg := { s.dbg with cmd := BitVec.ofNat 64 op.toNat, code := 5 } }

namespace Sys2Proof.Safety

/-- The lowest port of a group that carries flits (R390, R394). -/
def lowestPort (s : State) (g : Nat) : Option Nat :=
  (List.range 36).find? fun m => m / 3 == g && (s.port m).any fun p => p.state == .up || p.state == .degraded

/-- A port has entered a state, in which its record is q but for what it has put on the wire (R389, R390). Its flows have
moved if it carries flits no longer, and the stalled flows of its group have been bound if it carries them now: each to the
lowest port of its group that does, which has sent its unacknowledged flits again, oldest first (R394). -/
def portMoves (s t : State) (q : CwPort) : Prop :=
  let carries : Bool := q.state == .up || q.state == .degraded
  let moves (f : Flow) : Bool := if carries then f.group == q.num / 3 && f.home.isNone else f.home == some q.num
  t = { s with ports := t.ports, flows := t.flows, stalls := t.stalls } ∧
    t.ports.map CwPort.num = s.ports.map CwPort.num ∧
    t.flows = s.flows.map (fun f => if moves f then { f with home := lowestPort t f.group } else f) ∧
    (∀ m p, (if m = q.num then some q else s.port m) = some p →
      t.port m = some { p with
        tx := p.tx ++ (s.flows.filter fun f => moves f && lowestPort t f.group == some m).flatMap fun f => f.unacked.map Machine.Flit.image }) ∧
    ∀ g x, (g, x) ∈ t.stalls → lowestPort t g = none ∧ (x = s.cycle ∨ (g, x) ∈ s.stalls)

/-- The flows, with what a cumulative acknowledgement covers taken out of the retransmit buffer of one (R392). -/
def covered (s : State) (group num : Nat) (ack : Half) : List Flow :=
  updBy (fun (f : Flow) => f.group == group && f.num == num) (fun f =>
    { f with unacked := f.unacked.filter fun (x : Flit) => decide (2 ^ 31 ≤ (ack - x.seq).toNat) }) s.flows

/-- The flit of a sequence number in a flow's retransmit buffer sent again on its home port (R393). -/
def sentAgain (s : State) (f : Flow) (seq : Half) : State :=
  match f.home, findBy (fun (x : Flit) => x.seq == seq) f.unacked with
  | some m, some x => { s with ports := updBy (fun (p : CwPort) => p.num == m) (fun p => { p with tx := p.tx ++ [Machine.Flit.image x] }) s.ports }
  | _, _ => s

/-- An acknowledgement (kind 2) or negative acknowledgement (kind 3) of a flow has been sent on its home port (R393). -/
def answers (s t : State) (f : Flow) (kind : Nat) (seq : Half) : Prop :=
  t.ports = match f.home with
    | none => s.ports
    | some m => updBy (fun (p : CwPort) => p.num == m) (fun p => { p with tx := p.tx ++ [Machine.Flit.image
        { flow := f.num, kind := kind, poison := false, nocheck := false, last := false, seq := seq, c0 := 0, c1 := 0,
          dtype := 0, ack := f.acked, payload := List.replicate 32 0 }] }) s.ports

/-- What flits that a flow has delivered wait for a descriptor: all of them, or, while a message is being discarded, those
after its LAST (R397). -/
def delivered (all inbox : List Flit) (before after : Bool) : Prop :=
  if before then
    ((∀ x ∈ all, x.last = false) → inbox = [] ∧ after = true) ∧
      ∀ pre x post, all = pre ++ x :: post → x.last = true → (∀ y ∈ pre, y.last = false) → inbox = post ∧ after = false
  else inbox = all ∧ after = false

/-- A flow acknowledges the last flit that is delivered and, if a chunk, checked, once that number moves (R393). -/
def acknowledges (s t : State) (f h : Flow) : Prop :=
  let point := match findBy (fun (x : Flit) => x.kind == 1) h.inbox with
    | some x => x.seq - 1
    | none => h.expect - 1
  h.acked = point ∧ if point = f.acked then t.ports = s.ports else answers s t h 2 0

/-- A data or chunk flit x arrives for a flow f (R393, R400). -/
def arrives (s t : State) (f : Flow) (x : Flit) : Prop :=
  ∃ h, t.flow f.group f.num = some h ∧ (∀ g n, (g, n) ≠ (f.group, f.num) → t.flow g n = s.flow g n) ∧
    let d := (x.seq - f.expect).toNat
    if f.refused = some x.seq ∧ x.kind = 1 then h = { f with inbox := x :: f.inbox.drop 1, refused := none } ∧ t.ports = s.ports
    else if d < 4096 ∧ ∃ y ∈ f.window, y.seq = x.seq then h = f ∧ t.ports = s.ports
    else if d < 4096 then
      (∃ l : List Flit, l.map Flit.seq = (List.range l.length).map (fun k => f.expect + BitVec.ofNat 32 k) ∧
        (f.window ++ [x]).Perm (l ++ h.window) ∧ h.expect = f.expect + BitVec.ofNat 32 l.length ∧
        (∀ y ∈ h.window, y.seq ≠ h.expect) ∧ delivered (f.inbox ++ l) h.inbox f.discard h.discard) ∧
      h = { f with window := h.window, inbox := h.inbox, expect := h.expect, acked := h.acked, discard := h.discard } ∧
      acknowledges s t f h
    else if 2 ^ 31 ≤ d then h = f ∧ answers s t f 2 0
    else h = f ∧ answers s t f 3 x.seq

/-- The state of a ring that its descriptors leave it in (R60, R65): one that is OFF, HALTED or in ERROR stays so. -/
def ringRest (st : QueueState) (cmds : List Cmd) : QueueState :=
  if st = .off ∨ st = .halted ∨ st = .error then st
  else if cmds.isEmpty then .idle
  else if (cmds.any fun (c : Cmd) => !c.started) && decide (16 ≤ (cmds.filter fun (c : Cmd) => c.started).length) then .blocked
  else .active

/-- t is s but for one ring, how far descriptors have come, and memory. -/
def ringOnly (s t : State) (asid land : Nat) : Prop :=
  t = { homed s t with rings := t.rings, rxs := t.rxs, tlb := t.tlb } ∧
    (∀ a l, (a, l) ≠ (asid, land) → t.ring a l = s.ring a l) ∧
    ∀ a l i, (a, l) ≠ (asid, land) → t.rx a l i = s.rx a l i

/-- A descriptor has completed with a status (R395, R398): it is off its ring, which notes the failure, and its completion
block is written, status and counts with the flag; where it cannot be written the ring is in ERROR. -/
def descCompleted (s t : State) (asid land : Nat) (c : Cmd) (status cause : Nat) : Prop :=
  ringOnly s t asid land ∧ ∀ r, s.ring asid land = some r → ∃ x, t.ring asid land = some { r with q := x } ∧
    x.cmds = dropBy (fun (y : Cmd) => y.index == c.index) r.q.cmds ∧ x.failed = (r.q.failed || status != 0) ∧
    let rest : Queue := { r.q with cmds := x.cmds, failed := x.failed, state := ringRest r.q.state x.cmds }
    let lost : Queue := { r.q with cmds := x.cmds, failed := x.failed, state := .error, error := 4, errorIdx := c.index }
    let va := at_ c.bytes 0x20 8
    let apart' (a : Nat) : Prop := a < r.entry + 0x20 ∨ r.entry + 0x24 ≤ a
    ((va = 0 ∨ va % 16 ≠ 0) → x = rest ∧ ∀ a, apart' a → t.homeByte a = s.homeByte a) ∧
    (va ≠ 0 → va % 16 = 0 →
      (∀ e v, s.cpResolve asid va 16 .write = (.error e, v) → x = lost) ∧
      ∀ pas v, s.cpResolve asid va 16 .write = (.ok pas, v) →
        let adds : Prop := at_ c.bytes 3 1 % 2 = 1
        ((adds ∧ ∃ a ∈ pas.take 8, v.homePoison a = true) → x = lost) ∧
        (¬(adds ∧ ∃ a ∈ pas.take 8, v.homePoison a = true) → x = rest ∧
          ((∀ a ∈ pas, stores s a 1 ∧ apart' a) → pas.Nodup → homesWf s = true →
            (∀ a, a ∉ pas → apart' a → t.homeByte a = s.homeByte a) ∧
            pas.map t.homeByte = leBytes 8 (((if adds then leNat ((pas.take 8).map s.homeByte) else 0) + at_ c.bytes 0x28 8)
                % 2 ^ 64) ++ leBytes 1 status ++ leBytes 1 cause ++ leBytes 2 (min 65535 (s.rx asid land c.index).nocheck) ++
              leBytes 4 ((s.rx asid land c.index).firstNocheck.getD 0xFFFFFFFF))))

end Sys2Proof.Safety

/-- A CWPCTL write from host S or M sets ENABLE or FENCE and puts the port in TRAINING, DOWN or FENCED; training ends UP
or DEGRADED by its lanes, or FENCED with cause 1 or 2; a usable port retrains and comes back by its lanes, or is FENCED
with cause 3. A port that stops carrying flits gives its flows to the lowest usable port of their group, which sends
every unacknowledged flit again; one that starts to takes the stalled flows. An acknowledgement takes what it covers
from the retransmit buffer; a negative one sends its flit again; 256 bytes that keep R391 and arrive at a usable port
are stored, delivered in order, dropped or refused by their sequence number, and acknowledged. A group stalled for
1,000,000 cycles fails its descriptors and drops its flows. A UCIe repair is logged with both lanes of R21; a lost
module leaves its link running, the last one takes the link away with the effects of R387. (The model's choices among
these: the contents of acknowledgement flits, log 59; when ports of a landing die are fenced, log 54; that a stalled
group restarts at 0, log 57.) (R16, R21, R386, R387, R388, R389, R390, R391, R392, R393, R394, R398). -/
def Obligations.PortsAndLinks : Prop :=
  let inOrder (s : State) : Prop :=
    s.ports.map CwPort.num = List.range 36 ∧ (s.flows.map fun (f : Flow) => (f.group, f.num)).Nodup
  (∀ (lvl : HostLevel) (n : Nat) (b : Bool) (s : State), ∀ i ∈ [Instr.cwpctlEnable, .cwpctlFence],
    exec (i .u n b) s = .next { s with reply := .fault } ∧ (lvl ≠ .u → s.port n = none → exec (i lvl n b) s = .next s)) ∧
  (∀ (lvl : HostLevel) (b : Bool) (s : State) (p : CwPort), lvl ≠ .u → inOrder s → s.port p.num = some p →
    ∀ row ∈ [(Instr.cwpctlEnable lvl p.num b, b, p.fence), (.cwpctlFence lvl p.num b, p.enable, b)],
      let w : CwPort := { p with enable := row.2.1, fence := row.2.2 }
      if row.2.2 = true ∧ p.state ≠ .fenced then
        ∃ t, exec row.1 s = .next t ∧ portMoves s t { w with state := .fenced, since := s.cycle, lanes := 0, cause := 4 }
      else if row.2.2 = false ∧ row.2.1 = false ∧ p.state ≠ .down then
        ∃ t, exec row.1 s = .next t ∧ portMoves s t { w with state := .down, since := s.cycle, lanes := 0 }
      else if row.2.2 = false ∧ row.2.1 = true ∧ p.state = .down then
        ∃ t, exec row.1 s = .next t ∧ portMoves s t { w with state := .training, since := s.cycle, lanes := 0, peer := none }
      else exec row.1 s = .next { s with ports := updBy (fun x => x.num == p.num) (fun _ => w) s.ports }) ∧
  (∀ (s : State) (p : CwPort) (lanes : BitVec 4) (serial : Word) (group : Nat), inOrder s → s.port p.num = some p →
    let up := ((List.range 4).filter fun i => lanes.getLsbD i).length
    let fenced (cause : Nat) : CwPort := { p with state := .fenced, since := s.cycle, lanes := 0, cause := cause }
    let runs : CwPort := { p with state := if up = 4 then .up else .degraded, since := s.cycle, lanes := lanes }
    let miswired : Prop := ∃ m r, m ≠ p.num ∧ m / 3 = p.num / 3 ∧ s.port m = some r ∧ (r.state = .up ∨ r.state = .degraded) ∧
      r.peer ≠ some (serial, group)
    let moves (i : Instr) (q : CwPort) : Prop := ∃ t, exec i s = .next t ∧ portMoves s t q
    (p.state = .training → s.cycle < p.since + 10000000 →
      (up < 2 → moves (.portTrainingDone p.num lanes serial group) (fenced 1)) ∧
      (2 ≤ up → miswired →
        moves (.portTrainingDone p.num lanes serial group) { fenced 2 with peer := some (serial, group) }) ∧
      (2 ≤ up → ¬miswired →
        moves (.portTrainingDone p.num lanes serial group) { runs with peer := some (serial, group) })) ∧
    (¬(p.state = .training ∧ s.cycle < p.since + 10000000) →
      exec (.portTrainingDone p.num lanes serial group) s = .next s) ∧
    (let over_ : Prop := p.state = .training ∧ (p.since + 10000000 ≤ s.cycle ∨ up < 2)
     (over_ → moves (.portTrainingTimeout p.num lanes) (fenced 1)) ∧
      (¬over_ → exec (.portTrainingTimeout p.num lanes) s = .next s)) ∧
    (let carries_ : Prop := p.state = .up ∨ p.state = .degraded
     (carries_ → moves (.retrainTrigger p.num lanes)
        { p with state := .retrain, since := s.cycle, lanes := 0, retrains := min 65535 (p.retrains + 1) }) ∧
      (¬carries_ → exec (.retrainTrigger p.num lanes) s = .next s)) ∧
    (let done_ : Prop := p.state = .retrain ∧ s.cycle ≤ p.since + 50000 ∧ 2 ≤ up
     (done_ → moves (.retrainDone p.num lanes) runs) ∧ (¬done_ → exec (.retrainDone p.num lanes) s = .next s)) ∧
    let over_ : Prop := p.state = .retrain ∧ (p.since + 50000 ≤ s.cycle ∨ up < 2)
    (over_ → moves (.retrainTimeout p.num lanes) (fenced 3)) ∧ (¬over_ → exec (.retrainTimeout p.num lanes) s = .next s)) ∧
  (∀ (s : State) (n num : Nat) (seq : Half) (image : List Byte),
    let takes : Prop := ∃ p, s.port n = some p ∧ (p.state = .up ∨ p.state = .degraded)
    (¬takes → ∀ i ∈ [Instr.ackReceive n num seq, .nakReceive n num seq, .flitReceive n image], exec i s = .next s) ∧
    (takes →
      exec (.ackReceive n num seq) s = .next { s with flows := covered s (n / 3) num seq } ∧
      (∀ f, s.flow (n / 3) num = some f → exec (.nakReceive n num seq) s = .next (sentAgain s f seq)) ∧
      (s.flow (n / 3) num = none → exec (.nakReceive n num seq) s = .next s) ∧
      (flitOf image = none → exec (.flitReceive n image) s = .next s) ∧
      ∀ x, flitOf image = some x →
        (x.kind = 4 → exec (.flitReceive n image) s = .next { s with flows := covered s (n / 3) x.flow x.ack }) ∧
        (x.kind ≠ 4 → s.flow (n / 3) x.flow = none → inOrder s →
          let usable := (List.range 36).filter fun m => m / 3 == n / 3 && (s.port m).any fun p => p.state == .up || p.state == .degraded
          let k := (s.flows.filter fun f => f.group == n / 3).length
          exec (.flitReceive n image) s = exec (.flitReceive n image) { s with flows := s.flows ++ [
            { group := n / 3, num := x.flow, home := usable[k % usable.length]?, nextSeq := 0, unacked := [], expect := 0,
              window := [], inbox := [], acked := 0xFFFFFFFF, refused := none, fails := 0, discard := false }] }) ∧
        ∀ f, s.flow (n / 3) x.flow = some f →
          let u : State := { s with flows := covered s (n / 3) x.flow x.ack }
          let g : Flow := { f with unacked := f.unacked.filter fun (y : Flit) => decide (2 ^ 31 ≤ (x.ack - y.seq).toNat) }
          ∃ t, exec (.flitReceive n image) s = .next t ∧ t = { s with ports := t.ports, flows := t.flows, stalls := t.stalls } ∧
            (x.kind = 2 → t = { u with stalls := t.stalls }) ∧
            (x.kind = 3 → t = { sentAgain u g x.seq with stalls := t.stalls }) ∧
            (x.kind ≤ 1 → arrives u t g x)) ∧
    ∀ x, flitOf image = some x ↔ image.length = 256 ∧ x.flow ≤ 4095 ∧ x.kind ≤ 4 ∧
      (x.payload.length = 32 ∨ x.payload.length = 64 ∨ x.payload.length = 96 ∨ x.payload.length = 128 ∨
        x.payload.length = 160 ∨ x.payload.length = 192 ∨ x.payload.length = 224) ∧
      (x.kind = 1 → 1 ≤ x.dtype ∧ x.dtype ≤ 4) ∧ (x.kind ≠ 1 → x.dtype = 0 ∧ x.c0 = 0 ∧ x.c1 = 0) ∧
      image.take 32 = leBytes 2 x.flow ++ leBytes 1 x.kind ++
        leBytes 1 ((if x.poison then 1 else 0) + (if x.nocheck then 2 else 0) + (if x.last then 4 else 0)) ++
        leBytes 4 x.seq.toNat ++ leBytes 8 x.c0.toNat ++ leBytes 8 x.c1.toNat ++ leBytes 2 x.payload.length ++
        leBytes 1 x.dtype ++ leBytes 1 0 ++ leBytes 4 x.ack.toNat ∧
      (image.drop 32).take x.payload.length = x.payload) ∧
  (∀ (s : State) (g : Nat), inOrder s →
    let over_ : Prop := ∃ since, findBy (fun (x : Nat × Nat) => x.1 == g) s.stalls = some (g, since) ∧
      since + 1000000 ≤ s.cycle ∧ lowestPort s g = none
    (¬over_ → exec (.groupStallTimeout g) s = .next s) ∧
    (over_ → ∃ t, exec (.groupStallTimeout g) s = .next t ∧ t.flows = s.flows.filter (fun f => f.group != g) ∧
      t = { homed s t with rings := t.rings, rxs := t.rxs, tlb := t.tlb, flows := t.flows, stalls := t.stalls } ∧
      ((s.rings.map fun r => (r.asid, r.land)).Nodup → (∀ r ∈ s.rings, (r.q.cmds.map Cmd.index).Nodup) →
        ∀ r ∈ t.rings, r.land = g / 3 → ∀ c ∈ r.q.cmds, at_ c.bytes 2 1 ≠ g) ∧
      ∀ asid c r, s.ring asid (g / 3) = some r → (s.rings.map fun r => (r.asid, r.land)).Nodup →
        (∀ x ∈ s.rings, x.land = g / 3 → x.asid = asid ∨ ∀ d ∈ x.q.cmds, at_ d.bytes 2 1 ≠ g) →
        (r.q.cmds.filter fun d => at_ d.bytes 2 1 == g) = [c] → (r.q.cmds.map Cmd.index).Nodup →
        descCompleted s { t with flows := s.flows, stalls := s.stalls } asid (g / 3) c 1 16)) ∧
  (∀ (work : UcieWork) (die : Nat) (lane : BitVec 6) (s : State), ∃ t, exec (.ucieRepair work die lane) s = .next t ∧ t = { s with errlog := t.errlog } ∧
    (s.errlog.recs.length < 4096 →
      let at' := if die ∈ [4, 5, 6, 7, 12, 13, 14, 15, 18, 19] then 63 - lane.toNat else lane.toNat
      t.errlog = { s.errlog with recs := s.errlog.recs ++ [
        { kind := 0, unit := 9, die := die, asid := 0, addr := BitVec.ofNat 64 (lane.toNat + 256 * at'), crew := 0xFFFFFFFF,
          tick := s.heartbeat }] })) ∧
  ∀ (link : UcieLink) (m : Nat) (s : State),
    ((link.modules ≤ m ∨ (link, m) ∈ s.lostModules) → exec (.ucieModuleLoss (link, m)) s = .next s) ∧
    (m < link.modules → (link, m) ∉ s.lostModules →
      let w : State := { s with lostModules := s.lostModules ++ [(link, m)] }
      let gone : Prop := (w.lostModules.filter fun x => x.1 == link).length = link.modules
      let v : State := { w with lostLinks := s.lostLinks ++ [link] }
      (¬gone → exec (.ucieModuleLoss (link, m)) s = .next w) ∧ (gone →
        (∀ d, link = .ring d → exec (.ucieModuleLoss (link, m)) s = .next v) ∧
        (∀ d, link = .base d → ∃ t, exec (.ucieModuleLoss (link, m)) s = .next t ∧
          t = { v with tasks := t.tasks, inst := t.inst, insts := t.insts } ∧
          ∀ x ∈ s.allInsts, x.die = d → x.state ≠ .ended → ∀ k, s.task x.task = some k → k.state = .running →
            ∃ k', t.task x.task = some k' ∧ k'.first ≠ none ∧ (k.first = none → k'.cause = 16) ∧
              (k'.state = .failing ∨ k'.state = .finishing)) ∧
        (∀ d, link = .landing d → inOrder s →
          let both : Prop := UcieLink.landing (d / 2 * 2) ∈ v.lostLinks ∧ .landing (d / 2 * 2 + 1) ∈ v.lostLinks
          (¬both → exec (.ucieModuleLoss (link, m)) s = .next v) ∧
          (both → ∃ t, exec (.ucieModuleLoss (link, m)) s = .next t ∧
            t = { v with ports := t.ports, flows := t.flows, stalls := t.stalls } ∧
            ∀ p, s.port p.num = some p → ∃ q, t.port p.num = some q ∧
              if p.num / 9 = d / 2 ∧ p.state ≠ .fenced then
                q.state = .fenced ∧ q.cause = 5 ∧ q.lanes = 0 ∧ q.since = s.cycle ∧ q.retrains = p.retrains ∧
                  q.enable = p.enable ∧ q.fence = p.fence ∧ ∀ f ∈ t.flows, f.home ≠ some p.num
              else q = { p with tx := q.tx })) ∧
        ∀ d, link = .harbour d → ∃ t, exec (.ucieModuleLoss (link, m)) s = .next t ∧ (∀ c, s.onDie d = [c.asid] → s.ctx c.asid = some c →
            c.state = .active → (s.crews.map Crew.id).Nodup → (s.allGangs.map Gang.ref).Nodup → faults v t c 4 16 0 0 d) ∧
          (s.onDie d = [] → t = v) ∧ ∀ asid ∈ s.onDie d, ∀ c, t.ctx asid = some c → c.state = .faulted))

namespace Sys2Proof.Safety

/-- The outstanding descriptors of a ring have completed with ABORTED, one after another (R65, R395). -/
def aborted (s u : State) (asid land : Nat) : List Cmd → Prop
  | [] => u = s
  | c :: rest => ∃ v, descCompleted s v asid land c 6 0 ∧ aborted v u asid land rest

/-- What a ring takes from its entry: fields and IDLE, or ERROR with why (R51, R52, R395). -/
def ringOpens (s : State) (q : Queue) (entry : Nat) (c : Ctx) : Prop :=
  match s.cpPhys entry 64 with
  | none => q.state = .error ∧ q.error = 4
  | some b =>
    if at_ b 0 8 % 4096 = 0 ∧ at_ b 0x10 8 % 8 = 0 ∧ 4 ≤ at_ b 8 1 ∧ at_ b 8 1 ≤ 16 ∧ at_ b 9 1 = 0 ∧ at_ b 0xB 5 = 0 ∧
        at_ b 0x30 16 = 0 then
      q.state = .idle ∧ q.error = 0 ∧ (q.ringBase, q.ringLog2, q.kind, q.prio, q.widxAddr) =
        (at_ b 0 8, at_ b 8 1, 0, min (at_ b 0xA 1) c.prioCeil, at_ b 0x10 8)
    else q.state = .error ∧ q.error = 1

/-- The write index of a ring has been read, and its descriptors fetched (R53, R54, R65, R395). -/
def ringFetched (s t : State) (asid land : Nat) (r : Ring) : Prop :=
  ringOnly s t asid land ∧ t.rxs = s.rxs ∧ ∃ x, t.ring asid land = some { r with q := x } ∧
    let q := r.q
    ((q.state = .off ∨ q.state = .halted ∨ q.state = .error) → x = q) ∧
    ((q.state = .idle ∨ q.state = .active ∨ q.state = .blocked) →
      (s.cpPhys q.widxAddr 8 = none → x = { q with state := .error, error := 4, errorIdx := q.ridx }) ∧
      ∀ b, s.cpPhys q.widxAddr 8 = some b →
        (leNat b < q.ridx ∨ q.ridx + 2 ^ q.ringLog2 < leNat b →
          x = { q with state := .error, error := 3, errorIdx := q.ridx }) ∧
        (q.ridx ≤ leNat b → leNat b ≤ q.ridx + 2 ^ q.ringLog2 → homesWf s = true → r.entry % 64 = 0 → q.ringBase % 64 = 0 →
          (∀ i, asunder (q.ringBase + 64 * (i % 2 ^ q.ringLog2)) 64 r.entry 64) →
          let at' (k : Nat) : Nat := q.ringBase + 64 * ((q.ridx + k) % 2 ^ q.ringLog2)
          let taken (n : Nat) : List Cmd := q.cmds ++ (List.range n).map fun k =>
            { index := q.ridx + k, bytes := s.homeBytes (at' k) 64, started := false, suspended := false, copied := 0,
              hurt := false }
          ((∀ k < leNat b - q.ridx, s.cpPhys (at' k) 64 ≠ none) →
            x = { q with ridx := leNat b, cmds := taken (leNat b - q.ridx),
                         state := ringRest q.state (taken (leNat b - q.ridx)) } ∧
            (q.ridx < leNat b → stores s (r.entry + 0x18) 8 → t.homeBytes (r.entry + 0x18) 8 = leBytes 8 (leNat b))) ∧
          ∀ m < leNat b - q.ridx, s.cpPhys (at' m) 64 = none → (∀ k < m, s.cpPhys (at' k) 64 ≠ none) →
            x = { q with ridx := q.ridx + m, cmds := taken m, state := .error, error := 4, errorIdx := q.ridx + m }))

/-- A ring of a landing die that has a descriptor to start (R60, R64, R395). -/
def mayStart (s : State) (land : Nat) (r : Ring) : Prop :=
  r.land = land ∧ s.ctxActive r.asid = true ∧ (r.q.state = .idle ∨ r.q.state = .active ∨ r.q.state = .blocked) ∧
    (∃ c ∈ r.q.cmds, c.started = false) ∧ (r.q.cmds.filter fun c => c.started).length < 16

/-- Two descriptors of one direction of one flow (R397). -/
def oneFlow (a b : Cmd) : Prop :=
  at_ a.bytes 2 1 = at_ b.bytes 2 1 ∧ at_ a.bytes 4 2 = at_ b.bytes 4 2 ∧ (at_ a.bytes 0 1 = 1 ↔ at_ b.bytes 0 1 = 1)

/-- A descriptor that R396 allows on a ring of a landing die. -/
def goodDescriptor (b : List Byte) (land : Nat) : Prop :=
  1 ≤ at_ b 0 1 ∧ at_ b 0 1 ≤ 3 ∧ at_ b 1 1 ≤ 4 ∧ (at_ b 0 1 = 3 → at_ b 1 1 ≠ 0) ∧ 3 * land ≤ at_ b 2 1 ∧
    at_ b 2 1 ≤ 3 * land + 2 ∧ at_ b 3 1 ≤ 1 ∧ at_ b 4 2 ≤ 4095 ∧ at_ b 6 2 = 0 ∧ at_ b 8 8 % 32 = 0 ∧
    at_ b 0x10 8 % 32 = 0 ∧ (at_ b 0 1 = 2 → at_ b 8 8 = 0) ∧ (at_ b 0 1 = 1 → at_ b 0x10 8 = 0) ∧ 32 ≤ at_ b 0x18 8 ∧
    at_ b 0x18 8 ≤ 2 ^ 40 ∧ at_ b 0x18 8 % 32 = 0 ∧ at_ b 0x20 8 % 16 = 0 ∧ ∀ x ∈ b.drop 0x30, x = 0

/-- Whether a descriptor wants FEAT_EN0.COLL, which its context has not got (R396). -/
def lacksColl (s : State) (asid : Nat) (b : List Byte) : Prop :=
  (at_ b 0 1 = 3 ∨ at_ b 1 1 ≠ 0) ∧ s.feature asid 14 = false

/-- The state with a flow at work: at its first use it is bound to the next usable port of its group (R392, R394). -/
def withFlow (s : State) (g n : Nat) : State :=
  if (s.flow g n).isSome then s
  else
    let usable := (List.range 36).filter fun m => m / 3 == g && (s.port m).any fun p => p.state == .up || p.state == .degraded
    let k := (s.flows.filter fun (f : Flow) => f.group == g).length
    { s with flows := s.flows ++ [
        { group := g, num := n, home := usable[k % usable.length]?, nextSeq := 0, unacked := [], expect := 0, window := [],
          inbox := [], acked := 0xFFFFFFFF, refused := none, fails := 0, discard := false }] }

/-- A descriptor can do nothing yet: a SEND whose flow has no port or 4,096 unacknowledged flits, a receive whose flow has
delivered nothing, either while another ring is in the middle of a message of that flow (R392, R394, R397). -/
def waits (s : State) (asid land : Nat) (c : Cmd) : Prop :=
  goodDescriptor c.bytes land ∧ ¬lacksColl s asid c.bytes ∧
    ((∃ r ∈ s.rings, r.land = land ∧ r.asid ≠ asid ∧ ∃ d ∈ r.q.cmds, oneFlow d c ∧ 0 < (s.rx r.asid r.land d.index).taken) ∨
      ∀ f, (withFlow s (at_ c.bytes 2 1) (at_ c.bytes 4 2)).flow (at_ c.bytes 2 1) (at_ c.bytes 4 2) = some f →
        if at_ c.bytes 0 1 = 1 then f.home = none ∨ 4096 ≤ f.unacked.length else f.inbox = [] ∨ f.refused ≠ none)

/-- The width of an element of a chunk type, in bytes (R396). -/
def elemBytes (dtype : Nat) : Nat := if dtype = 2 then 8 else if dtype = 4 then 2 else 4

/-- The elements of a payload (R399). -/
def elems (dtype : Nat) (b : List Byte) : List Nat :=
  (List.range (b.length / elemBytes dtype)).map fun i => at_ b (elemBytes dtype * i) (elemBytes dtype)

/-- An element that is infinite or NaN (R400). -/
def wild (dtype x : Nat) : Prop :=
  (dtype = 3 ∧ x / 2 ^ 23 % 256 = 255) ∨ (dtype = 4 ∧ x / 2 ^ 7 % 256 = 255)

/-- An element of dtype 3 or 4 in binary64, which holds it exactly. -/
def inDouble (dtype x : Nat) : Nat := (if dtype = 4 then Fmt.bf16 else Fmt.f32).convert .f64 0 false false x

/-- The checksums of the elements of a chunk (R399). -/
def linear (dtype : Nat) (xs : List Nat) : Nat × Nat :=
  if dtype ≤ 2 then
    ((xs.foldl (fun acc x => acc + x) 0) % 2 ^ (8 * elemBytes dtype),
     ((List.range xs.length).foldl (fun acc i => acc + (i + 1) * xs.getD i 0) 0) % 2 ^ (8 * elemBytes dtype))
  else
    (xs.foldl (fun acc x => Fmt.f64.add 0 false false acc (inDouble dtype x)) 0,
     xs.foldl (fun acc x => Fmt.f64.add 0 false false acc (inDouble dtype x % 2 ^ 63)) 0)

/-- The check of a RECVADD chunk (R400), in exact arithmetic for dtypes 3 and 4. -/
def sumHolds (dtype : Nat) (a b z : List Nat) (carried : Nat × Nat) : Prop :=
  linear dtype b = carried ∧
    let ca := linear dtype a
    let cz := linear dtype z
    if dtype ≤ 2 then
      cz.1 = (ca.1 + carried.1) % 2 ^ (8 * elemBytes dtype) ∧ cz.2 = (ca.2 + carried.2) % 2 ^ (8 * elemBytes dtype)
    else withinBound dtype ca carried cz = true

/-- A descriptor goes on: how far it has come, and its flow f in place of the one it had. -/
def advanced (s w : State) (asid land : Nat) (c : Cmd) (h : Flow) (x : Rx) : Prop :=
  w = { homed s w with flows := w.flows, ports := w.ports, rxs := w.rxs, tlb := w.tlb } ∧
    w.flow h.group h.num = some h ∧ (∀ g n, (g, n) ≠ (h.group, h.num) → w.flow g n = s.flow g n) ∧
    w.rx asid land c.index = x ∧ ∀ a l i, (a, l, i) ≠ (asid, land, c.index) → w.rx a l i = s.rx a l i

/-- The bytes of a flit are at their destination, marked where it is poisoned, and nothing else is written (R376, R397). -/
def flitLanded (s w : State) (pas : List Nat) (bytes : List Byte) (bad : Bool) : Prop :=
  (bad = true → ∀ a ∈ pas, inWindow a = false → (s.regionOf a).isSome = true → w.homePoison a = true) ∧
    ((∀ a ∈ pas, stores s a 1) → pas.Nodup → bytes.length = pas.length → pas.map w.homeByte = bytes) ∧ ∀ a, a ∉ pas → w.homeByte a = s.homeByte a

/-- A receive has ended in failure (R397): its flow discards up to LAST and acknowledges what it has delivered, and the
descriptor completes with a status and cause. -/
def receiveFails (s t : State) (asid land : Nat) (c : Cmd) (f : Flow) (status cause : Nat) : Prop :=
  ∃ w h, w = { s with flows := w.flows, ports := w.ports } ∧ w.flow f.group f.num = some h ∧
    (∀ g n, (g, n) ≠ (f.group, f.num) → w.flow g n = s.flow g n) ∧
    h = { f with inbox := h.inbox, discard := h.discard, acked := h.acked, refused := none, fails := 0 } ∧
    delivered f.inbox h.inbox true h.discard ∧ acknowledges s w f h ∧ descCompleted w t asid land c status cause

/-- A flit x has been taken off its flow and its bytes written; the last one completes the descriptor (R397, R398). -/
def takenOff (s t : State) (asid land : Nat) (c : Cmd) (f : Flow) (x : Flit) (pas : List Nat) (bytes : List Byte)
    (bad wild : Bool) : Prop :=
  let y := s.rx asid land c.index
  ∃ w h, advanced s w asid land c h { y with
      taken := y.taken + bytes.length, chunk := y.chunk + 1, nocheck := y.nocheck + (if wild then 1 else 0),
      firstNocheck := if wild = true ∧ y.firstNocheck = none then some y.chunk else y.firstNocheck } ∧
    h = { f with inbox := f.inbox.drop 1, fails := 0, acked := h.acked } ∧ acknowledges s w f h ∧ flitLanded s w pas bytes bad ∧
    if x.last then descCompleted w t asid land c 0 0 else t = w

/-- A chunk x fails its check (R400): it is to be sent again; the third time its destination is poisoned, a record of kind 3
and unit 9 is logged, and the descriptor fails with UE. -/
def chunkRefused (s t : State) (asid land : Nat) (c : Cmd) (f : Flow) (x : Flit) (pas : List Nat) (bytes : List Byte) : Prop :=
  if f.fails < 2 then
    t = { s with flows := t.flows, ports := t.ports } ∧
      t.flow f.group f.num = some { f with fails := f.fails + 1, refused := some x.seq } ∧
      (∀ g n, (g, n) ≠ (f.group, f.num) → t.flow g n = s.flow g n) ∧
      answers s t { f with fails := f.fails + 1, refused := some x.seq } 3 x.seq
  else
    ∃ w, w = homed s w ∧ flitLanded s w pas bytes true ∧ (s.errlog.recs.length < 4096 → ∃ r ∈ w.errlog.recs,
        (r.kind, r.unit, r.die, r.asid, r.addr) = (3, 9, 16 + land, asid, BitVec.ofNat 64 (pas.headD 0))) ∧
      receiveFails w t asid land c f 1 16

/-- Bytes read at their L2 homes: whether a sector of them arrives poisoned or fails its check value (R377, R378). -/
def arrivesBad (s : State) (pas : List Nat) : Prop :=
  ∃ a ∈ pas, s.homePoison (a / 32 * 32) = true ∨ s.checkFails (a / 32 * 32) = true

/-- What a descriptor that need not wait does (R391, R396 to R400). -/
def moves (s t : State) (asid land : Nat) (c : Cmd) : Prop :=
  let b := c.bytes
  let group := at_ b 2 1
  let num := at_ b 4 2
  let dtype := at_ b 1 1
  let fails (e : Cause) : Nat × Nat := if e = .ue then (1, 16) else (3, 0)
  (¬goodDescriptor b land → descCompleted s t asid land c 2 0) ∧
    (goodDescriptor b land → lacksColl s asid b → descCompleted s t asid land c 4 0) ∧
    (goodDescriptor b land → ¬lacksColl s asid b →
      let u := withFlow s group num
      let y := s.rx asid land c.index
      ∀ f, u.flow group num = some f →
        (at_ b 0 1 = 1 → ∀ m, f.home = some m →
          let n := min 224 (at_ b 0x18 8 - y.taken)
          (∀ e v, u.cpResolve asid (at_ b 8 8 + y.taken) n .read = (.error e, v) →
            descCompleted v t asid land c (fails e.1).1 (fails e.1).2) ∧
          ∀ pas v, u.cpResolve asid (at_ b 8 8 + y.taken) n .read = (.ok pas, v) →
            let payload := pas.map s.homeByte
            let sums := if dtype = 0 then (0, 0) else linear dtype (elems dtype payload)
            ∃ w h x, advanced u w asid land c h { y with taken := y.taken + n, chunk := y.chunk + 1 } ∧
              (x.poison = true ↔ arrivesBad s pas) ∧
              (x.nocheck = true ↔ dtype ≠ 0 ∧ ∃ e ∈ elems dtype payload, wild dtype e) ∧
              x = { flow := num, kind := if dtype = 0 then 0 else 1, poison := x.poison, nocheck := x.nocheck,
                    last := y.taken + n == at_ b 0x18 8, seq := f.nextSeq, c0 := BitVec.ofNat 64 sums.1,
                    c1 := BitVec.ofNat 64 sums.2, dtype := dtype, ack := f.acked, payload := payload } ∧
              h = { f with nextSeq := f.nextSeq + 1, unacked := f.unacked ++ [x] } ∧
              w.ports = updBy (fun (p : CwPort) => p.num == m) (fun p => { p with tx := p.tx ++ [Machine.Flit.image x] }) s.ports ∧
              (∀ a, w.homeByte a = s.homeByte a) ∧
              if y.taken + n = at_ b 0x18 8 then descCompleted w t asid land c 0 0 else t = w) ∧
        (at_ b 0 1 ≠ 1 → ∀ x rest, f.inbox = x :: rest →
          let n := x.payload.length
          let good : Prop := x.kind = (if dtype = 0 then 0 else 1) ∧ x.dtype = dtype ∧ y.taken + n ≤ at_ b 0x18 8 ∧
            (x.last = true ↔ y.taken + n = at_ b 0x18 8)
          (¬good → receiveFails u t asid land c f 1 2) ∧
          (good →
            (∀ e v, u.cpResolve asid (at_ b 0x10 8 + y.taken) n .write = (.error e, v) →
              receiveFails v t asid land c f (fails e.1).1 (fails e.1).2) ∧
            ∀ pas v, u.cpResolve asid (at_ b 0x10 8 + y.taken) n .write = (.ok pas, v) →
              let xs := elems dtype x.payload
              let carried := (x.c0.toNat, x.c1.toNat)
              (at_ b 0 1 = 2 → ∀ k : Bool, (k = true ↔ ∃ e ∈ xs, wild dtype e) →
                ((dtype = 0 ∨ k = true ∨ linear dtype xs = carried) →
                  takenOff v t asid land c f x pas x.payload x.poison k) ∧
                (¬(dtype = 0 ∨ k = true ∨ linear dtype xs = carried) → chunkRefused v t asid land c f x pas x.payload)) ∧
              (at_ b 0 1 = 3 →
                (∀ e v', v.cpResolve asid (at_ b 8 8 + y.taken) n .read = (.error e, v') →
                  receiveFails v' t asid land c f (fails e.1).1 (fails e.1).2) ∧
                ∀ src v', v.cpResolve asid (at_ b 8 8 + y.taken) n .read = (.ok src, v') →
                  let as := elems dtype (src.map s.homeByte)
                  let z := (as.zip xs).map fun p =>
                    if dtype ≤ 2 then (p.1 + p.2) % 2 ^ (8 * elemBytes dtype)
                    else (if dtype = 4 then Fmt.bf16 else Fmt.f32).add 0 false false p.1 p.2
                  let out := z.flatMap fun e => leBytes (elemBytes dtype) e
                  ∀ bad k : Bool, (bad = true ↔ x.poison = true ∨ arrivesBad s src) →
                    (k = true ↔ ∃ e ∈ as ++ xs ++ z, wild dtype e) →
                    ∃ v'', v'' = { v' with errlog := v''.errlog } ∧
                      ((k = true ∨ sumHolds dtype as xs z carried) → takenOff v'' t asid land c f x pas out bad k) ∧
                      (¬(k = true ∨ sumHolds dtype as xs z carried) → chunkRefused v'' t asid land c f x pas out)))))

end Sys2Proof.Safety

/-- A CWRING write from host S or M ends with ABORTED what the ring of that context and landing die had outstanding, and
removes it or registers it with its entry, IDLE where the context is ACTIVE and the entry good, in ERROR where it is
not. CW_RING_POLL reads the write index and takes every descriptor up to it. SEND, RECV and RECVADD act on the first
started descriptor of their kind that heads its flow and need not wait: a malformed one completes BADCMD, one whose
feature is off FEATURE; a SEND puts one flit of up to 224 bytes with its checksums on the wire and in the retransmit
buffer; a RECV or RECVADD takes the flit its flow has delivered, checks it and writes it, or asks for it again, or the
third time poisons its destination and fails; a message of the wrong kind or length fails with OPND. With none to act
on, the arbiter may start the next descriptor. The last flit completes the descriptor. (The model's choices among these:
one flit a step, log 56; failures inside a message, log 57; when the check is left out, log 58; removal as ABORTED, log
60; where the round robin begins, log 76.) (R51, R52, R53, R54, R64, R65, R395, R396, R397, R398, R399, R400). -/
def Obligations.RingsMoveData : Prop :=
  (∀ (lvl : HostLevel) (value : Word) (s : State),
    exec (.cwringWrite .u value) s = .next { s with reply := .fault } ∧ (lvl ≠ .u →
      let asid := value.toNat / 2 ^ 52
      let land := value.toNat % 4
      let entry := value.toNat / 64 % 2 ^ 46 * 64
      let cmds := match s.ring asid land with
        | some r => r.q.cmds
        | none => []
      (cmds.map Cmd.index).Nodup → ∃ t u, exec (.cwringWrite lvl value) s = .next t ∧ aborted s u asid land cmds ∧
        (∀ a l, (a, l) ≠ (asid, land) → t.ring a l = s.ring a l) ∧ t.cwring = value &&& 0xFFFFFFFFFFFFFFC3 ∧
        t = { homed u t with rings := t.rings, cwring := t.cwring } ∧
        ((entry = 0 ∨ s.ctx asid = none) → t.ring asid land = none ∧ ∀ a, t.homeByte a = u.homeByte a) ∧
        ∀ c, entry ≠ 0 → s.ctx asid = some c → ∃ q, t.ring asid land = some { asid := asid, land := land, entry := entry, q := q } ∧
          q.cmds = [] ∧ q.ridx = 0 ∧ q.failed = false ∧ q.errorIdx = 0 ∧ (s.ctxActive asid = false → q.state = .off) ∧
          (s.ctxActive asid = true → ringOpens u q entry c ∧ (q.state = .idle → stores u (entry + 0x18) 12 →
            t.homeBytes (entry + 0x18) 8 = leBytes 8 0 ∧ t.homeBytes (entry + 0x20) 4 = leBytes 4 1)))) ∧
  (∀ (s : State) (asid land : Nat), (s.ctxActive asid = false → exec (.cwRingPoll asid land) s = .next s) ∧
    ∀ r, s.ctxActive asid = true → s.ring asid land = some r →
      ∃ t, exec (.cwRingPoll asid land) s = .next t ∧ ringFetched s { t with stalls := s.stalls } asid land r) ∧
  (∀ (s : State) (land : Nat) (p : Nat × Nat), s.arbitrateRings land = some p →
    ∃ r ∈ s.rings, r.asid = p.2 ∧ mayStart s land r ∧ p.1 = 256 * (land + 1) + r.q.prio ∧
      (∀ x ∈ s.rings, mayStart s land x → x.q.prio ≤ r.q.prio) ∧
      let last := ((findBy (fun (y : Nat × Nat) => y.1 == p.1) s.rr).map fun y => y.2 + 1).getD 0
      ∀ x ∈ s.rings, mayStart s land x → x.q.prio = r.q.prio →
        (last ≤ p.2 → last ≤ x.asid → p.2 ≤ x.asid) ∧ (p.2 < last → x.asid < last ∧ p.2 ≤ x.asid)) ∧
  ∀ row ∈ ([(.send, fun k => k = 1), (.recv, fun k => k = 2), (.recvadd, fun k => k ≠ 1 ∧ k ≠ 2)] :
      List ((Nat → Nat → Instr) × (Nat → Prop))),
    ∀ (s : State) (asid land : Nat) (r : Ring), s.ring asid land = some r →
      s.ports.map CwPort.num = List.range 36 → (r.q.cmds.map Cmd.index).Nodup →
      let takes (c : Cmd) : Prop := row.2 (at_ c.bytes 0 1)
      let heads (pre : List Cmd) (c : Cmd) : Prop := ∀ d ∈ pre, ¬oneFlow d c
      let go : Prop := s.ctxActive asid = true ∧ r.q.state ≠ .off ∧ r.q.state ≠ .halted
      (¬go → exec (row.1 asid land) s = .next s) ∧
      (go → ∀ pre c post, r.q.cmds = pre ++ c :: post → c.started = true → takes c → heads pre c → ¬waits s asid land c →
        (∀ pre' d post', pre = pre' ++ d :: post' → d.started = true → takes d → heads pre' d → waits s asid land d) →
        ∃ t, exec (row.1 asid land) s = .next t ∧ moves s { t with stalls := s.stalls } asid land c) ∧
      (go → (∀ pre c post, r.q.cmds = pre ++ c :: post → c.started = true → takes c → heads pre c → waits s asid land c) →
        (∀ pre c post prio, s.arbitrateRings land = some (prio, asid) → mayStart s land r → r.q.cmds = pre ++ c :: post →
          (∀ d ∈ pre, d.started = true) → c.started = false → takes c →
          let l := updBy (fun (x : Cmd) => x.index == c.index) (fun x => { x with started := true }) r.q.cmds
          let w (u : State) : Prop := ringOnly { s with rr := (prio, asid) :: s.rr.filter fun x => x.1 != prio } u asid land ∧
            u.ring asid land = some { r with q := { r.q with cmds := l, state := ringRest r.q.state l } } ∧
            ∀ a, a < r.entry + 0x20 ∨ r.entry + 0x24 ≤ a → u.homeByte a = s.homeByte a
          ∃ t u, exec (row.1 asid land) s = .next t ∧ w u ∧
            (heads pre c → ¬waits u asid land c → moves u { t with stalls := s.stalls } asid land { c with started := true }) ∧
            (¬(heads pre c ∧ ¬waits u asid land c) → { t with stalls := s.stalls } = u)) ∧
        ((s.arbitrateRings land = none ∨ (∃ p, s.arbitrateRings land = some p ∧ p.2 ≠ asid) ∨
            ∃ c, findBy (fun (c : Cmd) => !c.started) r.q.cmds = some c ∧ ¬takes c) →
          ∃ t, exec (row.1 asid land) s = .next t ∧ t = { s with stalls := t.stalls }))

namespace Sys2Proof.Safety

/-- A value returned to a host core: its x register, x0 apart, and the answer (R401). -/
def hostTook (s : State) (a : HostAcc) (x : Word) : State :=
  { s with
    hosts := updBy (fun (h : HostCore) => h.num == a.core) (fun h =>
      { h with x := if a.reg = 0 then h.x else h.x.set a.reg x }) s.hosts
    reply := .value x }

/-- A host store: its bytes at their homes, nothing else there changed, and the reservations of other cores on a doubleword
it writes to broken (R401). -/
def hostPut (s t : State) (a : HostAcc) (x : Word) : Prop :=
  let pa := a.addr.toNat
  t = { homed s t with hosts := t.hosts, reply := .none } ∧
    t.hosts = s.hosts.map (fun h =>
      if h.num ≠ a.core ∧ ∃ d, h.reserved = some d ∧ pa < 8 * d + 8 ∧ 8 * d < pa + a.size then { h with reserved := none } else h) ∧
    (stores s pa a.size → t.homeBytes pa a.size = leBytes a.size x.toNat) ∧
    ∀ b, b < pa ∨ pa + a.size ≤ b → t.homeByte b = s.homeByte b

/-- The new value of an atomic of a host core on 4 or 8 bytes, from the old one, extended with its sign (R401). -/
def amoResult (op : HostAmo) (n : Nat) (old data : Word) : Word :=
  let b : Word := if n = 4 then (data.setWidth 32).signExtend 64 else data
  match op with
  | .swap => b
  | .add => old + b
  | .xor => old ^^^ b
  | .and => old &&& b
  | .or => old ||| b
  | .min => if old.toInt < b.toInt then old else b
  | .max => if old.toInt < b.toInt then b else old
  | .minu => if old.toNat < b.toNat then old else b
  | .maxu => if old.toNat < b.toNat then b else old

/-- Whether a level may touch an offset of the harbour control block (R402). -/
def reaches (lvl : HostLevel) (o : Nat) (write : Bool) : Prop :=
  (o < 0x10000 ∧ lvl ≠ .u) ∨ (0x10000 ≤ o ∧ o < 0x20000 ∧ lvl = .m) ∨
    (0x20000 ≤ o ∧ o < 0x30000 ∧ (lvl = .m ∨ (lvl = .s ∧ write = false)))

/-- An offset of the block that no port lists (R402). -/
def unlisted (o : Nat) : Prop :=
  o < 0x30000 ∧ ¬(o < 0x38 ∨ (0x4000 ≤ o ∧ o < 0x4020) ∨ (0x8000 ≤ o ∧ o < 0x8240) ∨ o = 0x8400 ∨ o = 0x10000 ∨
    (0x11000 ≤ o ∧ o < 0x11400) ∨ (0x12000 ≤ o ∧ o < 0x12400) ∨ (0x20000 ≤ o ∧ o < 0x20020))

/-- What some registers of the block read as (R9, R33, R50, R55, R226, R361, R373, R389, R402, R405, R407); a read of an
offset that is not listed gives 0. ERRLOG_POP, whose read changes the log, has its own statement. -/
def blockReads (s : State) (o : Nat) (x : Word) : Prop :=
  let bit (b : Bool) (n : Nat) : Nat := if b then 2 ^ n else 0
  (o = 0x08 ∧ s.cp.code < 256 ∧ s.cp.asid < 4096 ∧
      x = BitVec.ofNat 64 (bit s.cp.busy 0 + bit s.cp.overrun 1 + 2 ^ 8 * s.cp.code + 2 ^ 16 * s.cp.asid)) ∨
    (o = 0x18 ∧ x = BitVec.ofNat 64 s.cp.drain) ∨ (o = 0x20 ∧ x = s.cp.tlbiVa) ∨
    (o = 0x30 ∧ x = BitVec.ofNat 64 (s.cp.tlbiMissing.toNat + bit s.cp.tlbiOverrun 17)) ∨
    (o = 0x4000 ∧ x = s.dbg.sel) ∨ (o = 0x4010 ∧ x = BitVec.ofNat 64 (bit s.dbg.busy 0 + 2 ^ 8 * s.dbg.code) ∧ s.dbg.code < 256) ∨
    (o = 0x4018 ∧ x = s.dbg.data) ∨ (o = 0x8400 ∧ x = s.cwring) ∨
    (∃ p, s.port p.num = some p ∧ o = 0x8000 + 16 * p.num ∧ p.num < 36 ∧
      x = BitVec.ofNat 64 (bit p.enable 0 + bit p.fence 1)) ∨
    (o = 0x20000 ∧ x = BitVec.ofNat 64 s.pwr.limit) ∨
    (o = 0x20008 ∧ s.pwr.power < 4096 ∧ s.pwr.level < 16 ∧ s.pwr.tmax < 256 ∧
      x = BitVec.ofNat 64 (s.pwr.power + 2 ^ 32 * s.pwr.level + 2 ^ 48 * s.pwr.tmax)) ∨
    (o = 0x20010 ∧ s.errlog.recs.length ≤ 4096 ∧ s.errlog.head < 4096 ∧ s.errlog.lost < 65536 ∧
      x = BitVec.ofNat 64 (s.errlog.recs.length + 2 ^ 16 * s.errlog.head + 2 ^ 48 * s.errlog.lost)) ∨
    (unlisted o ∧ o % 8 = 0 ∧ x = 0)

end Sys2Proof.Safety

/-- A host access of 1, 2, 4 or 8 bytes below 2^52 outside every target faults and writes nothing; a load of data that
is poisoned or fails its check faults and writes no register; otherwise a load extends its bytes into its register, a
store writes them at their homes and breaks the reservations of other cores, an atomic does both, a load-reserve takes
and a store-conditional needs the reservation of its doubleword. The control block takes aligned accesses of 8 bytes
from the levels of its rows; the registers with no command take their fields, W1C bits clear, read-only and unlisted
offsets ignore writes, and the command registers act as their instructions. ERRLOG_POP returns a record in four reads.
PWRCTL clamps its limit, for Host M and the management port. (What a reservation covers and how atomics extend their
values is RISC-V's, presumed: log 66; that the block ends at 0x30000: log 61.) (R9, R377, R378, R401, R402, R405, R406,
R407). -/
def Obligations.HostAccesses : Prop :=
  (∀ (a : HostAcc) (s : State),
    let w : State := { s with
      hosts := updBy (fun (h : HostCore) => h.num == a.core) (fun h => { h with running := true, level := a.lvl }) s.hosts }
    let pa := a.addr.toNat
    let there : Prop := ∀ i < a.size, w.covered (pa + i) = true
    let whole : Prop := (a.size = 4 ∨ a.size = 8) ∧ pa % a.size = 0
    let faults_ : Prop := exec (.hostAccess a) s = .next { w with reply := .fault }
    let value (v : State) : Nat := leNat (v.homeBytes pa a.size)
    let signed (v : State) : Word := (BitVec.ofNat (8 * a.size) (value v)).signExtend 64
    let bad (v : State) : Prop := ∃ i < a.size, v.homePoison ((pa + i) / 32 * 32) = true ∨ v.checkFails ((pa + i) / 32 * 32) = true
    ((16 ≤ a.core ∨ a.size ∉ [1, 2, 4, 8]) → faults_) ∧
    (a.core < 16 → a.size ∈ [1, 2, 4, 8] → pa < 2 ^ 52 →
      (¬there → faults_) ∧ ((∀ sg, a.op ≠ .load sg) → (∀ x, a.op ≠ .store x) → ¬whole → faults_) ∧
      (there → ∃ v, onlyCaches w v ∧
        ((∀ x, a.op ≠ .store x) → (∀ x, a.op ≠ .conditional x) → ((∃ sg, a.op = .load sg) ∨ whole) → bad v →
          ∃ t, exec (.hostAccess a) s = .next t ∧ t.reply = .fault ∧ t = { v with errlog := t.errlog, reply := t.reply }) ∧
        (∀ sg, a.op = .load sg → ¬bad v → exec (.hostAccess a) s =
          .next (hostTook v a (if sg then signed v else BitVec.ofNat 64 (value v)))) ∧
        (∀ x, a.op = .store x → ∃ t, exec (.hostAccess a) s = .next t ∧ hostPut v t a x ∧ t.reply = .none) ∧
        (∀ op x, a.op = .amo op x → whole → ¬bad v → ∃ t u, exec (.hostAccess a) s = .next t ∧
          hostPut v u a (amoResult op a.size (signed v) x) ∧ t = hostTook u a (signed v)) ∧
        (a.op = .reserve → whole → ¬bad v → exec (.hostAccess a) s = .next (hostTook { v with
            hosts := updBy (fun (h : HostCore) => h.num == a.core) (fun h => { h with reserved := some (pa / 8) }) v.hosts }
          a (signed v))) ∧
        ∀ x, a.op = .conditional x → whole →
          let gone : State := { v with
            hosts := updBy (fun (h : HostCore) => h.num == a.core) (fun h => { h with reserved := none }) v.hosts }
          ((∃ h ∈ w.hosts, h.num = a.core ∧ h.reserved = some (pa / 8)) →
            ∃ t u, exec (.hostAccess a) s = .next t ∧ hostPut gone u a x ∧ t = hostTook u a 0) ∧
          ((∀ h ∈ w.hosts, h.num = a.core → h.reserved ≠ some (pa / 8)) →
            ∃ t, exec (.hostAccess a) s = .next t ∧ t = hostTook { gone with l2 := w.l2 } a 1))) ∧
    (a.core < 16 → a.size ∈ [1, 2, 4, 8] → 2 ^ 52 ≤ pa →
      ((a.size ≠ 8 ∨ ((∀ sg, a.op ≠ .load sg) ∧ ∀ x, a.op ≠ .store x)) → faults_) ∧
      (a.size = 8 → (∀ x, a.op = .store x → exec (.hostAccess a) s = exec (.registerWrite a.lvl a.addr x) w) ∧
        ∀ sg, a.op = .load sg →
          (¬(0x0080000000000000 ≤ pa ∧ pa % 8 = 0 ∧ reaches a.lvl (pa - 0x0080000000000000) false) → faults_) ∧
          (0x0080000000000000 ≤ pa → pa % 8 = 0 → reaches a.lvl (pa - 0x0080000000000000) false →
            ∀ x, blockReads w (pa - 0x0080000000000000) x → exec (.hostAccess a) s = .next (hostTook w a x))))) ∧
  (∀ (lvl : HostLevel) (o : Nat) (x : Word) (s : State), o < 2 ^ 55 →
    let put (t : State) : Prop :=
      exec (.registerWrite lvl (BitVec.ofNat 64 (0x0080000000000000 + o)) x) s = .next { t with reply := .none }
    ((o % 8 ≠ 0 ∨ ¬reaches lvl o true) →
      exec (.registerWrite lvl (BitVec.ofNat 64 (0x0080000000000000 + o)) x) s = .next { s with reply := .fault }) ∧
    (o % 8 = 0 → reaches lvl o true →
      (o = 0x08 → put { s with cp := { s.cp with overrun := s.cp.overrun && !x.getLsbD 1 } }) ∧
      (o = 0x18 → put { s with cp := { s.cp with drain := max 1000 (min 1000000 (x.toNat % 2 ^ 32)) } }) ∧
      (o = 0x20 → put { s with cp := { s.cp with tlbiVa := BitVec.ofNat 64 (x.toNat % 2 ^ 57) } }) ∧
      (o = 0x30 → put { s with cp := { s.cp with tlbiOverrun := s.cp.tlbiOverrun && !x.getLsbD 17 } }) ∧
      (o = 0x4000 → put { s with dbg := { s.dbg with sel := BitVec.ofNat 64 (x.toNat % 2 ^ 17) } }) ∧
      (o = 0x4018 → put { s with dbg := { s.dbg with data := x } }) ∧
      (0x11000 ≤ o → o < 0x11400 → ∀ e, s.rgn.stage[(o - 0x11000) / 16]? = some e →
        put { s with rgn := { s.rgn with
          stage := s.rgn.stage.set ((o - 0x11000) / 16) (if o % 16 = 0 then { e with base := x }
           else { e with size := x.setWidth 32, pcOff := x.extractLsb' 32 16, mode := x.extractLsb' 48 8,
                         stack := x.extractLsb' 56 8 }) } }) ∧
      (o = 0x20000 → put { s with pwr := { s.pwr with limit := max 600 (min 1800 (x.toNat % 4096)) } }) ∧
      (∀ e ∈ [(0x10, Instr.doorbell lvl x), (0x8400, .cwringWrite lvl x)], o = e.1 →
        ∃ t, exec e.2 s = .next t ∧ put t) ∧
      (o = 0x10000 → (x.getLsbD 1 = true → ∃ t, exec (.regionCommit lvl) s = .next t ∧ put t) ∧
        (x.getLsbD 1 = false → put s)) ∧
      (∀ op ∈ [(1, Instr.create), (2, .enable), (3, .quiesce), (4, .resume), (5, .destroy)], o = 0 → x.toNat % 16 = op.1 →
        ∃ t, exec (op.2 lvl x) s = .next t ∧ put t) ∧
      ((o = 0x4010 ∨ o = 0x20008 ∨ o = 0x20010 ∨ o = 0x20018 ∨ (0x12000 ≤ o ∧ o < 0x12400) ∨
          (0x8000 ≤ o ∧ o < 0x8240 ∧ o % 16 = 8) ∨ unlisted o) → put s))) ∧
  (∀ s : State, exec (.errlogPop .u) s = .next { s with reply := .fault } ∧ ∀ lvl, lvl ≠ .u →
    (s.errlog.recs = [] → exec (.errlogPop lvl) s = .next { s with reply := .value 0 }) ∧
    ∀ r rest, s.errlog.recs = r :: rest →
      let part : Word := match s.errlog.reads with
        | 0 => BitVec.ofNat 64 (r.kind + 2 ^ 8 * r.unit + 2 ^ 16 * r.die + 2 ^ 32 * r.asid)
        | 1 => r.addr
        | 2 => r.crew.setWidth 64
        | _ => r.tick
      r.kind < 256 → r.unit < 256 → r.die < 256 → r.asid < 65536 → exec (.errlogPop lvl) s = .next { s with
        reply := .value part,
        errlog := if s.errlog.reads < 3 then { s.errlog with reads := s.errlog.reads + 1 }
          else { s.errlog with recs := rest, head := (s.errlog.head + 1) % 4096, reads := 0 } }) ∧
  ∀ (value : Word) (s : State),
    (∀ lvl, lvl ≠ .m → exec (.pwrctlWrite (.host lvl) value) s = .next { s with reply := .fault }) ∧
    ∀ src ∈ [PwrSource.host .m, .port], exec (.pwrctlWrite src value) s =
      .next { s with pwr := { s.pwr with limit := max 600 (min 1800 (value.toNat % 4096)) }, reply := .none }

namespace Sys2Proof.Safety

/-- The row of R375 that a storage array belongs to; none for what only a check value or a comparison finds. -/
def arrayOf : ErrorSite → Option Nat
  | .laneReg _ _ _ => some 0
  | .kReg _ _ => some 1
  | .specialReg _ _ => some 1
  | .l1 _ _ => some 2
  | .l2 _ => some 3
  | .multicastBuffer _ _ _ => some 3
  | .bankRow _ _ _ => some 4
  | .column _ _ _ => some 5
  | .dram _ => some 6
  | .baseSram _ _ _ => some 7
  | .saveArea _ _ => some 8
  | .checkValue _ _ => none
  | .compute _ _ _ _ _ _ => none

/-- What an uncorrectable error leaves marked where it strikes (R375). -/
def struck (s t : State) : ErrorSite → Prop
  | .laneReg r slot lane => t = { s with errlog := t.errlog, g := t.g, gangs := t.gangs } ∧
      ∀ g, s.gang r = some g → t.gang r = some { g with vPoison := (slot, lane) :: g.vPoison }
  | .kReg r n => t = { s with errlog := t.errlog, g := t.g, gangs := t.gangs } ∧ ∀ g, s.gang r = some g →
      ∃ h, t.gang r = some h ∧ h = { g with kPoison := h.kPoison } ∧ ∀ m, m ∈ h.kPoison ↔ m ∈ g.kPoison ∨ (m = n ∧ n ≠ 0)
  | .specialReg r n => t = { s with errlog := t.errlog, g := t.g, gangs := t.gangs } ∧ ∀ g, s.gang r = some g →
      ∃ h, t.gang r = some h ∧ h = { g with srPoison := h.srPoison } ∧ ∀ m, m ∈ h.srPoison ↔ m ∈ g.srPoison ∨ m = n
  | .l1 core line => t = { s with errlog := t.errlog, cores := t.cores } ∧
      (t.core core).l1 = dropBy (fun (l : Line) => l.num == line) (s.core core).l1
  | .l2 pa => t = { s with errlog := t.errlog, l2 := t.l2 } ∧ (homesWf s = true → (∀ a, t.homeByte a = s.homeByte a) ∧
      (stores s pa 1 → ∀ a, t.homePoison a = true ↔ s.homePoison a = true ∨ (a / 32 = pa / 32 ∧ inWindow a = false)))
  | .dram pa => t = { s with errlog := t.errlog, poison := t.poison } ∧ (inWindow pa = false → ∀ p, s.placeOf pa = some p →
      ∀ x, x ∈ t.poison ↔ x ∈ s.poison ∨ x = p / 32)
  | .saveArea id chunk => t = { s with errlog := t.errlog, crews := t.crews } ∧
      ∀ c, s.crew id = some c → t.crew id = some { c with saveBad := some chunk }
  | .baseSram die core off => t = { s with errlog := t.errlog, inst := t.inst, insts := t.insts } ∧
      (131072 ≤ off → t.allInsts = s.allInsts.map fun x =>
        if x.die = die ∧ x.core = core ∧ x.state = .saved then { x with saveUe := true } else x) ∧
      (off < 131072 → ∀ x ∈ t.allInsts, x.die = die → x.core = core → x.state = .running → off / 32 ∈ x.poison)
  | .bankRow core site row => t = { s with errlog := t.errlog, crews := t.crews } ∧
      ∀ id h p, s.bankAt core site = some (id, h) → s.page id h = some p →
        ∃ q, t.page id h = some q ∧ q = { p with poison := q.poison } ∧ ∀ r, r ∈ q.poison ↔ r ∈ p.poison ∨ r = row
  | .column core site _ => t = { s with errlog := t.errlog, crews := t.crews } ∧ (s.bankAt core site = none → t.crews = s.crews)
  | .multicastBuffer _ _ _ => t = { s with errlog := t.errlog, multicast := t.multicast } ∧
      t.multicast.map (fun b => { b with poison := [] }) = s.multicast.map (fun b => { b with poison := [] })
  | _ => True

/-- The first image of a bundle that does not verify: its signature over its hash is bad, or its version is below the
rollback counter (R403). A bundle with no image is bad at 0. -/
def badImage (s : State) (b : Bundle) (i : Nat) : Prop :=
  let bad (x : Image) : Prop := Config.signatureValid (Config.sha3 x.bytes) x.signature = false ∨ x.version < s.rollback
  (b.images = [] ∧ i = 0) ∨ ((∃ x, b.images[i]? = some x ∧ bad x) ∧ ∀ j < i, ∀ x, b.images[j]? = some x → ¬bad x)

/-- An entry of a region table that keeps R222 and R223: its base and size, where it lies on its channels, its mode and
stack, and no overlap with another entry in use or with the harbour window. -/
def goodEntry (st : List RgnEntry) (i : Nat) (e : RgnEntry) : Prop :=
  let mode := e.mode.toNat % 4
  let n := e.size.toNat * 2 ^ 20
  let unit := if mode = 1 then 2 ^ 30 else if mode = 2 then 2 ^ 27 else 2 ^ 21
  let foot := if mode = 1 then n / 512 else if mode = 2 then n / 64 else n
  e.base.toNat % unit = 0 ∧ n ≠ 0 ∧ n % unit = 0 ∧ e.base.toNat + n ≤ 2 ^ 52 ∧ e.pcOff.toNat ≤ 511 ∧
    e.pcOff.toNat * 2 ^ 21 + foot ≤ 2 ^ 30 ∧ (mode = 3 ∨ e.mode.toNat < 4) ∧ e.stack.toNat < 8 ∧ (mode = 1 → e.stack = 0) ∧
    (e.base.toNat + n ≤ 2 ^ 36 - 2 ^ 20 ∨ 2 ^ 36 ≤ e.base.toNat) ∧
    ∀ j x, j ≠ i → st[j]? = some x → x.mode.toNat % 4 ≠ 0 →
      e.base.toNat + n ≤ x.base.toNat ∨ x.base.toNat + x.size.toNat * 2 ^ 20 ≤ e.base.toNat

/-- A line in a range that a commit changes: one that an entry covers in the active or in the staged table, where the two
differ (R227). -/
def changing (s : State) (num : Nat) : Prop :=
  ∃ (i : Nat) (x y : RgnEntry), s.rgn.active[i]? = some x ∧ s.rgn.stage[i]? = some y ∧ x ≠ y ∧
    ∃ e : RgnEntry, e ∈ [x, y] ∧ e.mode.toNat % 4 ≠ 0 ∧ e.base.toNat ≤ num * 128 ∧ num * 128 < e.base.toNat + e.size.toNat * 2 ^ 20

end Sys2Proof.Safety

/-- SOFT_ERROR of a storage array appends a record with its unit and die; a corrected one changes nothing else, an
uncorrectable one marks what it strikes. THROTTLE_ADJUST moves the level by one at most every 100 µs; a thermal trip at
115 °C appends a record and loses all volatile state. PACKAGE_RESET with a bundle whose images all verify trains the
modules, commits the platform table and releases host core 0; with a bad one it stops with BOOTFAIL and the index.
ATTESTATION_REQUEST returns the signed report; FIRMWARE_STAGE keeps a bundle that verifies; MGMT_READ answers;
HEARTBEAT_TICK counts. A region commit from Host M is refused with code 1 or 2, or writes the lines of the changed
ranges back, empties every L1 and goes on; its completion puts the staged table in force. (The model's choices among
these: what a reset keeps, log 62; L1 errors as corrected, log 64; a platform table that is refused, log 8; the order of
the two refusals of a commit, log 51.) (R27, R222, R226, R227, R375, R384, R403, R404, R406, R408). -/
def Obligations.ErrorsBootAndManagement : Prop :=
  (∀ (e : ErrorSite) (n : Nat) (s : State), arrayOf e = some n → (s.errlog.recs.length < 4096) → ∀ corrected,
    ∃ t r, exec (.softError e corrected) s = .next t ∧ t.errlog = { s.errlog with recs := s.errlog.recs ++ [r] } ∧
      r.unit = n ∧ r.kind = (if corrected = true ∨ n = 2 then 0 else 1) ∧ r.tick = s.heartbeat ∧
      (corrected = true → t = { s with errlog := t.errlog }) ∧ (corrected = false → struck s t e)) ∧
  (∀ (power : BitVec 12) (tmax : BitVec 8) (s : State),
    (s.cycle < s.pwr.nextAdjust → exec (.throttleAdjust power tmax) s = .next s) ∧
    (s.pwr.nextAdjust ≤ s.cycle → exec (.throttleAdjust power tmax) s = .next { s with pwr := {
        limit := s.pwr.limit, power := power.toNat, tmax := tmax.toNat, nextAdjust := s.pwr.nextAdjust + 100000,
        level := if s.pwr.limit < power.toNat ∨ 105 ≤ tmax.toNat then min 12 (s.pwr.level + 1)
          else if power.toNat * 100 < 95 * s.pwr.limit ∧ tmax.toNat < 100 then s.pwr.level - 1 else s.pwr.level } })) ∧
  (∀ s : State, (s.pwr.tmax < 115 → exec .thermalTrip s = .next s) ∧ (115 ≤ s.pwr.tmax → ∃ t, exec .thermalTrip s = .next t ∧
    t = { State.reset with
      agenda := s.agenda, free := s.free, nextId := s.nextId, serial := s.serial, harvest := s.harvest,
      rollback := s.rollback, flash := s.flash, staged := s.staged, errlog := t.errlog, lostLinks := s.lostLinks,
      lostModules := s.lostModules, boot := .off } ∧
    (s.errlog.recs.length < 4096 → ∃ r, t.errlog = { s.errlog with recs := s.errlog.recs ++ [r] }))) ∧
  (∀ s : State,
    let b := s.staged.getD s.flash
    let on : Bool := s.boot != .off
    let a : State := { State.reset with
      agenda := s.agenda, free := s.free, nextId := s.nextId, serial := s.serial, harvest := s.harvest,
      rollback := s.rollback, flash := b, dram := if on then s.dram else [], poison := if on then s.poison else [],
      checks := if on then s.checks else [], lostLinks := s.lostLinks, lostModules := s.lostModules }
    (∀ i, badImage s b i → exec .packageReset s = .next { a with boot := .fail i }) ∧
    ((∀ i, ¬badImage s b i) → ∃ t, exec .packageReset s = .next t ∧
      t = { a with
        trained := true, boot := .booted, running := b, fwMajor := b.major, fwMinor := b.minor, fwFix := b.fix,
        rgn := t.rgn, hosts := updBy (fun (h : HostCore) => h.num == 0) (fun h =>
          { h with running := true, level := .m, pc := Config.hostEntry (b.images.map Image.bytes) }) a.hosts } ∧
      let raw := Config.platformTable (b.images.map Image.bytes)
      t.rgn.stage = (List.range 64).map (fun i =>
        { base := BitVec.ofNat 64 (at_ raw (16 * i) 8), size := BitVec.ofNat 32 (at_ raw (16 * i + 8) 4),
          pcOff := BitVec.ofNat 16 (at_ raw (16 * i + 12) 2), mode := BitVec.ofNat 8 (at_ raw (16 * i + 14) 1),
          stack := BitVec.ofNat 8 (at_ raw (16 * i + 15) 1) }) ∧
      (firstBad t.rgn.stage = none → t.rgn.active = t.rgn.stage ∧ t.rgn.gen = 1 ∧ t.rgn.code = 0 ∧ t.rgn.busy = false))) ∧
  (∀ (viaM : Bool) (nonce : List Byte) (s : State), ∃ b, exec (.attestationRequest viaM nonce) s = .next { s with reply := .bytes b } ∧
    b.length = 0x300 + 4627 ∧ (nonce.length = 64 → b.take 64 = nonce) ∧
    (b.drop 0x40).take 64 = (List.range 64).map s.idByte ∧
    (b.drop 0x80).take 32 = (List.range 4).flatMap (fun i => leBytes 8 (featCap i).toNat) ∧
    (b.drop 0xA0).take 64 = leBytes 64 (Config.sha3 (s.harvest.flatMap fun m => leBytes 16 m.toNat)).toNat ∧
    (b.drop 0xE0).take 16 = leBytes 8 s.rollback ++ leBytes 8 (min 8 s.running.images.length) ∧
    (∀ i < 8, ∀ x, s.running.images[i]? = some x →
      (b.drop (0xF0 + 64 * i)).take 64 = leBytes 64 (Config.sha3 x.bytes).toNat) ∧
    ((Config.sign (Config.sha3 (b.take 0x300))).length = 4627 → b.drop 0x300 = Config.sign (Config.sha3 (b.take 0x300)))) ∧
  (∀ (b : Bundle) (s : State), ((∀ i, ¬badImage s b i) → exec (.firmwareStage b) s =
      .next { s with staged := some b, reply := .none }) ∧
    ((∃ i, badImage s b i) → exec (.firmwareStage b) s = .next { s with reply := .fault })) ∧
  (∀ s : State, exec (.mgmtRead .inventory) s = .next { s with reply := .bytes Config.inventory } ∧
    exec (.mgmtRead .idBlock) s = .next { s with reply := .bytes ((List.range 64).map s.idByte) } ∧
    exec (.mgmtRead .powerLimit) s = .next { s with reply := .value (BitVec.ofNat 64 s.pwr.limit) } ∧
    (∀ i, s.boot = .fail i → exec (.mgmtRead .bootStatus) s = .next { s with reply := .bootFail i }) ∧
    ((∀ i, s.boot ≠ .fail i) → exec (.mgmtRead .bootStatus) s = .next { s with reply := .none }) ∧
    ∃ b, exec (.mgmtRead .errorLog) s = .next { s with reply := .bytes b } ∧ b.length = 32 * s.errlog.recs.length ∧
      ∀ i r, s.errlog.recs[i]? = some r → r.kind < 256 → r.unit < 256 → r.die < 256 → r.asid < 65536 →
        (b.drop (32 * i)).take 32 = leBytes 8 (r.kind + 2 ^ 8 * r.unit + 2 ^ 16 * r.die + 2 ^ 32 * r.asid) ++
          leBytes 8 r.addr.toNat ++ leBytes 8 r.crew.toNat ++ leBytes 8 r.tick.toNat) ∧
  (∀ s : State, (s.nextTick ≤ s.cycle → exec .heartbeatTick s =
      .next { s with heartbeat := s.heartbeat + 1, nextTick := s.nextTick + s.hbPeriod }) ∧
    (s.cycle < s.nextTick → exec .heartbeatTick s = .next s)) ∧
  (∀ s : State, (∀ lvl, lvl ≠ .m → exec (.regionCommit lvl) s = .next { s with reply := .fault }) ∧
    (s.rgn.busy = true → exec (.regionCommit .m) s = .next s) ∧ (s.rgn.busy = false →
      (∀ i, firstBad s.rgn.stage = some i → exec (.regionCommit .m) s =
        .next { s with rgn := { s.rgn with code := 1, badIdx := i } }) ∧
      (firstBad s.rgn.stage = none → (∃ c ∈ s.ctxs, c.state = .active) → exec (.regionCommit .m) s =
        .next { s with rgn := { s.rgn with code := 2 } }) ∧
      (firstBad s.rgn.stage = none → (∀ c ∈ s.ctxs, c.state ≠ .active) → ∃ t, exec (.regionCommit .m) s = .next t ∧
        t.rgn = { s.rgn with busy := true } ∧ t.cores = s.cores.map (fun c => { c with l1 := [] }) ∧
        t = { s with rgn := t.rgn, cores := t.cores, l2 := t.l2, dram := t.dram, poison := t.poison, tasks := t.tasks } ∧
        (∀ l, l ∈ t.l2 ↔ l ∈ s.l2 ∧ ¬changing s l.num) ∧
        (homesWf s = true → memoriesWf s = true → ∀ a, (∀ l ∈ s.l2, l ∉ t.l2 → apartFrom s [l.num] a ∧
          (l.num = a / 128 → l.dirty = true)) → t.homeByte a = s.homeByte a)))) ∧
  (∀ st : List RgnEntry, firstBad st = none ↔ ∀ i e, st[i]? = some e → e.mode.toNat % 4 = 0 ∨ goodEntry st i e) ∧
  ∀ s : State, (s.rgn.busy = false → exec .regionCommitDone s = .next s) ∧ (s.rgn.busy = true →
    ∃ t, exec .regionCommitDone s = .next t ∧
      t = { s with rgn := t.rgn, l2 := t.l2, dram := t.dram, poison := t.poison, tasks := t.tasks } ∧
      t.rgn = { s.rgn with active := s.rgn.stage, gen := s.rgn.gen + 1, code := 0, busy := false } ∧
      ∀ l, l ∈ t.l2 ↔ l ∈ s.l2 ∧ ¬changing s l.num)

/-- For every instruction and every state exec answers a next state: a trap, a wait and a refused command are next
states of the machine, and no instruction stops the model (R1, R121, R352). -/
def Obligations.ExecAlwaysAnswers : Prop :=
  ∀ (i : Instr) (s : State), ∃ t, exec i s = .next t

/-- For every well-formed instruction of the three streams, decoding its encoded bytes as a word of its stream gives
that instruction with every operand; and when the bytes of a word decode to an instruction, it is a well-formed
instruction of that stream, and encoding it gives those bytes (R109, R110, R111, R112, R113, R116, R118, R120, R121).
-/
def Obligations.DecodeEncode : Prop :=
  (∀ (i : Instr) (st : Stream), i.stream? = some st → i.wellFormed = true → decode st (encode i) = .ok i) ∧
  ∀ (st : Stream) (bytes : List Byte) (i : Instr), bytes.length = st.wordBytes → decode st bytes = .ok i →
    i.stream? = some st ∧ i.wellFormed = true ∧ encode i = bytes

/-- The worked words of the spec and a word of each format, stored lowest byte first, decode to the instruction they
stand for; an OPC that no member has is unassigned, and a field that a member does not use makes the word illegal
(R109, R110, R111, R113, R118, R120). -/
def Obligations.EncodedWords : Prop :=
  decode .scalar [0xF8, 0xFF, 0x64, 0x08] = .ok (.kaddi 3 4 0xFFF8) ∧
  decode .scalar [0x00, 0x28, 0x64, 0x04] = .ok (.kadd 3 4 5) ∧
  decode .scalar [0x00, 0x80, 0x8B, 0x35] = .ok (.kld 12 11 2 0 0) ∧
  decode .scalar [0xF0, 0x03, 0xA9, 0x31] = .ok (.kins 13 9 15 48) ∧
  decode .scalar [0x06, 0x00, 0x24, 0x3C] = .ok (.kbr 1 4 6) ∧
  decode .scalar [0x00, 0x00, 0x00, 0x58] = .ok .knop ∧
  decode .scalar [0x00, 0x00, 0xA6, 0x84] = .ok (.klaunch 5 6) ∧
  decode .scalar [0x01, 0x00, 0x00, 0x00] = .error .unassigned ∧
  decode .scalar [0x40, 0x28, 0x64, 0x04] = .error .reserved ∧
  decode .lane [0x00, 0x00, 0x00, 0x00, 0x00, 0x80, 0x20, 0x82, 0x01, 0x50, 0x00, 0x01] =
    .ok (.iadd { ty := .s32, gp := 2, gn := false, nwb := false, lt := 0, dst := 3, sa := 4, sb := 0x41, sc := 0, md := 0,
                 imm := 0 }) ∧
  decode .lane [0x00, 0x00, 0x00, 0x00, 0x00, 0x00, 0x00, 0x00, 0x00, 0x00, 0x08, 0x10] =
    .ok .lend ∧
  decode .lane [0x00, 0x00, 0x00, 0x00, 0x00, 0x00, 0x00, 0x00, 0x00, 0x00, 0x00, 0x14] = .error .unassigned ∧
  decode .stack [0x00, 0x00, 0x00, 0x00, 0x00, 0x0A, 0x19, 0x28] = .ok (.vfma 3 4 5 0 false) ∧
  decode .stack [0x00, 0x00, 0x00, 0x00, 0x00, 0x00, 0x00, 0x00] = .error .unassigned

namespace Sys2Proof.Safety

/-- A state without the reservations of host cores whose doubleword a step has changed (R401). -/
def keptReservations (s t : State) : State :=
  { t with hosts := t.hosts.map fun (h : HostCore) =>
      if h.reserved.any (fun d => (List.range 8).any fun i => t.homeByte (8 * d + i) != s.homeByte (8 * d + i)) then
        { h with reserved := none } else h }

/-- The step's answer from that of exec: the note for the shadow of a Mordant leader (R381), and the reservations kept. -/
def answered (s before t : State) : Prop :=
  ∃ w, step s = .next (keptReservations s w) ∧ w = { t with g := { t.g with trail := w.g.trail } } ∧
    (before.g.shadow = none → w = t)

/-- The step from s is the scalar instruction at the pc of the gang whose turn it is in u; `must`: where it issues. -/
def scalarRuns (s u : State) (must : Bool) : Prop :=
  let runs (i : Instr) (t : State) : Prop :=
    ∃ t', exec i t = .next t' ∧ ((must = true → t'.g.scalarAge ≠ u.g.scalarAge) → answered s t t')
  (∀ w i t, u.fetchScalar = (.ok w, t) → decode .scalar (leBytes 4 w) = .ok i → runs i t) ∧
    (∀ w e t, u.fetchScalar = (.ok w, t) → decode .scalar (leBytes 4 w) = .error e → runs (.illegalInstruction .scalar) t) ∧
    ∀ f t, u.fetchScalar = (.error f, t) → runs (.instructionFetchFault .scalar f) t

/-- The step from s is the lane instruction of the slot whose turn it is in u, where it issues. -/
def laneWordRuns (s u : State) : Prop :=
  let runs (i : Instr) (t : State) : Prop :=
    ∃ t', exec i t = .next t' ∧ (t'.g.laneAge ≠ u.g.laneAge → answered s t t')
  (∀ w i t, u.fetchLane = (.ok w, t) → decode .lane (leBytes 12 w) = .ok i → runs i t) ∧
    (∀ w e t, u.fetchLane = (.ok w, t) → decode .lane (leBytes 12 w) = .error e → runs (.illegalInstruction .lane) t) ∧
    ∀ f t, u.fetchLane = (.error f, t) → runs (.instructionFetchFault .lane f) t

/-- The slots of the gang whose turn it is that may issue, in the order of R94: of two the other than the last to issue,
unless the next word of that one is chained to what it issued (R107). -/
def slotOrder (s : State) : List State :=
  let now := if s.g.lane.cur then s.g.lane.s1 else s.g.lane.s0
  let other := if s.g.lane.cur then s.g.lane.s0 else s.g.lane.s1
  let flipped : State := { s with g := { s.g with lane := { s.g.lane with cur := !s.g.lane.cur } } }
  if now.runs && !other.runs then [s]
  else if now.runs && s.chained.isSome then [s]
  else if now.runs then [flipped, s]
  else if other.runs then [flipped]
  else []

end Sys2Proof.Safety

/-- In a booted package with no heartbeat and no thermal trip due, the turn at the head of the agenda is taken. A scalar
turn, once no wait ends and the scheduler has not issued in this cycle, goes to the first gang of the scheduler by age
whose instruction issues, or else to the gang named; a lane turn likewise, over the slots of R94 and with a chain held
together (R107); a stack turn to the instance on the core. The word at that pc is fetched; where it decodes to an
instruction the step is exec of it in the state after the fetch, where it is illegal or cannot be fetched the trap of
that; a device turn is exec of its row after the cycles that pass. Around exec the step notes what the shadow of a
leader must follow, and drops the reservations of host cores on doublewords that changed. (The order of turns is the
agenda's, the model's own, log 1.) (R27, R87, R94, R107, R109, R121, R336, R381, R401, R403). -/
def Obligations.StepRunsDecoded : Prop :=
  (∀ (s : State) (lane : Bool), (∀ h, h ∈ s.byAge lane ↔ h ∈ s.allGangs ∧ h.core = s.g.core ∧ h.slot / 8 = s.g.slot / 8) ∧
    ((∀ h ∈ s.allGangs, h.slot < 32) → (s.byAge lane).Pairwise fun a b =>
      (if lane then a.laneAge < b.laneAge else a.scalarAge < b.scalarAge) ∨
        ((if lane then a.laneAge = b.laneAge else a.scalarAge = b.scalarAge) ∧ a.slot ≤ b.slot))) ∧
  ∀ (s : State) (rest : List Turn), s.boot = .booted → s.cycle < s.nextTick → s.pwr.tmax < 115 →
    let p := { s.prepare with agenda := rest }
    (∀ (n : Nat) (g : GangRef), s.agenda = .scalar n g :: rest →
      let u := ((p.pass n).bring g).takeUp
      u.waitEnded = false → (∀ h ∈ u.byAge false, h.scalarAge ≤ u.cycle) →
      (∀ pre h post, u.byAge false = pre ++ h :: post → (∀ x ∈ pre, (u.bring x.ref).scalarTry = none) →
        (u.bring h.ref).takeUp.scalarReady = true → scalarRuns s (u.bring h.ref).takeUp true) ∧
      ((∀ x ∈ u.byAge false, (u.bring x.ref).scalarTry = none) → u.scalarReady = true → scalarRuns s u false)) ∧
    (∀ (n : Nat) (g : GangRef), s.agenda = .lane n g :: rest →
      let u := (p.pass n).bring g
      u.blockReady = false → (∀ h ∈ u.byAge true, h.laneAge ≤ u.cycle) →
      let holds (h : Gang) : Prop := (u.bring h.ref).laneRuns = true ∧ (u.bring h.ref).chained ≠ none
      ∀ pre h post, u.byAge true = pre ++ h :: post → (u.bring h.ref).laneRuns = true →
        ((∀ x ∈ pre, ¬holds x) ∧ (holds h ∨ ((∀ x ∈ post, ¬holds x) ∧ ∀ x ∈ pre, (u.bring x.ref).laneTry = none))) →
        ∀ tried v more, slotOrder (u.bring h.ref) = tried ++ v :: more →
          (∀ x ∈ tried, ∀ t, issueLane x = .next t → issuedIn x t true = false) → laneWordRuns s v) ∧
    (∀ (n die core : Nat), s.agenda = .stack n die core :: rest →
      let u := (p.pass n).bringInst die core
      u.stackReady die core = true →
      (∀ k, u.task u.inst.task = some k → k.state = .failing → k.failAt = u.stackCycle) →
      (∀ w i t, u.fetchStack = (.ok w, t) → decode .stack (leBytes 8 w) = .ok i →
        ∃ t', exec i t = .next t' ∧ step s = .next (keptReservations s t')) ∧
      (∀ w e t, u.fetchStack = (.ok w, t) → decode .stack (leBytes 8 w) = .error e →
        ∃ t', exec (.illegalInstruction .stack) t = .next t' ∧ step s = .next (keptReservations s t')) ∧
      ∀ f t, u.fetchStack = (.error f, t) →
        ∃ t', exec (.instructionFetchFault .stack f) t = .next t' ∧ step s = .next (keptReservations s t')) ∧
    ∀ (n : Nat) (i : Instr), s.agenda = .event n i :: rest → Instr.isEvent i = true →
      ∃ t, exec i (p.pass n) = .next t ∧ step s = .next (keptReservations s t)

/-- Stores of a gang, of the device at places, of bytes at their homes, of a stack core, of bank rows, and the write-
back of an L2 line keep every memory of the package in canonical form: addresses strictly rising and no entry equal to
what an unlisted address reads as. Those that reach the L2 keep its lines whole, in rising order, each in a region
(R5, R225, R271, R273, R337). -/
def Obligations.StoresKeepCanonicalForm : Prop :=
  ∀ s : State, memoriesWf s = true →
    (∀ crew core held mt cells, memoriesWf (s.gangWrite crew core held mt cells) = true) ∧
    (∀ cells, memoriesWf (s.writePlaces cells) = true) ∧ (∀ cells, memoriesWf (s.writeHome cells) = true) ∧
    (∀ l, memoriesWf (s.stackStore l) = true) ∧
    (∀ num, memoriesWf (s.writeBack num) = true) ∧
    (∀ crew h r on x, memoriesWf (s.updPage crew h fun p => p.putRow r on x) = true) ∧
    (homesWf s = true → (∀ crew core held mt cells, homesWf (s.gangWrite crew core held mt cells) = true) ∧
      (∀ cells, homesWf (s.writePlaces cells) = true) ∧ (∀ cells, homesWf (s.writeHome cells) = true) ∧
      (∀ l, homesWf (s.stackStore l) = true) ∧ ∀ num, homesWf (s.writeBack num) = true)

/-- Right after reset only the management controller runs: no UCIe module is trained, no host core runs, no context,
kernel, crew or task exists; the region table has no valid entry and GEN is 0; CPCTL, CPTLBI, the debug port and the
error log are clear, the drain time is 20,000 cycles and the power limit 1,800; every Causeway port is down; all
memory is empty and in canonical form. (That empty DRAM reads as zero is the model's choice, log 3; that the clocks
start at 0 and the registers of the host cores are zero too, log 4.) (R27, R33, R222, R333, R373, R384, R388, R401,
R403, R404). -/
def Obligations.ResetState : Prop :=
  State.reset.boot = .inReset ∧ stopped State.reset ∧ memoriesWf State.reset = true ∧ homesWf State.reset = true ∧
  listed State.reset ∧ (∀ h ∈ State.reset.hosts, h.running = false ∧ h.reserved = none) ∧
  State.reset.trained = false ∧ State.reset.lostLinks = [] ∧ State.reset.lostModules = [] ∧ State.reset.shadows = [] ∧
  State.reset.cycle = 0 ∧ State.reset.stackCycle = 0 ∧ State.reset.heartbeat = 0 ∧
  (∀ e ∈ State.reset.rgn.active, e.mode.toNat % 4 = 0) ∧ State.reset.rgn.gen = 0 ∧ State.reset.rgn.busy = false ∧
  State.reset.cp.busy = false ∧ State.reset.cp.overrun = false ∧ State.reset.cp.code = 0 ∧
  State.reset.cp.drain = 20000 ∧ State.reset.cp.tlbiBusy = false ∧ State.reset.cp.tlbiCode = 0 ∧
  State.reset.dbg.sel = 0 ∧ State.reset.dbg.busy = false ∧
  (∀ p ∈ State.reset.ports, p.state = .down ∧ p.cause = 0 ∧ p.retrains = 0 ∧ p.enable = false ∧ p.fence = false) ∧
  State.reset.rings = [] ∧ State.reset.flows = [] ∧
  State.reset.errlog.recs = [] ∧ State.reset.errlog.lost = 0 ∧ State.reset.pwr.limit = 1800 ∧
  State.reset.pwr.level = 0 ∧ State.reset.dram = [] ∧ State.reset.poison = []

/-- In every package before its boot with no bundle in its flash, or stopped with BOOTFAIL, or without power, in which
nothing runs and no reset is to come, every step that answers a next state leaves such a package, and its DRAM as it
was unless a thermal trip removes the power: whatever the agenda names, no core and no stack core executes, and no
context, crew or task comes to exist (R403, R407, R408). -/
def Obligations.StoppedStays : Prop :=
  ∀ s t : State, stopped s → step s = .next t → stopped t ∧ (t.dram = s.dram ∨ t.boot = .off)

/-- For every state in which the Causeway ports and the host cores are listed in the order of their numbers and no two
flows share group and number, no two rings context and landing die, no two contexts an asid, every state that a step
answers is such a state: CREATE refuses an asid in use, a CWRING write replaces the ring it names, and a flow is bound
at its first use only (R23, R36, R392, R394, R395, R401). -/
def Obligations.ListedStays : Prop :=
  ∀ s t : State, listed s → step s = .next t → listed t
end

