-- ==== Sys2Proof/Laws/State.lean ====
section
/-! SUPPORT. What each update of the state leaves in each field: one lemma per field per update. -/

namespace Sys2Proof.Machine

open Sys2Proof

/-! ### State.setK -/

@[simp] theorem State.setK_agenda (s : State) (i : Reg) (x : Word) : (s.setK i x).agenda = s.agenda := rfl
@[simp] theorem State.setK_focus (s : State) (i : Reg) (x : Word) : (s.setK i x).focus = s.focus := rfl
@[simp] theorem State.setK_free (s : State) (i : Reg) (x : Word) : (s.setK i x).free = s.free := rfl
@[simp] theorem State.setK_nextId (s : State) (i : Reg) (x : Word) : (s.setK i x).nextId = s.nextId := rfl
@[simp] theorem State.setK_reply (s : State) (i : Reg) (x : Word) : (s.setK i x).reply = s.reply := rfl
@[simp] theorem State.setK_cycle (s : State) (i : Reg) (x : Word) : (s.setK i x).cycle = s.cycle := rfl
@[simp] theorem State.setK_stackCycle (s : State) (i : Reg) (x : Word) : (s.setK i x).stackCycle = s.stackCycle := rfl
@[simp] theorem State.setK_heartbeat (s : State) (i : Reg) (x : Word) : (s.setK i x).heartbeat = s.heartbeat := rfl
@[simp] theorem State.setK_hbPeriod (s : State) (i : Reg) (x : Word) : (s.setK i x).hbPeriod = s.hbPeriod := rfl
@[simp] theorem State.setK_nextTick (s : State) (i : Reg) (x : Word) : (s.setK i x).nextTick = s.nextTick := rfl
@[simp] theorem State.setK_boot (s : State) (i : Reg) (x : Word) : (s.setK i x).boot = s.boot := rfl
@[simp] theorem State.setK_serial (s : State) (i : Reg) (x : Word) : (s.setK i x).serial = s.serial := rfl
@[simp] theorem State.setK_fwMajor (s : State) (i : Reg) (x : Word) : (s.setK i x).fwMajor = s.fwMajor := rfl
@[simp] theorem State.setK_fwMinor (s : State) (i : Reg) (x : Word) : (s.setK i x).fwMinor = s.fwMinor := rfl
@[simp] theorem State.setK_fwFix (s : State) (i : Reg) (x : Word) : (s.setK i x).fwFix = s.fwFix := rfl
@[simp] theorem State.setK_harvest (s : State) (i : Reg) (x : Word) : (s.setK i x).harvest = s.harvest := rfl
@[simp] theorem State.setK_rollback (s : State) (i : Reg) (x : Word) : (s.setK i x).rollback = s.rollback := rfl
@[simp] theorem State.setK_flash (s : State) (i : Reg) (x : Word) : (s.setK i x).flash = s.flash := rfl
@[simp] theorem State.setK_staged (s : State) (i : Reg) (x : Word) : (s.setK i x).staged = s.staged := rfl
@[simp] theorem State.setK_running (s : State) (i : Reg) (x : Word) : (s.setK i x).running = s.running := rfl
@[simp] theorem State.setK_dram (s : State) (i : Reg) (x : Word) : (s.setK i x).dram = s.dram := rfl
@[simp] theorem State.setK_poison (s : State) (i : Reg) (x : Word) : (s.setK i x).poison = s.poison := rfl
@[simp] theorem State.setK_checks (s : State) (i : Reg) (x : Word) : (s.setK i x).checks = s.checks := rfl
@[simp] theorem State.setK_l2 (s : State) (i : Reg) (x : Word) : (s.setK i x).l2 = s.l2 := rfl
@[simp] theorem State.setK_rgn (s : State) (i : Reg) (x : Word) : (s.setK i x).rgn = s.rgn := rfl
@[simp] theorem State.setK_tlb (s : State) (i : Reg) (x : Word) : (s.setK i x).tlb = s.tlb := rfl
@[simp] theorem State.setK_tlbis (s : State) (i : Reg) (x : Word) : (s.setK i x).tlbis = s.tlbis := rfl
@[simp] theorem State.setK_multicast (s : State) (i : Reg) (x : Word) : (s.setK i x).multicast = s.multicast := rfl
@[simp] theorem State.setK_cp (s : State) (i : Reg) (x : Word) : (s.setK i x).cp = s.cp := rfl
@[simp] theorem State.setK_ctxs (s : State) (i : Reg) (x : Word) : (s.setK i x).ctxs = s.ctxs := rfl
@[simp] theorem State.setK_creates (s : State) (i : Reg) (x : Word) : (s.setK i x).creates = s.creates := rfl
@[simp] theorem State.setK_kernels (s : State) (i : Reg) (x : Word) : (s.setK i x).kernels = s.kernels := rfl
@[simp] theorem State.setK_kernelSerial (s : State) (i : Reg) (x : Word) : (s.setK i x).kernelSerial = s.kernelSerial := rfl
@[simp] theorem State.setK_aggregates (s : State) (i : Reg) (x : Word) : (s.setK i x).aggregates = s.aggregates := rfl
@[simp] theorem State.setK_crews (s : State) (i : Reg) (x : Word) : (s.setK i x).crews = s.crews := rfl
@[simp] theorem State.setK_cores (s : State) (i : Reg) (x : Word) : (s.setK i x).cores = s.cores := rfl
@[simp] theorem State.setK_gangs (s : State) (i : Reg) (x : Word) : (s.setK i x).gangs = s.gangs := rfl
@[simp] theorem State.setK_shadows (s : State) (i : Reg) (x : Word) : (s.setK i x).shadows = s.shadows := rfl
@[simp] theorem State.setK_copies (s : State) (i : Reg) (x : Word) : (s.setK i x).copies = s.copies := rfl
@[simp] theorem State.setK_mxs (s : State) (i : Reg) (x : Word) : (s.setK i x).mxs = s.mxs := rfl
@[simp] theorem State.setK_lastStart (s : State) (i : Reg) (x : Word) : (s.setK i x).lastStart = s.lastStart := rfl
@[simp] theorem State.setK_tasks (s : State) (i : Reg) (x : Word) : (s.setK i x).tasks = s.tasks := rfl
@[simp] theorem State.setK_taskSerial (s : State) (i : Reg) (x : Word) : (s.setK i x).taskSerial = s.taskSerial := rfl
@[simp] theorem State.setK_inst (s : State) (i : Reg) (x : Word) : (s.setK i x).inst = s.inst := rfl
@[simp] theorem State.setK_insts (s : State) (i : Reg) (x : Word) : (s.setK i x).insts = s.insts := rfl
@[simp] theorem State.setK_ports (s : State) (i : Reg) (x : Word) : (s.setK i x).ports = s.ports := rfl
@[simp] theorem State.setK_flows (s : State) (i : Reg) (x : Word) : (s.setK i x).flows = s.flows := rfl
@[simp] theorem State.setK_rings (s : State) (i : Reg) (x : Word) : (s.setK i x).rings = s.rings := rfl
@[simp] theorem State.setK_rxs (s : State) (i : Reg) (x : Word) : (s.setK i x).rxs = s.rxs := rfl
@[simp] theorem State.setK_stalls (s : State) (i : Reg) (x : Word) : (s.setK i x).stalls = s.stalls := rfl
@[simp] theorem State.setK_cwring (s : State) (i : Reg) (x : Word) : (s.setK i x).cwring = s.cwring := rfl
@[simp] theorem State.setK_lostLinks (s : State) (i : Reg) (x : Word) : (s.setK i x).lostLinks = s.lostLinks := rfl
@[simp] theorem State.setK_lostModules (s : State) (i : Reg) (x : Word) : (s.setK i x).lostModules = s.lostModules := rfl
@[simp] theorem State.setK_rr (s : State) (i : Reg) (x : Word) : (s.setK i x).rr = s.rr := rfl
@[simp] theorem State.setK_hosts (s : State) (i : Reg) (x : Word) : (s.setK i x).hosts = s.hosts := rfl
@[simp] theorem State.setK_trained (s : State) (i : Reg) (x : Word) : (s.setK i x).trained = s.trained := rfl
@[simp] theorem State.setK_dbg (s : State) (i : Reg) (x : Word) : (s.setK i x).dbg = s.dbg := rfl
@[simp] theorem State.setK_errlog (s : State) (i : Reg) (x : Word) : (s.setK i x).errlog = s.errlog := rfl
@[simp] theorem State.setK_pwr (s : State) (i : Reg) (x : Word) : (s.setK i x).pwr = s.pwr := rfl

/-! ### State.setPc -/

@[simp] theorem State.setPc_agenda (s : State) (pc : Word) : (s.setPc pc).agenda = s.agenda := rfl
@[simp] theorem State.setPc_focus (s : State) (pc : Word) : (s.setPc pc).focus = s.focus := rfl
@[simp] theorem State.setPc_free (s : State) (pc : Word) : (s.setPc pc).free = s.free := rfl
@[simp] theorem State.setPc_nextId (s : State) (pc : Word) : (s.setPc pc).nextId = s.nextId := rfl
@[simp] theorem State.setPc_reply (s : State) (pc : Word) : (s.setPc pc).reply = s.reply := rfl
@[simp] theorem State.setPc_cycle (s : State) (pc : Word) : (s.setPc pc).cycle = s.cycle := rfl
@[simp] theorem State.setPc_stackCycle (s : State) (pc : Word) : (s.setPc pc).stackCycle = s.stackCycle := rfl
@[simp] theorem State.setPc_heartbeat (s : State) (pc : Word) : (s.setPc pc).heartbeat = s.heartbeat := rfl
@[simp] theorem State.setPc_hbPeriod (s : State) (pc : Word) : (s.setPc pc).hbPeriod = s.hbPeriod := rfl
@[simp] theorem State.setPc_nextTick (s : State) (pc : Word) : (s.setPc pc).nextTick = s.nextTick := rfl
@[simp] theorem State.setPc_boot (s : State) (pc : Word) : (s.setPc pc).boot = s.boot := rfl
@[simp] theorem State.setPc_serial (s : State) (pc : Word) : (s.setPc pc).serial = s.serial := rfl
@[simp] theorem State.setPc_fwMajor (s : State) (pc : Word) : (s.setPc pc).fwMajor = s.fwMajor := rfl
@[simp] theorem State.setPc_fwMinor (s : State) (pc : Word) : (s.setPc pc).fwMinor = s.fwMinor := rfl
@[simp] theorem State.setPc_fwFix (s : State) (pc : Word) : (s.setPc pc).fwFix = s.fwFix := rfl
@[simp] theorem State.setPc_harvest (s : State) (pc : Word) : (s.setPc pc).harvest = s.harvest := rfl
@[simp] theorem State.setPc_rollback (s : State) (pc : Word) : (s.setPc pc).rollback = s.rollback := rfl
@[simp] theorem State.setPc_flash (s : State) (pc : Word) : (s.setPc pc).flash = s.flash := rfl
@[simp] theorem State.setPc_staged (s : State) (pc : Word) : (s.setPc pc).staged = s.staged := rfl
@[simp] theorem State.setPc_running (s : State) (pc : Word) : (s.setPc pc).running = s.running := rfl
@[simp] theorem State.setPc_dram (s : State) (pc : Word) : (s.setPc pc).dram = s.dram := rfl
@[simp] theorem State.setPc_poison (s : State) (pc : Word) : (s.setPc pc).poison = s.poison := rfl
@[simp] theorem State.setPc_checks (s : State) (pc : Word) : (s.setPc pc).checks = s.checks := rfl
@[simp] theorem State.setPc_l2 (s : State) (pc : Word) : (s.setPc pc).l2 = s.l2 := rfl
@[simp] theorem State.setPc_rgn (s : State) (pc : Word) : (s.setPc pc).rgn = s.rgn := rfl
@[simp] theorem State.setPc_tlb (s : State) (pc : Word) : (s.setPc pc).tlb = s.tlb := rfl
@[simp] theorem State.setPc_tlbis (s : State) (pc : Word) : (s.setPc pc).tlbis = s.tlbis := rfl
@[simp] theorem State.setPc_multicast (s : State) (pc : Word) : (s.setPc pc).multicast = s.multicast := rfl
@[simp] theorem State.setPc_cp (s : State) (pc : Word) : (s.setPc pc).cp = s.cp := rfl
@[simp] theorem State.setPc_ctxs (s : State) (pc : Word) : (s.setPc pc).ctxs = s.ctxs := rfl
@[simp] theorem State.setPc_creates (s : State) (pc : Word) : (s.setPc pc).creates = s.creates := rfl
@[simp] theorem State.setPc_kernels (s : State) (pc : Word) : (s.setPc pc).kernels = s.kernels := rfl
@[simp] theorem State.setPc_kernelSerial (s : State) (pc : Word) : (s.setPc pc).kernelSerial = s.kernelSerial := rfl
@[simp] theorem State.setPc_aggregates (s : State) (pc : Word) : (s.setPc pc).aggregates = s.aggregates := rfl
@[simp] theorem State.setPc_crews (s : State) (pc : Word) : (s.setPc pc).crews = s.crews := rfl
@[simp] theorem State.setPc_cores (s : State) (pc : Word) : (s.setPc pc).cores = s.cores := rfl
@[simp] theorem State.setPc_gangs (s : State) (pc : Word) : (s.setPc pc).gangs = s.gangs := rfl
@[simp] theorem State.setPc_shadows (s : State) (pc : Word) : (s.setPc pc).shadows = s.shadows := rfl
@[simp] theorem State.setPc_copies (s : State) (pc : Word) : (s.setPc pc).copies = s.copies := rfl
@[simp] theorem State.setPc_mxs (s : State) (pc : Word) : (s.setPc pc).mxs = s.mxs := rfl
@[simp] theorem State.setPc_lastStart (s : State) (pc : Word) : (s.setPc pc).lastStart = s.lastStart := rfl
@[simp] theorem State.setPc_tasks (s : State) (pc : Word) : (s.setPc pc).tasks = s.tasks := rfl
@[simp] theorem State.setPc_taskSerial (s : State) (pc : Word) : (s.setPc pc).taskSerial = s.taskSerial := rfl
@[simp] theorem State.setPc_inst (s : State) (pc : Word) : (s.setPc pc).inst = s.inst := rfl
@[simp] theorem State.setPc_insts (s : State) (pc : Word) : (s.setPc pc).insts = s.insts := rfl
@[simp] theorem State.setPc_ports (s : State) (pc : Word) : (s.setPc pc).ports = s.ports := rfl
@[simp] theorem State.setPc_flows (s : State) (pc : Word) : (s.setPc pc).flows = s.flows := rfl
@[simp] theorem State.setPc_rings (s : State) (pc : Word) : (s.setPc pc).rings = s.rings := rfl
@[simp] theorem State.setPc_rxs (s : State) (pc : Word) : (s.setPc pc).rxs = s.rxs := rfl
@[simp] theorem State.setPc_stalls (s : State) (pc : Word) : (s.setPc pc).stalls = s.stalls := rfl
@[simp] theorem State.setPc_cwring (s : State) (pc : Word) : (s.setPc pc).cwring = s.cwring := rfl
@[simp] theorem State.setPc_lostLinks (s : State) (pc : Word) : (s.setPc pc).lostLinks = s.lostLinks := rfl
@[simp] theorem State.setPc_lostModules (s : State) (pc : Word) : (s.setPc pc).lostModules = s.lostModules := rfl
@[simp] theorem State.setPc_rr (s : State) (pc : Word) : (s.setPc pc).rr = s.rr := rfl
@[simp] theorem State.setPc_hosts (s : State) (pc : Word) : (s.setPc pc).hosts = s.hosts := rfl
@[simp] theorem State.setPc_trained (s : State) (pc : Word) : (s.setPc pc).trained = s.trained := rfl
@[simp] theorem State.setPc_dbg (s : State) (pc : Word) : (s.setPc pc).dbg = s.dbg := rfl
@[simp] theorem State.setPc_errlog (s : State) (pc : Word) : (s.setPc pc).errlog = s.errlog := rfl
@[simp] theorem State.setPc_pwr (s : State) (pc : Word) : (s.setPc pc).pwr = s.pwr := rfl

/-! ### State.advance -/

@[simp] theorem State.advance_agenda (s : State) : (s.advance).agenda = s.agenda := rfl
@[simp] theorem State.advance_focus (s : State) : (s.advance).focus = s.focus := rfl
@[simp] theorem State.advance_free (s : State) : (s.advance).free = s.free := rfl
@[simp] theorem State.advance_nextId (s : State) : (s.advance).nextId = s.nextId := rfl
@[simp] theorem State.advance_reply (s : State) : (s.advance).reply = s.reply := rfl
@[simp] theorem State.advance_cycle (s : State) : (s.advance).cycle = s.cycle := rfl
@[simp] theorem State.advance_stackCycle (s : State) : (s.advance).stackCycle = s.stackCycle := rfl
@[simp] theorem State.advance_heartbeat (s : State) : (s.advance).heartbeat = s.heartbeat := rfl
@[simp] theorem State.advance_hbPeriod (s : State) : (s.advance).hbPeriod = s.hbPeriod := rfl
@[simp] theorem State.advance_nextTick (s : State) : (s.advance).nextTick = s.nextTick := rfl
@[simp] theorem State.advance_boot (s : State) : (s.advance).boot = s.boot := rfl
@[simp] theorem State.advance_serial (s : State) : (s.advance).serial = s.serial := rfl
@[simp] theorem State.advance_fwMajor (s : State) : (s.advance).fwMajor = s.fwMajor := rfl
@[simp] theorem State.advance_fwMinor (s : State) : (s.advance).fwMinor = s.fwMinor := rfl
@[simp] theorem State.advance_fwFix (s : State) : (s.advance).fwFix = s.fwFix := rfl
@[simp] theorem State.advance_harvest (s : State) : (s.advance).harvest = s.harvest := rfl
@[simp] theorem State.advance_rollback (s : State) : (s.advance).rollback = s.rollback := rfl
@[simp] theorem State.advance_flash (s : State) : (s.advance).flash = s.flash := rfl
@[simp] theorem State.advance_staged (s : State) : (s.advance).staged = s.staged := rfl
@[simp] theorem State.advance_running (s : State) : (s.advance).running = s.running := rfl
@[simp] theorem State.advance_dram (s : State) : (s.advance).dram = s.dram := rfl
@[simp] theorem State.advance_poison (s : State) : (s.advance).poison = s.poison := rfl
@[simp] theorem State.advance_checks (s : State) : (s.advance).checks = s.checks := rfl
@[simp] theorem State.advance_l2 (s : State) : (s.advance).l2 = s.l2 := rfl
@[simp] theorem State.advance_rgn (s : State) : (s.advance).rgn = s.rgn := rfl
@[simp] theorem State.advance_tlb (s : State) : (s.advance).tlb = s.tlb := rfl
@[simp] theorem State.advance_tlbis (s : State) : (s.advance).tlbis = s.tlbis := rfl
@[simp] theorem State.advance_multicast (s : State) : (s.advance).multicast = s.multicast := rfl
@[simp] theorem State.advance_cp (s : State) : (s.advance).cp = s.cp := rfl
@[simp] theorem State.advance_ctxs (s : State) : (s.advance).ctxs = s.ctxs := rfl
@[simp] theorem State.advance_creates (s : State) : (s.advance).creates = s.creates := rfl
@[simp] theorem State.advance_kernels (s : State) : (s.advance).kernels = s.kernels := rfl
@[simp] theorem State.advance_kernelSerial (s : State) : (s.advance).kernelSerial = s.kernelSerial := rfl
@[simp] theorem State.advance_aggregates (s : State) : (s.advance).aggregates = s.aggregates := rfl
@[simp] theorem State.advance_crews (s : State) : (s.advance).crews = s.crews := rfl
@[simp] theorem State.advance_cores (s : State) : (s.advance).cores = s.cores := rfl
@[simp] theorem State.advance_gangs (s : State) : (s.advance).gangs = s.gangs := rfl
@[simp] theorem State.advance_shadows (s : State) : (s.advance).shadows = s.shadows := rfl
@[simp] theorem State.advance_copies (s : State) : (s.advance).copies = s.copies := rfl
@[simp] theorem State.advance_mxs (s : State) : (s.advance).mxs = s.mxs := rfl
@[simp] theorem State.advance_lastStart (s : State) : (s.advance).lastStart = s.lastStart := rfl
@[simp] theorem State.advance_tasks (s : State) : (s.advance).tasks = s.tasks := rfl
@[simp] theorem State.advance_taskSerial (s : State) : (s.advance).taskSerial = s.taskSerial := rfl
@[simp] theorem State.advance_inst (s : State) : (s.advance).inst = s.inst := rfl
@[simp] theorem State.advance_insts (s : State) : (s.advance).insts = s.insts := rfl
@[simp] theorem State.advance_ports (s : State) : (s.advance).ports = s.ports := rfl
@[simp] theorem State.advance_flows (s : State) : (s.advance).flows = s.flows := rfl
@[simp] theorem State.advance_rings (s : State) : (s.advance).rings = s.rings := rfl
@[simp] theorem State.advance_rxs (s : State) : (s.advance).rxs = s.rxs := rfl
@[simp] theorem State.advance_stalls (s : State) : (s.advance).stalls = s.stalls := rfl
@[simp] theorem State.advance_cwring (s : State) : (s.advance).cwring = s.cwring := rfl
@[simp] theorem State.advance_lostLinks (s : State) : (s.advance).lostLinks = s.lostLinks := rfl
@[simp] theorem State.advance_lostModules (s : State) : (s.advance).lostModules = s.lostModules := rfl
@[simp] theorem State.advance_rr (s : State) : (s.advance).rr = s.rr := rfl
@[simp] theorem State.advance_hosts (s : State) : (s.advance).hosts = s.hosts := rfl
@[simp] theorem State.advance_trained (s : State) : (s.advance).trained = s.trained := rfl
@[simp] theorem State.advance_dbg (s : State) : (s.advance).dbg = s.dbg := rfl
@[simp] theorem State.advance_errlog (s : State) : (s.advance).errlog = s.errlog := rfl
@[simp] theorem State.advance_pwr (s : State) : (s.advance).pwr = s.pwr := rfl

/-! ### State.kill -/

@[simp] theorem State.kill_agenda (s : State) (m : Mask) : (s.kill m).agenda = s.agenda := rfl
@[simp] theorem State.kill_focus (s : State) (m : Mask) : (s.kill m).focus = s.focus := rfl
@[simp] theorem State.kill_free (s : State) (m : Mask) : (s.kill m).free = s.free := rfl
@[simp] theorem State.kill_nextId (s : State) (m : Mask) : (s.kill m).nextId = s.nextId := rfl
@[simp] theorem State.kill_reply (s : State) (m : Mask) : (s.kill m).reply = s.reply := rfl
@[simp] theorem State.kill_cycle (s : State) (m : Mask) : (s.kill m).cycle = s.cycle := rfl
@[simp] theorem State.kill_stackCycle (s : State) (m : Mask) : (s.kill m).stackCycle = s.stackCycle := rfl
@[simp] theorem State.kill_heartbeat (s : State) (m : Mask) : (s.kill m).heartbeat = s.heartbeat := rfl
@[simp] theorem State.kill_hbPeriod (s : State) (m : Mask) : (s.kill m).hbPeriod = s.hbPeriod := rfl
@[simp] theorem State.kill_nextTick (s : State) (m : Mask) : (s.kill m).nextTick = s.nextTick := rfl
@[simp] theorem State.kill_boot (s : State) (m : Mask) : (s.kill m).boot = s.boot := rfl
@[simp] theorem State.kill_serial (s : State) (m : Mask) : (s.kill m).serial = s.serial := rfl
@[simp] theorem State.kill_fwMajor (s : State) (m : Mask) : (s.kill m).fwMajor = s.fwMajor := rfl
@[simp] theorem State.kill_fwMinor (s : State) (m : Mask) : (s.kill m).fwMinor = s.fwMinor := rfl
@[simp] theorem State.kill_fwFix (s : State) (m : Mask) : (s.kill m).fwFix = s.fwFix := rfl
@[simp] theorem State.kill_harvest (s : State) (m : Mask) : (s.kill m).harvest = s.harvest := rfl
@[simp] theorem State.kill_rollback (s : State) (m : Mask) : (s.kill m).rollback = s.rollback := rfl
@[simp] theorem State.kill_flash (s : State) (m : Mask) : (s.kill m).flash = s.flash := rfl
@[simp] theorem State.kill_staged (s : State) (m : Mask) : (s.kill m).staged = s.staged := rfl
@[simp] theorem State.kill_running (s : State) (m : Mask) : (s.kill m).running = s.running := rfl
@[simp] theorem State.kill_dram (s : State) (m : Mask) : (s.kill m).dram = s.dram := rfl
@[simp] theorem State.kill_poison (s : State) (m : Mask) : (s.kill m).poison = s.poison := rfl
@[simp] theorem State.kill_checks (s : State) (m : Mask) : (s.kill m).checks = s.checks := rfl
@[simp] theorem State.kill_l2 (s : State) (m : Mask) : (s.kill m).l2 = s.l2 := rfl
@[simp] theorem State.kill_rgn (s : State) (m : Mask) : (s.kill m).rgn = s.rgn := rfl
@[simp] theorem State.kill_tlb (s : State) (m : Mask) : (s.kill m).tlb = s.tlb := rfl
@[simp] theorem State.kill_tlbis (s : State) (m : Mask) : (s.kill m).tlbis = s.tlbis := rfl
@[simp] theorem State.kill_multicast (s : State) (m : Mask) : (s.kill m).multicast = s.multicast := rfl
@[simp] theorem State.kill_cp (s : State) (m : Mask) : (s.kill m).cp = s.cp := rfl
@[simp] theorem State.kill_ctxs (s : State) (m : Mask) : (s.kill m).ctxs = s.ctxs := rfl
@[simp] theorem State.kill_creates (s : State) (m : Mask) : (s.kill m).creates = s.creates := rfl
@[simp] theorem State.kill_kernels (s : State) (m : Mask) : (s.kill m).kernels = s.kernels := rfl
@[simp] theorem State.kill_kernelSerial (s : State) (m : Mask) : (s.kill m).kernelSerial = s.kernelSerial := rfl
@[simp] theorem State.kill_aggregates (s : State) (m : Mask) : (s.kill m).aggregates = s.aggregates := rfl
@[simp] theorem State.kill_crews (s : State) (m : Mask) : (s.kill m).crews = s.crews := rfl
@[simp] theorem State.kill_cores (s : State) (m : Mask) : (s.kill m).cores = s.cores := rfl
@[simp] theorem State.kill_gangs (s : State) (m : Mask) : (s.kill m).gangs = s.gangs := rfl
@[simp] theorem State.kill_shadows (s : State) (m : Mask) : (s.kill m).shadows = s.shadows := rfl
@[simp] theorem State.kill_copies (s : State) (m : Mask) : (s.kill m).copies = s.copies := rfl
@[simp] theorem State.kill_mxs (s : State) (m : Mask) : (s.kill m).mxs = s.mxs := rfl
@[simp] theorem State.kill_lastStart (s : State) (m : Mask) : (s.kill m).lastStart = s.lastStart := rfl
@[simp] theorem State.kill_tasks (s : State) (m : Mask) : (s.kill m).tasks = s.tasks := rfl
@[simp] theorem State.kill_taskSerial (s : State) (m : Mask) : (s.kill m).taskSerial = s.taskSerial := rfl
@[simp] theorem State.kill_inst (s : State) (m : Mask) : (s.kill m).inst = s.inst := rfl
@[simp] theorem State.kill_insts (s : State) (m : Mask) : (s.kill m).insts = s.insts := rfl
@[simp] theorem State.kill_ports (s : State) (m : Mask) : (s.kill m).ports = s.ports := rfl
@[simp] theorem State.kill_flows (s : State) (m : Mask) : (s.kill m).flows = s.flows := rfl
@[simp] theorem State.kill_rings (s : State) (m : Mask) : (s.kill m).rings = s.rings := rfl
@[simp] theorem State.kill_rxs (s : State) (m : Mask) : (s.kill m).rxs = s.rxs := rfl
@[simp] theorem State.kill_stalls (s : State) (m : Mask) : (s.kill m).stalls = s.stalls := rfl
@[simp] theorem State.kill_cwring (s : State) (m : Mask) : (s.kill m).cwring = s.cwring := rfl
@[simp] theorem State.kill_lostLinks (s : State) (m : Mask) : (s.kill m).lostLinks = s.lostLinks := rfl
@[simp] theorem State.kill_lostModules (s : State) (m : Mask) : (s.kill m).lostModules = s.lostModules := rfl
@[simp] theorem State.kill_rr (s : State) (m : Mask) : (s.kill m).rr = s.rr := rfl
@[simp] theorem State.kill_hosts (s : State) (m : Mask) : (s.kill m).hosts = s.hosts := rfl
@[simp] theorem State.kill_trained (s : State) (m : Mask) : (s.kill m).trained = s.trained := rfl
@[simp] theorem State.kill_dbg (s : State) (m : Mask) : (s.kill m).dbg = s.dbg := rfl
@[simp] theorem State.kill_errlog (s : State) (m : Mask) : (s.kill m).errlog = s.errlog := rfl
@[simp] theorem State.kill_pwr (s : State) (m : Mask) : (s.kill m).pwr = s.pwr := rfl

/-! ### State.setW -/

@[simp] theorem State.setW_agenda (s : State) (i : WReg) (x : List Half) : (s.setW i x).agenda = s.agenda := rfl
@[simp] theorem State.setW_focus (s : State) (i : WReg) (x : List Half) : (s.setW i x).focus = s.focus := rfl
@[simp] theorem State.setW_free (s : State) (i : WReg) (x : List Half) : (s.setW i x).free = s.free := rfl
@[simp] theorem State.setW_nextId (s : State) (i : WReg) (x : List Half) : (s.setW i x).nextId = s.nextId := rfl
@[simp] theorem State.setW_reply (s : State) (i : WReg) (x : List Half) : (s.setW i x).reply = s.reply := rfl
@[simp] theorem State.setW_cycle (s : State) (i : WReg) (x : List Half) : (s.setW i x).cycle = s.cycle := rfl
@[simp] theorem State.setW_stackCycle (s : State) (i : WReg) (x : List Half) : (s.setW i x).stackCycle = s.stackCycle := rfl
@[simp] theorem State.setW_heartbeat (s : State) (i : WReg) (x : List Half) : (s.setW i x).heartbeat = s.heartbeat := rfl
@[simp] theorem State.setW_hbPeriod (s : State) (i : WReg) (x : List Half) : (s.setW i x).hbPeriod = s.hbPeriod := rfl
@[simp] theorem State.setW_nextTick (s : State) (i : WReg) (x : List Half) : (s.setW i x).nextTick = s.nextTick := rfl
@[simp] theorem State.setW_boot (s : State) (i : WReg) (x : List Half) : (s.setW i x).boot = s.boot := rfl
@[simp] theorem State.setW_serial (s : State) (i : WReg) (x : List Half) : (s.setW i x).serial = s.serial := rfl
@[simp] theorem State.setW_fwMajor (s : State) (i : WReg) (x : List Half) : (s.setW i x).fwMajor = s.fwMajor := rfl
@[simp] theorem State.setW_fwMinor (s : State) (i : WReg) (x : List Half) : (s.setW i x).fwMinor = s.fwMinor := rfl
@[simp] theorem State.setW_fwFix (s : State) (i : WReg) (x : List Half) : (s.setW i x).fwFix = s.fwFix := rfl
@[simp] theorem State.setW_harvest (s : State) (i : WReg) (x : List Half) : (s.setW i x).harvest = s.harvest := rfl
@[simp] theorem State.setW_rollback (s : State) (i : WReg) (x : List Half) : (s.setW i x).rollback = s.rollback := rfl
@[simp] theorem State.setW_flash (s : State) (i : WReg) (x : List Half) : (s.setW i x).flash = s.flash := rfl
@[simp] theorem State.setW_staged (s : State) (i : WReg) (x : List Half) : (s.setW i x).staged = s.staged := rfl
@[simp] theorem State.setW_running (s : State) (i : WReg) (x : List Half) : (s.setW i x).running = s.running := rfl
@[simp] theorem State.setW_dram (s : State) (i : WReg) (x : List Half) : (s.setW i x).dram = s.dram := rfl
@[simp] theorem State.setW_poison (s : State) (i : WReg) (x : List Half) : (s.setW i x).poison = s.poison := rfl
@[simp] theorem State.setW_checks (s : State) (i : WReg) (x : List Half) : (s.setW i x).checks = s.checks := rfl
@[simp] theorem State.setW_l2 (s : State) (i : WReg) (x : List Half) : (s.setW i x).l2 = s.l2 := rfl
@[simp] theorem State.setW_rgn (s : State) (i : WReg) (x : List Half) : (s.setW i x).rgn = s.rgn := rfl
@[simp] theorem State.setW_tlb (s : State) (i : WReg) (x : List Half) : (s.setW i x).tlb = s.tlb := rfl
@[simp] theorem State.setW_tlbis (s : State) (i : WReg) (x : List Half) : (s.setW i x).tlbis = s.tlbis := rfl
@[simp] theorem State.setW_multicast (s : State) (i : WReg) (x : List Half) : (s.setW i x).multicast = s.multicast := rfl
@[simp] theorem State.setW_cp (s : State) (i : WReg) (x : List Half) : (s.setW i x).cp = s.cp := rfl
@[simp] theorem State.setW_ctxs (s : State) (i : WReg) (x : List Half) : (s.setW i x).ctxs = s.ctxs := rfl
@[simp] theorem State.setW_creates (s : State) (i : WReg) (x : List Half) : (s.setW i x).creates = s.creates := rfl
@[simp] theorem State.setW_kernels (s : State) (i : WReg) (x : List Half) : (s.setW i x).kernels = s.kernels := rfl
@[simp] theorem State.setW_kernelSerial (s : State) (i : WReg) (x : List Half) : (s.setW i x).kernelSerial = s.kernelSerial := rfl
@[simp] theorem State.setW_aggregates (s : State) (i : WReg) (x : List Half) : (s.setW i x).aggregates = s.aggregates := rfl
@[simp] theorem State.setW_crews (s : State) (i : WReg) (x : List Half) : (s.setW i x).crews = s.crews := rfl
@[simp] theorem State.setW_cores (s : State) (i : WReg) (x : List Half) : (s.setW i x).cores = s.cores := rfl
@[simp] theorem State.setW_g (s : State) (i : WReg) (x : List Half) : (s.setW i x).g = s.g := rfl
@[simp] theorem State.setW_gangs (s : State) (i : WReg) (x : List Half) : (s.setW i x).gangs = s.gangs := rfl
@[simp] theorem State.setW_shadows (s : State) (i : WReg) (x : List Half) : (s.setW i x).shadows = s.shadows := rfl
@[simp] theorem State.setW_copies (s : State) (i : WReg) (x : List Half) : (s.setW i x).copies = s.copies := rfl
@[simp] theorem State.setW_mxs (s : State) (i : WReg) (x : List Half) : (s.setW i x).mxs = s.mxs := rfl
@[simp] theorem State.setW_lastStart (s : State) (i : WReg) (x : List Half) : (s.setW i x).lastStart = s.lastStart := rfl
@[simp] theorem State.setW_tasks (s : State) (i : WReg) (x : List Half) : (s.setW i x).tasks = s.tasks := rfl
@[simp] theorem State.setW_taskSerial (s : State) (i : WReg) (x : List Half) : (s.setW i x).taskSerial = s.taskSerial := rfl
@[simp] theorem State.setW_insts (s : State) (i : WReg) (x : List Half) : (s.setW i x).insts = s.insts := rfl
@[simp] theorem State.setW_ports (s : State) (i : WReg) (x : List Half) : (s.setW i x).ports = s.ports := rfl
@[simp] theorem State.setW_flows (s : State) (i : WReg) (x : List Half) : (s.setW i x).flows = s.flows := rfl
@[simp] theorem State.setW_rings (s : State) (i : WReg) (x : List Half) : (s.setW i x).rings = s.rings := rfl
@[simp] theorem State.setW_rxs (s : State) (i : WReg) (x : List Half) : (s.setW i x).rxs = s.rxs := rfl
@[simp] theorem State.setW_stalls (s : State) (i : WReg) (x : List Half) : (s.setW i x).stalls = s.stalls := rfl
@[simp] theorem State.setW_cwring (s : State) (i : WReg) (x : List Half) : (s.setW i x).cwring = s.cwring := rfl
@[simp] theorem State.setW_lostLinks (s : State) (i : WReg) (x : List Half) : (s.setW i x).lostLinks = s.lostLinks := rfl
@[simp] theorem State.setW_lostModules (s : State) (i : WReg) (x : List Half) : (s.setW i x).lostModules = s.lostModules := rfl
@[simp] theorem State.setW_rr (s : State) (i : WReg) (x : List Half) : (s.setW i x).rr = s.rr := rfl
@[simp] theorem State.setW_hosts (s : State) (i : WReg) (x : List Half) : (s.setW i x).hosts = s.hosts := rfl
@[simp] theorem State.setW_trained (s : State) (i : WReg) (x : List Half) : (s.setW i x).trained = s.trained := rfl
@[simp] theorem State.setW_dbg (s : State) (i : WReg) (x : List Half) : (s.setW i x).dbg = s.dbg := rfl
@[simp] theorem State.setW_errlog (s : State) (i : WReg) (x : List Half) : (s.setW i x).errlog = s.errlog := rfl
@[simp] theorem State.setW_pwr (s : State) (i : WReg) (x : List Half) : (s.setW i x).pwr = s.pwr := rfl

/-! ### State.setBa -/

@[simp] theorem State.setBa_agenda (s : State) (i : WReg) (x : List Word) : (s.setBa i x).agenda = s.agenda := rfl
@[simp] theorem State.setBa_focus (s : State) (i : WReg) (x : List Word) : (s.setBa i x).focus = s.focus := rfl
@[simp] theorem State.setBa_free (s : State) (i : WReg) (x : List Word) : (s.setBa i x).free = s.free := rfl
@[simp] theorem State.setBa_nextId (s : State) (i : WReg) (x : List Word) : (s.setBa i x).nextId = s.nextId := rfl
@[simp] theorem State.setBa_reply (s : State) (i : WReg) (x : List Word) : (s.setBa i x).reply = s.reply := rfl
@[simp] theorem State.setBa_cycle (s : State) (i : WReg) (x : List Word) : (s.setBa i x).cycle = s.cycle := rfl
@[simp] theorem State.setBa_stackCycle (s : State) (i : WReg) (x : List Word) : (s.setBa i x).stackCycle = s.stackCycle := rfl
@[simp] theorem State.setBa_heartbeat (s : State) (i : WReg) (x : List Word) : (s.setBa i x).heartbeat = s.heartbeat := rfl
@[simp] theorem State.setBa_hbPeriod (s : State) (i : WReg) (x : List Word) : (s.setBa i x).hbPeriod = s.hbPeriod := rfl
@[simp] theorem State.setBa_nextTick (s : State) (i : WReg) (x : List Word) : (s.setBa i x).nextTick = s.nextTick := rfl
@[simp] theorem State.setBa_boot (s : State) (i : WReg) (x : List Word) : (s.setBa i x).boot = s.boot := rfl
@[simp] theorem State.setBa_serial (s : State) (i : WReg) (x : List Word) : (s.setBa i x).serial = s.serial := rfl
@[simp] theorem State.setBa_fwMajor (s : State) (i : WReg) (x : List Word) : (s.setBa i x).fwMajor = s.fwMajor := rfl
@[simp] theorem State.setBa_fwMinor (s : State) (i : WReg) (x : List Word) : (s.setBa i x).fwMinor = s.fwMinor := rfl
@[simp] theorem State.setBa_fwFix (s : State) (i : WReg) (x : List Word) : (s.setBa i x).fwFix = s.fwFix := rfl
@[simp] theorem State.setBa_harvest (s : State) (i : WReg) (x : List Word) : (s.setBa i x).harvest = s.harvest := rfl
@[simp] theorem State.setBa_rollback (s : State) (i : WReg) (x : List Word) : (s.setBa i x).rollback = s.rollback := rfl
@[simp] theorem State.setBa_flash (s : State) (i : WReg) (x : List Word) : (s.setBa i x).flash = s.flash := rfl
@[simp] theorem State.setBa_staged (s : State) (i : WReg) (x : List Word) : (s.setBa i x).staged = s.staged := rfl
@[simp] theorem State.setBa_running (s : State) (i : WReg) (x : List Word) : (s.setBa i x).running = s.running := rfl
@[simp] theorem State.setBa_dram (s : State) (i : WReg) (x : List Word) : (s.setBa i x).dram = s.dram := rfl
@[simp] theorem State.setBa_poison (s : State) (i : WReg) (x : List Word) : (s.setBa i x).poison = s.poison := rfl
@[simp] theorem State.setBa_checks (s : State) (i : WReg) (x : List Word) : (s.setBa i x).checks = s.checks := rfl
@[simp] theorem State.setBa_l2 (s : State) (i : WReg) (x : List Word) : (s.setBa i x).l2 = s.l2 := rfl
@[simp] theorem State.setBa_rgn (s : State) (i : WReg) (x : List Word) : (s.setBa i x).rgn = s.rgn := rfl
@[simp] theorem State.setBa_tlb (s : State) (i : WReg) (x : List Word) : (s.setBa i x).tlb = s.tlb := rfl
@[simp] theorem State.setBa_tlbis (s : State) (i : WReg) (x : List Word) : (s.setBa i x).tlbis = s.tlbis := rfl
@[simp] theorem State.setBa_multicast (s : State) (i : WReg) (x : List Word) : (s.setBa i x).multicast = s.multicast := rfl
@[simp] theorem State.setBa_cp (s : State) (i : WReg) (x : List Word) : (s.setBa i x).cp = s.cp := rfl
@[simp] theorem State.setBa_ctxs (s : State) (i : WReg) (x : List Word) : (s.setBa i x).ctxs = s.ctxs := rfl
@[simp] theorem State.setBa_creates (s : State) (i : WReg) (x : List Word) : (s.setBa i x).creates = s.creates := rfl
@[simp] theorem State.setBa_kernels (s : State) (i : WReg) (x : List Word) : (s.setBa i x).kernels = s.kernels := rfl
@[simp] theorem State.setBa_kernelSerial (s : State) (i : WReg) (x : List Word) : (s.setBa i x).kernelSerial = s.kernelSerial := rfl
@[simp] theorem State.setBa_aggregates (s : State) (i : WReg) (x : List Word) : (s.setBa i x).aggregates = s.aggregates := rfl
@[simp] theorem State.setBa_crews (s : State) (i : WReg) (x : List Word) : (s.setBa i x).crews = s.crews := rfl
@[simp] theorem State.setBa_cores (s : State) (i : WReg) (x : List Word) : (s.setBa i x).cores = s.cores := rfl
@[simp] theorem State.setBa_g (s : State) (i : WReg) (x : List Word) : (s.setBa i x).g = s.g := rfl
@[simp] theorem State.setBa_gangs (s : State) (i : WReg) (x : List Word) : (s.setBa i x).gangs = s.gangs := rfl
@[simp] theorem State.setBa_shadows (s : State) (i : WReg) (x : List Word) : (s.setBa i x).shadows = s.shadows := rfl
@[simp] theorem State.setBa_copies (s : State) (i : WReg) (x : List Word) : (s.setBa i x).copies = s.copies := rfl
@[simp] theorem State.setBa_mxs (s : State) (i : WReg) (x : List Word) : (s.setBa i x).mxs = s.mxs := rfl
@[simp] theorem State.setBa_lastStart (s : State) (i : WReg) (x : List Word) : (s.setBa i x).lastStart = s.lastStart := rfl
@[simp] theorem State.setBa_tasks (s : State) (i : WReg) (x : List Word) : (s.setBa i x).tasks = s.tasks := rfl
@[simp] theorem State.setBa_taskSerial (s : State) (i : WReg) (x : List Word) : (s.setBa i x).taskSerial = s.taskSerial := rfl
@[simp] theorem State.setBa_insts (s : State) (i : WReg) (x : List Word) : (s.setBa i x).insts = s.insts := rfl
@[simp] theorem State.setBa_ports (s : State) (i : WReg) (x : List Word) : (s.setBa i x).ports = s.ports := rfl
@[simp] theorem State.setBa_flows (s : State) (i : WReg) (x : List Word) : (s.setBa i x).flows = s.flows := rfl
@[simp] theorem State.setBa_rings (s : State) (i : WReg) (x : List Word) : (s.setBa i x).rings = s.rings := rfl
@[simp] theorem State.setBa_rxs (s : State) (i : WReg) (x : List Word) : (s.setBa i x).rxs = s.rxs := rfl
@[simp] theorem State.setBa_stalls (s : State) (i : WReg) (x : List Word) : (s.setBa i x).stalls = s.stalls := rfl
@[simp] theorem State.setBa_cwring (s : State) (i : WReg) (x : List Word) : (s.setBa i x).cwring = s.cwring := rfl
@[simp] theorem State.setBa_lostLinks (s : State) (i : WReg) (x : List Word) : (s.setBa i x).lostLinks = s.lostLinks := rfl
@[simp] theorem State.setBa_lostModules (s : State) (i : WReg) (x : List Word) : (s.setBa i x).lostModules = s.lostModules := rfl
@[simp] theorem State.setBa_rr (s : State) (i : WReg) (x : List Word) : (s.setBa i x).rr = s.rr := rfl
@[simp] theorem State.setBa_hosts (s : State) (i : WReg) (x : List Word) : (s.setBa i x).hosts = s.hosts := rfl
@[simp] theorem State.setBa_trained (s : State) (i : WReg) (x : List Word) : (s.setBa i x).trained = s.trained := rfl
@[simp] theorem State.setBa_dbg (s : State) (i : WReg) (x : List Word) : (s.setBa i x).dbg = s.dbg := rfl
@[simp] theorem State.setBa_errlog (s : State) (i : WReg) (x : List Word) : (s.setBa i x).errlog = s.errlog := rfl
@[simp] theorem State.setBa_pwr (s : State) (i : WReg) (x : List Word) : (s.setBa i x).pwr = s.pwr := rfl

/-! ### State.setInstPc -/

@[simp] theorem State.setInstPc_agenda (s : State) (pc : Word) : (s.setInstPc pc).agenda = s.agenda := rfl
@[simp] theorem State.setInstPc_focus (s : State) (pc : Word) : (s.setInstPc pc).focus = s.focus := rfl
@[simp] theorem State.setInstPc_free (s : State) (pc : Word) : (s.setInstPc pc).free = s.free := rfl
@[simp] theorem State.setInstPc_nextId (s : State) (pc : Word) : (s.setInstPc pc).nextId = s.nextId := rfl
@[simp] theorem State.setInstPc_reply (s : State) (pc : Word) : (s.setInstPc pc).reply = s.reply := rfl
@[simp] theorem State.setInstPc_cycle (s : State) (pc : Word) : (s.setInstPc pc).cycle = s.cycle := rfl
@[simp] theorem State.setInstPc_stackCycle (s : State) (pc : Word) : (s.setInstPc pc).stackCycle = s.stackCycle := rfl
@[simp] theorem State.setInstPc_heartbeat (s : State) (pc : Word) : (s.setInstPc pc).heartbeat = s.heartbeat := rfl
@[simp] theorem State.setInstPc_hbPeriod (s : State) (pc : Word) : (s.setInstPc pc).hbPeriod = s.hbPeriod := rfl
@[simp] theorem State.setInstPc_nextTick (s : State) (pc : Word) : (s.setInstPc pc).nextTick = s.nextTick := rfl
@[simp] theorem State.setInstPc_boot (s : State) (pc : Word) : (s.setInstPc pc).boot = s.boot := rfl
@[simp] theorem State.setInstPc_serial (s : State) (pc : Word) : (s.setInstPc pc).serial = s.serial := rfl
@[simp] theorem State.setInstPc_fwMajor (s : State) (pc : Word) : (s.setInstPc pc).fwMajor = s.fwMajor := rfl
@[simp] theorem State.setInstPc_fwMinor (s : State) (pc : Word) : (s.setInstPc pc).fwMinor = s.fwMinor := rfl
@[simp] theorem State.setInstPc_fwFix (s : State) (pc : Word) : (s.setInstPc pc).fwFix = s.fwFix := rfl
@[simp] theorem State.setInstPc_harvest (s : State) (pc : Word) : (s.setInstPc pc).harvest = s.harvest := rfl
@[simp] theorem State.setInstPc_rollback (s : State) (pc : Word) : (s.setInstPc pc).rollback = s.rollback := rfl
@[simp] theorem State.setInstPc_flash (s : State) (pc : Word) : (s.setInstPc pc).flash = s.flash := rfl
@[simp] theorem State.setInstPc_staged (s : State) (pc : Word) : (s.setInstPc pc).staged = s.staged := rfl
@[simp] theorem State.setInstPc_running (s : State) (pc : Word) : (s.setInstPc pc).running = s.running := rfl
@[simp] theorem State.setInstPc_dram (s : State) (pc : Word) : (s.setInstPc pc).dram = s.dram := rfl
@[simp] theorem State.setInstPc_poison (s : State) (pc : Word) : (s.setInstPc pc).poison = s.poison := rfl
@[simp] theorem State.setInstPc_checks (s : State) (pc : Word) : (s.setInstPc pc).checks = s.checks := rfl
@[simp] theorem State.setInstPc_l2 (s : State) (pc : Word) : (s.setInstPc pc).l2 = s.l2 := rfl
@[simp] theorem State.setInstPc_rgn (s : State) (pc : Word) : (s.setInstPc pc).rgn = s.rgn := rfl
@[simp] theorem State.setInstPc_tlb (s : State) (pc : Word) : (s.setInstPc pc).tlb = s.tlb := rfl
@[simp] theorem State.setInstPc_tlbis (s : State) (pc : Word) : (s.setInstPc pc).tlbis = s.tlbis := rfl
@[simp] theorem State.setInstPc_multicast (s : State) (pc : Word) : (s.setInstPc pc).multicast = s.multicast := rfl
@[simp] theorem State.setInstPc_cp (s : State) (pc : Word) : (s.setInstPc pc).cp = s.cp := rfl
@[simp] theorem State.setInstPc_ctxs (s : State) (pc : Word) : (s.setInstPc pc).ctxs = s.ctxs := rfl
@[simp] theorem State.setInstPc_creates (s : State) (pc : Word) : (s.setInstPc pc).creates = s.creates := rfl
@[simp] theorem State.setInstPc_kernels (s : State) (pc : Word) : (s.setInstPc pc).kernels = s.kernels := rfl
@[simp] theorem State.setInstPc_kernelSerial (s : State) (pc : Word) : (s.setInstPc pc).kernelSerial = s.kernelSerial := rfl
@[simp] theorem State.setInstPc_aggregates (s : State) (pc : Word) : (s.setInstPc pc).aggregates = s.aggregates := rfl
@[simp] theorem State.setInstPc_crews (s : State) (pc : Word) : (s.setInstPc pc).crews = s.crews := rfl
@[simp] theorem State.setInstPc_cores (s : State) (pc : Word) : (s.setInstPc pc).cores = s.cores := rfl
@[simp] theorem State.setInstPc_g (s : State) (pc : Word) : (s.setInstPc pc).g = s.g := rfl
@[simp] theorem State.setInstPc_gangs (s : State) (pc : Word) : (s.setInstPc pc).gangs = s.gangs := rfl
@[simp] theorem State.setInstPc_shadows (s : State) (pc : Word) : (s.setInstPc pc).shadows = s.shadows := rfl
@[simp] theorem State.setInstPc_copies (s : State) (pc : Word) : (s.setInstPc pc).copies = s.copies := rfl
@[simp] theorem State.setInstPc_mxs (s : State) (pc : Word) : (s.setInstPc pc).mxs = s.mxs := rfl
@[simp] theorem State.setInstPc_lastStart (s : State) (pc : Word) : (s.setInstPc pc).lastStart = s.lastStart := rfl
@[simp] theorem State.setInstPc_tasks (s : State) (pc : Word) : (s.setInstPc pc).tasks = s.tasks := rfl
@[simp] theorem State.setInstPc_taskSerial (s : State) (pc : Word) : (s.setInstPc pc).taskSerial = s.taskSerial := rfl
@[simp] theorem State.setInstPc_insts (s : State) (pc : Word) : (s.setInstPc pc).insts = s.insts := rfl
@[simp] theorem State.setInstPc_ports (s : State) (pc : Word) : (s.setInstPc pc).ports = s.ports := rfl
@[simp] theorem State.setInstPc_flows (s : State) (pc : Word) : (s.setInstPc pc).flows = s.flows := rfl
@[simp] theorem State.setInstPc_rings (s : State) (pc : Word) : (s.setInstPc pc).rings = s.rings := rfl
@[simp] theorem State.setInstPc_rxs (s : State) (pc : Word) : (s.setInstPc pc).rxs = s.rxs := rfl
@[simp] theorem State.setInstPc_stalls (s : State) (pc : Word) : (s.setInstPc pc).stalls = s.stalls := rfl
@[simp] theorem State.setInstPc_cwring (s : State) (pc : Word) : (s.setInstPc pc).cwring = s.cwring := rfl
@[simp] theorem State.setInstPc_lostLinks (s : State) (pc : Word) : (s.setInstPc pc).lostLinks = s.lostLinks := rfl
@[simp] theorem State.setInstPc_lostModules (s : State) (pc : Word) : (s.setInstPc pc).lostModules = s.lostModules := rfl
@[simp] theorem State.setInstPc_rr (s : State) (pc : Word) : (s.setInstPc pc).rr = s.rr := rfl
@[simp] theorem State.setInstPc_hosts (s : State) (pc : Word) : (s.setInstPc pc).hosts = s.hosts := rfl
@[simp] theorem State.setInstPc_trained (s : State) (pc : Word) : (s.setInstPc pc).trained = s.trained := rfl
@[simp] theorem State.setInstPc_dbg (s : State) (pc : Word) : (s.setInstPc pc).dbg = s.dbg := rfl
@[simp] theorem State.setInstPc_errlog (s : State) (pc : Word) : (s.setInstPc pc).errlog = s.errlog := rfl
@[simp] theorem State.setInstPc_pwr (s : State) (pc : Word) : (s.setInstPc pc).pwr = s.pwr := rfl

/-! ### State.updCrew -/

@[simp] theorem State.updCrew_agenda (s : State) (id : Nat) (f : Crew → Crew) : (s.updCrew id f).agenda = s.agenda := rfl
@[simp] theorem State.updCrew_focus (s : State) (id : Nat) (f : Crew → Crew) : (s.updCrew id f).focus = s.focus := rfl
@[simp] theorem State.updCrew_free (s : State) (id : Nat) (f : Crew → Crew) : (s.updCrew id f).free = s.free := rfl
@[simp] theorem State.updCrew_nextId (s : State) (id : Nat) (f : Crew → Crew) : (s.updCrew id f).nextId = s.nextId := rfl
@[simp] theorem State.updCrew_reply (s : State) (id : Nat) (f : Crew → Crew) : (s.updCrew id f).reply = s.reply := rfl
@[simp] theorem State.updCrew_cycle (s : State) (id : Nat) (f : Crew → Crew) : (s.updCrew id f).cycle = s.cycle := rfl
@[simp] theorem State.updCrew_stackCycle (s : State) (id : Nat) (f : Crew → Crew) : (s.updCrew id f).stackCycle = s.stackCycle := rfl
@[simp] theorem State.updCrew_heartbeat (s : State) (id : Nat) (f : Crew → Crew) : (s.updCrew id f).heartbeat = s.heartbeat := rfl
@[simp] theorem State.updCrew_hbPeriod (s : State) (id : Nat) (f : Crew → Crew) : (s.updCrew id f).hbPeriod = s.hbPeriod := rfl
@[simp] theorem State.updCrew_nextTick (s : State) (id : Nat) (f : Crew → Crew) : (s.updCrew id f).nextTick = s.nextTick := rfl
@[simp] theorem State.updCrew_boot (s : State) (id : Nat) (f : Crew → Crew) : (s.updCrew id f).boot = s.boot := rfl
@[simp] theorem State.updCrew_serial (s : State) (id : Nat) (f : Crew → Crew) : (s.updCrew id f).serial = s.serial := rfl
@[simp] theorem State.updCrew_fwMajor (s : State) (id : Nat) (f : Crew → Crew) : (s.updCrew id f).fwMajor = s.fwMajor := rfl
@[simp] theorem State.updCrew_fwMinor (s : State) (id : Nat) (f : Crew → Crew) : (s.updCrew id f).fwMinor = s.fwMinor := rfl
@[simp] theorem State.updCrew_fwFix (s : State) (id : Nat) (f : Crew → Crew) : (s.updCrew id f).fwFix = s.fwFix := rfl
@[simp] theorem State.updCrew_harvest (s : State) (id : Nat) (f : Crew → Crew) : (s.updCrew id f).harvest = s.harvest := rfl
@[simp] theorem State.updCrew_rollback (s : State) (id : Nat) (f : Crew → Crew) : (s.updCrew id f).rollback = s.rollback := rfl
@[simp] theorem State.updCrew_flash (s : State) (id : Nat) (f : Crew → Crew) : (s.updCrew id f).flash = s.flash := rfl
@[simp] theorem State.updCrew_staged (s : State) (id : Nat) (f : Crew → Crew) : (s.updCrew id f).staged = s.staged := rfl
@[simp] theorem State.updCrew_running (s : State) (id : Nat) (f : Crew → Crew) : (s.updCrew id f).running = s.running := rfl
@[simp] theorem State.updCrew_dram (s : State) (id : Nat) (f : Crew → Crew) : (s.updCrew id f).dram = s.dram := rfl
@[simp] theorem State.updCrew_poison (s : State) (id : Nat) (f : Crew → Crew) : (s.updCrew id f).poison = s.poison := rfl
@[simp] theorem State.updCrew_checks (s : State) (id : Nat) (f : Crew → Crew) : (s.updCrew id f).checks = s.checks := rfl
@[simp] theorem State.updCrew_l2 (s : State) (id : Nat) (f : Crew → Crew) : (s.updCrew id f).l2 = s.l2 := rfl
@[simp] theorem State.updCrew_rgn (s : State) (id : Nat) (f : Crew → Crew) : (s.updCrew id f).rgn = s.rgn := rfl
@[simp] theorem State.updCrew_tlb (s : State) (id : Nat) (f : Crew → Crew) : (s.updCrew id f).tlb = s.tlb := rfl
@[simp] theorem State.updCrew_tlbis (s : State) (id : Nat) (f : Crew → Crew) : (s.updCrew id f).tlbis = s.tlbis := rfl
@[simp] theorem State.updCrew_multicast (s : State) (id : Nat) (f : Crew → Crew) : (s.updCrew id f).multicast = s.multicast := rfl
@[simp] theorem State.updCrew_cp (s : State) (id : Nat) (f : Crew → Crew) : (s.updCrew id f).cp = s.cp := rfl
@[simp] theorem State.updCrew_ctxs (s : State) (id : Nat) (f : Crew → Crew) : (s.updCrew id f).ctxs = s.ctxs := rfl
@[simp] theorem State.updCrew_creates (s : State) (id : Nat) (f : Crew → Crew) : (s.updCrew id f).creates = s.creates := rfl
@[simp] theorem State.updCrew_kernels (s : State) (id : Nat) (f : Crew → Crew) : (s.updCrew id f).kernels = s.kernels := rfl
@[simp] theorem State.updCrew_kernelSerial (s : State) (id : Nat) (f : Crew → Crew) : (s.updCrew id f).kernelSerial = s.kernelSerial := rfl
@[simp] theorem State.updCrew_aggregates (s : State) (id : Nat) (f : Crew → Crew) : (s.updCrew id f).aggregates = s.aggregates := rfl
@[simp] theorem State.updCrew_cores (s : State) (id : Nat) (f : Crew → Crew) : (s.updCrew id f).cores = s.cores := rfl
@[simp] theorem State.updCrew_g (s : State) (id : Nat) (f : Crew → Crew) : (s.updCrew id f).g = s.g := rfl
@[simp] theorem State.updCrew_gangs (s : State) (id : Nat) (f : Crew → Crew) : (s.updCrew id f).gangs = s.gangs := rfl
@[simp] theorem State.updCrew_shadows (s : State) (id : Nat) (f : Crew → Crew) : (s.updCrew id f).shadows = s.shadows := rfl
@[simp] theorem State.updCrew_copies (s : State) (id : Nat) (f : Crew → Crew) : (s.updCrew id f).copies = s.copies := rfl
@[simp] theorem State.updCrew_mxs (s : State) (id : Nat) (f : Crew → Crew) : (s.updCrew id f).mxs = s.mxs := rfl
@[simp] theorem State.updCrew_lastStart (s : State) (id : Nat) (f : Crew → Crew) : (s.updCrew id f).lastStart = s.lastStart := rfl
@[simp] theorem State.updCrew_tasks (s : State) (id : Nat) (f : Crew → Crew) : (s.updCrew id f).tasks = s.tasks := rfl
@[simp] theorem State.updCrew_taskSerial (s : State) (id : Nat) (f : Crew → Crew) : (s.updCrew id f).taskSerial = s.taskSerial := rfl
@[simp] theorem State.updCrew_inst (s : State) (id : Nat) (f : Crew → Crew) : (s.updCrew id f).inst = s.inst := rfl
@[simp] theorem State.updCrew_insts (s : State) (id : Nat) (f : Crew → Crew) : (s.updCrew id f).insts = s.insts := rfl
@[simp] theorem State.updCrew_ports (s : State) (id : Nat) (f : Crew → Crew) : (s.updCrew id f).ports = s.ports := rfl
@[simp] theorem State.updCrew_flows (s : State) (id : Nat) (f : Crew → Crew) : (s.updCrew id f).flows = s.flows := rfl
@[simp] theorem State.updCrew_rings (s : State) (id : Nat) (f : Crew → Crew) : (s.updCrew id f).rings = s.rings := rfl
@[simp] theorem State.updCrew_rxs (s : State) (id : Nat) (f : Crew → Crew) : (s.updCrew id f).rxs = s.rxs := rfl
@[simp] theorem State.updCrew_stalls (s : State) (id : Nat) (f : Crew → Crew) : (s.updCrew id f).stalls = s.stalls := rfl
@[simp] theorem State.updCrew_cwring (s : State) (id : Nat) (f : Crew → Crew) : (s.updCrew id f).cwring = s.cwring := rfl
@[simp] theorem State.updCrew_lostLinks (s : State) (id : Nat) (f : Crew → Crew) : (s.updCrew id f).lostLinks = s.lostLinks := rfl
@[simp] theorem State.updCrew_lostModules (s : State) (id : Nat) (f : Crew → Crew) : (s.updCrew id f).lostModules = s.lostModules := rfl
@[simp] theorem State.updCrew_rr (s : State) (id : Nat) (f : Crew → Crew) : (s.updCrew id f).rr = s.rr := rfl
@[simp] theorem State.updCrew_hosts (s : State) (id : Nat) (f : Crew → Crew) : (s.updCrew id f).hosts = s.hosts := rfl
@[simp] theorem State.updCrew_trained (s : State) (id : Nat) (f : Crew → Crew) : (s.updCrew id f).trained = s.trained := rfl
@[simp] theorem State.updCrew_dbg (s : State) (id : Nat) (f : Crew → Crew) : (s.updCrew id f).dbg = s.dbg := rfl
@[simp] theorem State.updCrew_errlog (s : State) (id : Nat) (f : Crew → Crew) : (s.updCrew id f).errlog = s.errlog := rfl
@[simp] theorem State.updCrew_pwr (s : State) (id : Nat) (f : Crew → Crew) : (s.updCrew id f).pwr = s.pwr := rfl

/-! ### State.updKernel -/

@[simp] theorem State.updKernel_agenda (s : State) (n : Nat) (f : Kernel → Kernel) : (s.updKernel n f).agenda = s.agenda := rfl
@[simp] theorem State.updKernel_focus (s : State) (n : Nat) (f : Kernel → Kernel) : (s.updKernel n f).focus = s.focus := rfl
@[simp] theorem State.updKernel_free (s : State) (n : Nat) (f : Kernel → Kernel) : (s.updKernel n f).free = s.free := rfl
@[simp] theorem State.updKernel_nextId (s : State) (n : Nat) (f : Kernel → Kernel) : (s.updKernel n f).nextId = s.nextId := rfl
@[simp] theorem State.updKernel_reply (s : State) (n : Nat) (f : Kernel → Kernel) : (s.updKernel n f).reply = s.reply := rfl
@[simp] theorem State.updKernel_cycle (s : State) (n : Nat) (f : Kernel → Kernel) : (s.updKernel n f).cycle = s.cycle := rfl
@[simp] theorem State.updKernel_stackCycle (s : State) (n : Nat) (f : Kernel → Kernel) : (s.updKernel n f).stackCycle = s.stackCycle := rfl
@[simp] theorem State.updKernel_heartbeat (s : State) (n : Nat) (f : Kernel → Kernel) : (s.updKernel n f).heartbeat = s.heartbeat := rfl
@[simp] theorem State.updKernel_hbPeriod (s : State) (n : Nat) (f : Kernel → Kernel) : (s.updKernel n f).hbPeriod = s.hbPeriod := rfl
@[simp] theorem State.updKernel_nextTick (s : State) (n : Nat) (f : Kernel → Kernel) : (s.updKernel n f).nextTick = s.nextTick := rfl
@[simp] theorem State.updKernel_boot (s : State) (n : Nat) (f : Kernel → Kernel) : (s.updKernel n f).boot = s.boot := rfl
@[simp] theorem State.updKernel_serial (s : State) (n : Nat) (f : Kernel → Kernel) : (s.updKernel n f).serial = s.serial := rfl
@[simp] theorem State.updKernel_fwMajor (s : State) (n : Nat) (f : Kernel → Kernel) : (s.updKernel n f).fwMajor = s.fwMajor := rfl
@[simp] theorem State.updKernel_fwMinor (s : State) (n : Nat) (f : Kernel → Kernel) : (s.updKernel n f).fwMinor = s.fwMinor := rfl
@[simp] theorem State.updKernel_fwFix (s : State) (n : Nat) (f : Kernel → Kernel) : (s.updKernel n f).fwFix = s.fwFix := rfl
@[simp] theorem State.updKernel_harvest (s : State) (n : Nat) (f : Kernel → Kernel) : (s.updKernel n f).harvest = s.harvest := rfl
@[simp] theorem State.updKernel_rollback (s : State) (n : Nat) (f : Kernel → Kernel) : (s.updKernel n f).rollback = s.rollback := rfl
@[simp] theorem State.updKernel_flash (s : State) (n : Nat) (f : Kernel → Kernel) : (s.updKernel n f).flash = s.flash := rfl
@[simp] theorem State.updKernel_staged (s : State) (n : Nat) (f : Kernel → Kernel) : (s.updKernel n f).staged = s.staged := rfl
@[simp] theorem State.updKernel_running (s : State) (n : Nat) (f : Kernel → Kernel) : (s.updKernel n f).running = s.running := rfl
@[simp] theorem State.updKernel_dram (s : State) (n : Nat) (f : Kernel → Kernel) : (s.updKernel n f).dram = s.dram := rfl
@[simp] theorem State.updKernel_poison (s : State) (n : Nat) (f : Kernel → Kernel) : (s.updKernel n f).poison = s.poison := rfl
@[simp] theorem State.updKernel_checks (s : State) (n : Nat) (f : Kernel → Kernel) : (s.updKernel n f).checks = s.checks := rfl
@[simp] theorem State.updKernel_l2 (s : State) (n : Nat) (f : Kernel → Kernel) : (s.updKernel n f).l2 = s.l2 := rfl
@[simp] theorem State.updKernel_rgn (s : State) (n : Nat) (f : Kernel → Kernel) : (s.updKernel n f).rgn = s.rgn := rfl
@[simp] theorem State.updKernel_tlb (s : State) (n : Nat) (f : Kernel → Kernel) : (s.updKernel n f).tlb = s.tlb := rfl
@[simp] theorem State.updKernel_tlbis (s : State) (n : Nat) (f : Kernel → Kernel) : (s.updKernel n f).tlbis = s.tlbis := rfl
@[simp] theorem State.updKernel_multicast (s : State) (n : Nat) (f : Kernel → Kernel) : (s.updKernel n f).multicast = s.multicast := rfl
@[simp] theorem State.updKernel_cp (s : State) (n : Nat) (f : Kernel → Kernel) : (s.updKernel n f).cp = s.cp := rfl
@[simp] theorem State.updKernel_ctxs (s : State) (n : Nat) (f : Kernel → Kernel) : (s.updKernel n f).ctxs = s.ctxs := rfl
@[simp] theorem State.updKernel_creates (s : State) (n : Nat) (f : Kernel → Kernel) : (s.updKernel n f).creates = s.creates := rfl
@[simp] theorem State.updKernel_kernelSerial (s : State) (n : Nat) (f : Kernel → Kernel) : (s.updKernel n f).kernelSerial = s.kernelSerial := rfl
@[simp] theorem State.updKernel_aggregates (s : State) (n : Nat) (f : Kernel → Kernel) : (s.updKernel n f).aggregates = s.aggregates := rfl
@[simp] theorem State.updKernel_crews (s : State) (n : Nat) (f : Kernel → Kernel) : (s.updKernel n f).crews = s.crews := rfl
@[simp] theorem State.updKernel_cores (s : State) (n : Nat) (f : Kernel → Kernel) : (s.updKernel n f).cores = s.cores := rfl
@[simp] theorem State.updKernel_g (s : State) (n : Nat) (f : Kernel → Kernel) : (s.updKernel n f).g = s.g := rfl
@[simp] theorem State.updKernel_gangs (s : State) (n : Nat) (f : Kernel → Kernel) : (s.updKernel n f).gangs = s.gangs := rfl
@[simp] theorem State.updKernel_shadows (s : State) (n : Nat) (f : Kernel → Kernel) : (s.updKernel n f).shadows = s.shadows := rfl
@[simp] theorem State.updKernel_copies (s : State) (n : Nat) (f : Kernel → Kernel) : (s.updKernel n f).copies = s.copies := rfl
@[simp] theorem State.updKernel_mxs (s : State) (n : Nat) (f : Kernel → Kernel) : (s.updKernel n f).mxs = s.mxs := rfl
@[simp] theorem State.updKernel_lastStart (s : State) (n : Nat) (f : Kernel → Kernel) : (s.updKernel n f).lastStart = s.lastStart := rfl
@[simp] theorem State.updKernel_tasks (s : State) (n : Nat) (f : Kernel → Kernel) : (s.updKernel n f).tasks = s.tasks := rfl
@[simp] theorem State.updKernel_taskSerial (s : State) (n : Nat) (f : Kernel → Kernel) : (s.updKernel n f).taskSerial = s.taskSerial := rfl
@[simp] theorem State.updKernel_inst (s : State) (n : Nat) (f : Kernel → Kernel) : (s.updKernel n f).inst = s.inst := rfl
@[simp] theorem State.updKernel_insts (s : State) (n : Nat) (f : Kernel → Kernel) : (s.updKernel n f).insts = s.insts := rfl
@[simp] theorem State.updKernel_ports (s : State) (n : Nat) (f : Kernel → Kernel) : (s.updKernel n f).ports = s.ports := rfl
@[simp] theorem State.updKernel_flows (s : State) (n : Nat) (f : Kernel → Kernel) : (s.updKernel n f).flows = s.flows := rfl
@[simp] theorem State.updKernel_rings (s : State) (n : Nat) (f : Kernel → Kernel) : (s.updKernel n f).rings = s.rings := rfl
@[simp] theorem State.updKernel_rxs (s : State) (n : Nat) (f : Kernel → Kernel) : (s.updKernel n f).rxs = s.rxs := rfl
@[simp] theorem State.updKernel_stalls (s : State) (n : Nat) (f : Kernel → Kernel) : (s.updKernel n f).stalls = s.stalls := rfl
@[simp] theorem State.updKernel_cwring (s : State) (n : Nat) (f : Kernel → Kernel) : (s.updKernel n f).cwring = s.cwring := rfl
@[simp] theorem State.updKernel_lostLinks (s : State) (n : Nat) (f : Kernel → Kernel) : (s.updKernel n f).lostLinks = s.lostLinks := rfl
@[simp] theorem State.updKernel_lostModules (s : State) (n : Nat) (f : Kernel → Kernel) : (s.updKernel n f).lostModules = s.lostModules := rfl
@[simp] theorem State.updKernel_rr (s : State) (n : Nat) (f : Kernel → Kernel) : (s.updKernel n f).rr = s.rr := rfl
@[simp] theorem State.updKernel_hosts (s : State) (n : Nat) (f : Kernel → Kernel) : (s.updKernel n f).hosts = s.hosts := rfl
@[simp] theorem State.updKernel_trained (s : State) (n : Nat) (f : Kernel → Kernel) : (s.updKernel n f).trained = s.trained := rfl
@[simp] theorem State.updKernel_dbg (s : State) (n : Nat) (f : Kernel → Kernel) : (s.updKernel n f).dbg = s.dbg := rfl
@[simp] theorem State.updKernel_errlog (s : State) (n : Nat) (f : Kernel → Kernel) : (s.updKernel n f).errlog = s.errlog := rfl
@[simp] theorem State.updKernel_pwr (s : State) (n : Nat) (f : Kernel → Kernel) : (s.updKernel n f).pwr = s.pwr := rfl

/-! ### State.updTask -/

@[simp] theorem State.updTask_agenda (s : State) (n : Nat) (f : Task → Task) : (s.updTask n f).agenda = s.agenda := rfl
@[simp] theorem State.updTask_focus (s : State) (n : Nat) (f : Task → Task) : (s.updTask n f).focus = s.focus := rfl
@[simp] theorem State.updTask_free (s : State) (n : Nat) (f : Task → Task) : (s.updTask n f).free = s.free := rfl
@[simp] theorem State.updTask_nextId (s : State) (n : Nat) (f : Task → Task) : (s.updTask n f).nextId = s.nextId := rfl
@[simp] theorem State.updTask_reply (s : State) (n : Nat) (f : Task → Task) : (s.updTask n f).reply = s.reply := rfl
@[simp] theorem State.updTask_cycle (s : State) (n : Nat) (f : Task → Task) : (s.updTask n f).cycle = s.cycle := rfl
@[simp] theorem State.updTask_stackCycle (s : State) (n : Nat) (f : Task → Task) : (s.updTask n f).stackCycle = s.stackCycle := rfl
@[simp] theorem State.updTask_heartbeat (s : State) (n : Nat) (f : Task → Task) : (s.updTask n f).heartbeat = s.heartbeat := rfl
@[simp] theorem State.updTask_hbPeriod (s : State) (n : Nat) (f : Task → Task) : (s.updTask n f).hbPeriod = s.hbPeriod := rfl
@[simp] theorem State.updTask_nextTick (s : State) (n : Nat) (f : Task → Task) : (s.updTask n f).nextTick = s.nextTick := rfl
@[simp] theorem State.updTask_boot (s : State) (n : Nat) (f : Task → Task) : (s.updTask n f).boot = s.boot := rfl
@[simp] theorem State.updTask_serial (s : State) (n : Nat) (f : Task → Task) : (s.updTask n f).serial = s.serial := rfl
@[simp] theorem State.updTask_fwMajor (s : State) (n : Nat) (f : Task → Task) : (s.updTask n f).fwMajor = s.fwMajor := rfl
@[simp] theorem State.updTask_fwMinor (s : State) (n : Nat) (f : Task → Task) : (s.updTask n f).fwMinor = s.fwMinor := rfl
@[simp] theorem State.updTask_fwFix (s : State) (n : Nat) (f : Task → Task) : (s.updTask n f).fwFix = s.fwFix := rfl
@[simp] theorem State.updTask_harvest (s : State) (n : Nat) (f : Task → Task) : (s.updTask n f).harvest = s.harvest := rfl
@[simp] theorem State.updTask_rollback (s : State) (n : Nat) (f : Task → Task) : (s.updTask n f).rollback = s.rollback := rfl
@[simp] theorem State.updTask_flash (s : State) (n : Nat) (f : Task → Task) : (s.updTask n f).flash = s.flash := rfl
@[simp] theorem State.updTask_staged (s : State) (n : Nat) (f : Task → Task) : (s.updTask n f).staged = s.staged := rfl
@[simp] theorem State.updTask_running (s : State) (n : Nat) (f : Task → Task) : (s.updTask n f).running = s.running := rfl
@[simp] theorem State.updTask_dram (s : State) (n : Nat) (f : Task → Task) : (s.updTask n f).dram = s.dram := rfl
@[simp] theorem State.updTask_poison (s : State) (n : Nat) (f : Task → Task) : (s.updTask n f).poison = s.poison := rfl
@[simp] theorem State.updTask_checks (s : State) (n : Nat) (f : Task → Task) : (s.updTask n f).checks = s.checks := rfl
@[simp] theorem State.updTask_l2 (s : State) (n : Nat) (f : Task → Task) : (s.updTask n f).l2 = s.l2 := rfl
@[simp] theorem State.updTask_rgn (s : State) (n : Nat) (f : Task → Task) : (s.updTask n f).rgn = s.rgn := rfl
@[simp] theorem State.updTask_tlb (s : State) (n : Nat) (f : Task → Task) : (s.updTask n f).tlb = s.tlb := rfl
@[simp] theorem State.updTask_tlbis (s : State) (n : Nat) (f : Task → Task) : (s.updTask n f).tlbis = s.tlbis := rfl
@[simp] theorem State.updTask_multicast (s : State) (n : Nat) (f : Task → Task) : (s.updTask n f).multicast = s.multicast := rfl
@[simp] theorem State.updTask_cp (s : State) (n : Nat) (f : Task → Task) : (s.updTask n f).cp = s.cp := rfl
@[simp] theorem State.updTask_ctxs (s : State) (n : Nat) (f : Task → Task) : (s.updTask n f).ctxs = s.ctxs := rfl
@[simp] theorem State.updTask_creates (s : State) (n : Nat) (f : Task → Task) : (s.updTask n f).creates = s.creates := rfl
@[simp] theorem State.updTask_kernels (s : State) (n : Nat) (f : Task → Task) : (s.updTask n f).kernels = s.kernels := rfl
@[simp] theorem State.updTask_kernelSerial (s : State) (n : Nat) (f : Task → Task) : (s.updTask n f).kernelSerial = s.kernelSerial := rfl
@[simp] theorem State.updTask_aggregates (s : State) (n : Nat) (f : Task → Task) : (s.updTask n f).aggregates = s.aggregates := rfl
@[simp] theorem State.updTask_crews (s : State) (n : Nat) (f : Task → Task) : (s.updTask n f).crews = s.crews := rfl
@[simp] theorem State.updTask_cores (s : State) (n : Nat) (f : Task → Task) : (s.updTask n f).cores = s.cores := rfl
@[simp] theorem State.updTask_g (s : State) (n : Nat) (f : Task → Task) : (s.updTask n f).g = s.g := rfl
@[simp] theorem State.updTask_gangs (s : State) (n : Nat) (f : Task → Task) : (s.updTask n f).gangs = s.gangs := rfl
@[simp] theorem State.updTask_shadows (s : State) (n : Nat) (f : Task → Task) : (s.updTask n f).shadows = s.shadows := rfl
@[simp] theorem State.updTask_copies (s : State) (n : Nat) (f : Task → Task) : (s.updTask n f).copies = s.copies := rfl
@[simp] theorem State.updTask_mxs (s : State) (n : Nat) (f : Task → Task) : (s.updTask n f).mxs = s.mxs := rfl
@[simp] theorem State.updTask_lastStart (s : State) (n : Nat) (f : Task → Task) : (s.updTask n f).lastStart = s.lastStart := rfl
@[simp] theorem State.updTask_taskSerial (s : State) (n : Nat) (f : Task → Task) : (s.updTask n f).taskSerial = s.taskSerial := rfl
@[simp] theorem State.updTask_inst (s : State) (n : Nat) (f : Task → Task) : (s.updTask n f).inst = s.inst := rfl
@[simp] theorem State.updTask_insts (s : State) (n : Nat) (f : Task → Task) : (s.updTask n f).insts = s.insts := rfl
@[simp] theorem State.updTask_ports (s : State) (n : Nat) (f : Task → Task) : (s.updTask n f).ports = s.ports := rfl
@[simp] theorem State.updTask_flows (s : State) (n : Nat) (f : Task → Task) : (s.updTask n f).flows = s.flows := rfl
@[simp] theorem State.updTask_rings (s : State) (n : Nat) (f : Task → Task) : (s.updTask n f).rings = s.rings := rfl
@[simp] theorem State.updTask_rxs (s : State) (n : Nat) (f : Task → Task) : (s.updTask n f).rxs = s.rxs := rfl
@[simp] theorem State.updTask_stalls (s : State) (n : Nat) (f : Task → Task) : (s.updTask n f).stalls = s.stalls := rfl
@[simp] theorem State.updTask_cwring (s : State) (n : Nat) (f : Task → Task) : (s.updTask n f).cwring = s.cwring := rfl
@[simp] theorem State.updTask_lostLinks (s : State) (n : Nat) (f : Task → Task) : (s.updTask n f).lostLinks = s.lostLinks := rfl
@[simp] theorem State.updTask_lostModules (s : State) (n : Nat) (f : Task → Task) : (s.updTask n f).lostModules = s.lostModules := rfl
@[simp] theorem State.updTask_rr (s : State) (n : Nat) (f : Task → Task) : (s.updTask n f).rr = s.rr := rfl
@[simp] theorem State.updTask_hosts (s : State) (n : Nat) (f : Task → Task) : (s.updTask n f).hosts = s.hosts := rfl
@[simp] theorem State.updTask_trained (s : State) (n : Nat) (f : Task → Task) : (s.updTask n f).trained = s.trained := rfl
@[simp] theorem State.updTask_dbg (s : State) (n : Nat) (f : Task → Task) : (s.updTask n f).dbg = s.dbg := rfl
@[simp] theorem State.updTask_errlog (s : State) (n : Nat) (f : Task → Task) : (s.updTask n f).errlog = s.errlog := rfl
@[simp] theorem State.updTask_pwr (s : State) (n : Nat) (f : Task → Task) : (s.updTask n f).pwr = s.pwr := rfl

/-! ### State.updCtx -/

@[simp] theorem State.updCtx_agenda (s : State) (asid : Nat) (f : Ctx → Ctx) : (s.updCtx asid f).agenda = s.agenda := rfl
@[simp] theorem State.updCtx_focus (s : State) (asid : Nat) (f : Ctx → Ctx) : (s.updCtx asid f).focus = s.focus := rfl
@[simp] theorem State.updCtx_free (s : State) (asid : Nat) (f : Ctx → Ctx) : (s.updCtx asid f).free = s.free := rfl
@[simp] theorem State.updCtx_nextId (s : State) (asid : Nat) (f : Ctx → Ctx) : (s.updCtx asid f).nextId = s.nextId := rfl
@[simp] theorem State.updCtx_reply (s : State) (asid : Nat) (f : Ctx → Ctx) : (s.updCtx asid f).reply = s.reply := rfl
@[simp] theorem State.updCtx_cycle (s : State) (asid : Nat) (f : Ctx → Ctx) : (s.updCtx asid f).cycle = s.cycle := rfl
@[simp] theorem State.updCtx_stackCycle (s : State) (asid : Nat) (f : Ctx → Ctx) : (s.updCtx asid f).stackCycle = s.stackCycle := rfl
@[simp] theorem State.updCtx_heartbeat (s : State) (asid : Nat) (f : Ctx → Ctx) : (s.updCtx asid f).heartbeat = s.heartbeat := rfl
@[simp] theorem State.updCtx_hbPeriod (s : State) (asid : Nat) (f : Ctx → Ctx) : (s.updCtx asid f).hbPeriod = s.hbPeriod := rfl
@[simp] theorem State.updCtx_nextTick (s : State) (asid : Nat) (f : Ctx → Ctx) : (s.updCtx asid f).nextTick = s.nextTick := rfl
@[simp] theorem State.updCtx_boot (s : State) (asid : Nat) (f : Ctx → Ctx) : (s.updCtx asid f).boot = s.boot := rfl
@[simp] theorem State.updCtx_serial (s : State) (asid : Nat) (f : Ctx → Ctx) : (s.updCtx asid f).serial = s.serial := rfl
@[simp] theorem State.updCtx_fwMajor (s : State) (asid : Nat) (f : Ctx → Ctx) : (s.updCtx asid f).fwMajor = s.fwMajor := rfl
@[simp] theorem State.updCtx_fwMinor (s : State) (asid : Nat) (f : Ctx → Ctx) : (s.updCtx asid f).fwMinor = s.fwMinor := rfl
@[simp] theorem State.updCtx_fwFix (s : State) (asid : Nat) (f : Ctx → Ctx) : (s.updCtx asid f).fwFix = s.fwFix := rfl
@[simp] theorem State.updCtx_harvest (s : State) (asid : Nat) (f : Ctx → Ctx) : (s.updCtx asid f).harvest = s.harvest := rfl
@[simp] theorem State.updCtx_rollback (s : State) (asid : Nat) (f : Ctx → Ctx) : (s.updCtx asid f).rollback = s.rollback := rfl
@[simp] theorem State.updCtx_flash (s : State) (asid : Nat) (f : Ctx → Ctx) : (s.updCtx asid f).flash = s.flash := rfl
@[simp] theorem State.updCtx_staged (s : State) (asid : Nat) (f : Ctx → Ctx) : (s.updCtx asid f).staged = s.staged := rfl
@[simp] theorem State.updCtx_running (s : State) (asid : Nat) (f : Ctx → Ctx) : (s.updCtx asid f).running = s.running := rfl
@[simp] theorem State.updCtx_dram (s : State) (asid : Nat) (f : Ctx → Ctx) : (s.updCtx asid f).dram = s.dram := rfl
@[simp] theorem State.updCtx_poison (s : State) (asid : Nat) (f : Ctx → Ctx) : (s.updCtx asid f).poison = s.poison := rfl
@[simp] theorem State.updCtx_checks (s : State) (asid : Nat) (f : Ctx → Ctx) : (s.updCtx asid f).checks = s.checks := rfl
@[simp] theorem State.updCtx_l2 (s : State) (asid : Nat) (f : Ctx → Ctx) : (s.updCtx asid f).l2 = s.l2 := rfl
@[simp] theorem State.updCtx_rgn (s : State) (asid : Nat) (f : Ctx → Ctx) : (s.updCtx asid f).rgn = s.rgn := rfl
@[simp] theorem State.updCtx_tlb (s : State) (asid : Nat) (f : Ctx → Ctx) : (s.updCtx asid f).tlb = s.tlb := rfl
@[simp] theorem State.updCtx_tlbis (s : State) (asid : Nat) (f : Ctx → Ctx) : (s.updCtx asid f).tlbis = s.tlbis := rfl
@[simp] theorem State.updCtx_multicast (s : State) (asid : Nat) (f : Ctx → Ctx) : (s.updCtx asid f).multicast = s.multicast := rfl
@[simp] theorem State.updCtx_cp (s : State) (asid : Nat) (f : Ctx → Ctx) : (s.updCtx asid f).cp = s.cp := rfl
@[simp] theorem State.updCtx_creates (s : State) (asid : Nat) (f : Ctx → Ctx) : (s.updCtx asid f).creates = s.creates := rfl
@[simp] theorem State.updCtx_kernels (s : State) (asid : Nat) (f : Ctx → Ctx) : (s.updCtx asid f).kernels = s.kernels := rfl
@[simp] theorem State.updCtx_kernelSerial (s : State) (asid : Nat) (f : Ctx → Ctx) : (s.updCtx asid f).kernelSerial = s.kernelSerial := rfl
@[simp] theorem State.updCtx_aggregates (s : State) (asid : Nat) (f : Ctx → Ctx) : (s.updCtx asid f).aggregates = s.aggregates := rfl
@[simp] theorem State.updCtx_crews (s : State) (asid : Nat) (f : Ctx → Ctx) : (s.updCtx asid f).crews = s.crews := rfl
@[simp] theorem State.updCtx_cores (s : State) (asid : Nat) (f : Ctx → Ctx) : (s.updCtx asid f).cores = s.cores := rfl
@[simp] theorem State.updCtx_g (s : State) (asid : Nat) (f : Ctx → Ctx) : (s.updCtx asid f).g = s.g := rfl
@[simp] theorem State.updCtx_gangs (s : State) (asid : Nat) (f : Ctx → Ctx) : (s.updCtx asid f).gangs = s.gangs := rfl
@[simp] theorem State.updCtx_shadows (s : State) (asid : Nat) (f : Ctx → Ctx) : (s.updCtx asid f).shadows = s.shadows := rfl
@[simp] theorem State.updCtx_copies (s : State) (asid : Nat) (f : Ctx → Ctx) : (s.updCtx asid f).copies = s.copies := rfl
@[simp] theorem State.updCtx_mxs (s : State) (asid : Nat) (f : Ctx → Ctx) : (s.updCtx asid f).mxs = s.mxs := rfl
@[simp] theorem State.updCtx_lastStart (s : State) (asid : Nat) (f : Ctx → Ctx) : (s.updCtx asid f).lastStart = s.lastStart := rfl
@[simp] theorem State.updCtx_tasks (s : State) (asid : Nat) (f : Ctx → Ctx) : (s.updCtx asid f).tasks = s.tasks := rfl
@[simp] theorem State.updCtx_taskSerial (s : State) (asid : Nat) (f : Ctx → Ctx) : (s.updCtx asid f).taskSerial = s.taskSerial := rfl
@[simp] theorem State.updCtx_inst (s : State) (asid : Nat) (f : Ctx → Ctx) : (s.updCtx asid f).inst = s.inst := rfl
@[simp] theorem State.updCtx_insts (s : State) (asid : Nat) (f : Ctx → Ctx) : (s.updCtx asid f).insts = s.insts := rfl
@[simp] theorem State.updCtx_ports (s : State) (asid : Nat) (f : Ctx → Ctx) : (s.updCtx asid f).ports = s.ports := rfl
@[simp] theorem State.updCtx_flows (s : State) (asid : Nat) (f : Ctx → Ctx) : (s.updCtx asid f).flows = s.flows := rfl
@[simp] theorem State.updCtx_rings (s : State) (asid : Nat) (f : Ctx → Ctx) : (s.updCtx asid f).rings = s.rings := rfl
@[simp] theorem State.updCtx_rxs (s : State) (asid : Nat) (f : Ctx → Ctx) : (s.updCtx asid f).rxs = s.rxs := rfl
@[simp] theorem State.updCtx_stalls (s : State) (asid : Nat) (f : Ctx → Ctx) : (s.updCtx asid f).stalls = s.stalls := rfl
@[simp] theorem State.updCtx_cwring (s : State) (asid : Nat) (f : Ctx → Ctx) : (s.updCtx asid f).cwring = s.cwring := rfl
@[simp] theorem State.updCtx_lostLinks (s : State) (asid : Nat) (f : Ctx → Ctx) : (s.updCtx asid f).lostLinks = s.lostLinks := rfl
@[simp] theorem State.updCtx_lostModules (s : State) (asid : Nat) (f : Ctx → Ctx) : (s.updCtx asid f).lostModules = s.lostModules := rfl
@[simp] theorem State.updCtx_rr (s : State) (asid : Nat) (f : Ctx → Ctx) : (s.updCtx asid f).rr = s.rr := rfl
@[simp] theorem State.updCtx_hosts (s : State) (asid : Nat) (f : Ctx → Ctx) : (s.updCtx asid f).hosts = s.hosts := rfl
@[simp] theorem State.updCtx_trained (s : State) (asid : Nat) (f : Ctx → Ctx) : (s.updCtx asid f).trained = s.trained := rfl
@[simp] theorem State.updCtx_dbg (s : State) (asid : Nat) (f : Ctx → Ctx) : (s.updCtx asid f).dbg = s.dbg := rfl
@[simp] theorem State.updCtx_errlog (s : State) (asid : Nat) (f : Ctx → Ctx) : (s.updCtx asid f).errlog = s.errlog := rfl
@[simp] theorem State.updCtx_pwr (s : State) (asid : Nat) (f : Ctx → Ctx) : (s.updCtx asid f).pwr = s.pwr := rfl

/-! ### State.issued -/

@[simp] theorem State.issued_agenda (s : State) (lane : Bool) : (s.issued lane).agenda = s.agenda := rfl
@[simp] theorem State.issued_focus (s : State) (lane : Bool) : (s.issued lane).focus = s.focus := rfl
@[simp] theorem State.issued_free (s : State) (lane : Bool) : (s.issued lane).free = s.free := rfl
@[simp] theorem State.issued_nextId (s : State) (lane : Bool) : (s.issued lane).nextId = s.nextId := rfl
@[simp] theorem State.issued_reply (s : State) (lane : Bool) : (s.issued lane).reply = s.reply := rfl
@[simp] theorem State.issued_cycle (s : State) (lane : Bool) : (s.issued lane).cycle = s.cycle := rfl
@[simp] theorem State.issued_stackCycle (s : State) (lane : Bool) : (s.issued lane).stackCycle = s.stackCycle := rfl
@[simp] theorem State.issued_heartbeat (s : State) (lane : Bool) : (s.issued lane).heartbeat = s.heartbeat := rfl
@[simp] theorem State.issued_hbPeriod (s : State) (lane : Bool) : (s.issued lane).hbPeriod = s.hbPeriod := rfl
@[simp] theorem State.issued_nextTick (s : State) (lane : Bool) : (s.issued lane).nextTick = s.nextTick := rfl
@[simp] theorem State.issued_boot (s : State) (lane : Bool) : (s.issued lane).boot = s.boot := rfl
@[simp] theorem State.issued_serial (s : State) (lane : Bool) : (s.issued lane).serial = s.serial := rfl
@[simp] theorem State.issued_fwMajor (s : State) (lane : Bool) : (s.issued lane).fwMajor = s.fwMajor := rfl
@[simp] theorem State.issued_fwMinor (s : State) (lane : Bool) : (s.issued lane).fwMinor = s.fwMinor := rfl
@[simp] theorem State.issued_fwFix (s : State) (lane : Bool) : (s.issued lane).fwFix = s.fwFix := rfl
@[simp] theorem State.issued_harvest (s : State) (lane : Bool) : (s.issued lane).harvest = s.harvest := rfl
@[simp] theorem State.issued_rollback (s : State) (lane : Bool) : (s.issued lane).rollback = s.rollback := rfl
@[simp] theorem State.issued_flash (s : State) (lane : Bool) : (s.issued lane).flash = s.flash := rfl
@[simp] theorem State.issued_staged (s : State) (lane : Bool) : (s.issued lane).staged = s.staged := rfl
@[simp] theorem State.issued_running (s : State) (lane : Bool) : (s.issued lane).running = s.running := rfl
@[simp] theorem State.issued_dram (s : State) (lane : Bool) : (s.issued lane).dram = s.dram := rfl
@[simp] theorem State.issued_poison (s : State) (lane : Bool) : (s.issued lane).poison = s.poison := rfl
@[simp] theorem State.issued_checks (s : State) (lane : Bool) : (s.issued lane).checks = s.checks := rfl
@[simp] theorem State.issued_l2 (s : State) (lane : Bool) : (s.issued lane).l2 = s.l2 := rfl
@[simp] theorem State.issued_rgn (s : State) (lane : Bool) : (s.issued lane).rgn = s.rgn := rfl
@[simp] theorem State.issued_tlb (s : State) (lane : Bool) : (s.issued lane).tlb = s.tlb := rfl
@[simp] theorem State.issued_tlbis (s : State) (lane : Bool) : (s.issued lane).tlbis = s.tlbis := rfl
@[simp] theorem State.issued_multicast (s : State) (lane : Bool) : (s.issued lane).multicast = s.multicast := rfl
@[simp] theorem State.issued_cp (s : State) (lane : Bool) : (s.issued lane).cp = s.cp := rfl
@[simp] theorem State.issued_ctxs (s : State) (lane : Bool) : (s.issued lane).ctxs = s.ctxs := rfl
@[simp] theorem State.issued_creates (s : State) (lane : Bool) : (s.issued lane).creates = s.creates := rfl
@[simp] theorem State.issued_kernels (s : State) (lane : Bool) : (s.issued lane).kernels = s.kernels := rfl
@[simp] theorem State.issued_kernelSerial (s : State) (lane : Bool) : (s.issued lane).kernelSerial = s.kernelSerial := rfl
@[simp] theorem State.issued_aggregates (s : State) (lane : Bool) : (s.issued lane).aggregates = s.aggregates := rfl
@[simp] theorem State.issued_crews (s : State) (lane : Bool) : (s.issued lane).crews = s.crews := rfl
@[simp] theorem State.issued_cores (s : State) (lane : Bool) : (s.issued lane).cores = s.cores := rfl
@[simp] theorem State.issued_gangs (s : State) (lane : Bool) : (s.issued lane).gangs = s.gangs := rfl
@[simp] theorem State.issued_shadows (s : State) (lane : Bool) : (s.issued lane).shadows = s.shadows := rfl
@[simp] theorem State.issued_copies (s : State) (lane : Bool) : (s.issued lane).copies = s.copies := rfl
@[simp] theorem State.issued_mxs (s : State) (lane : Bool) : (s.issued lane).mxs = s.mxs := rfl
@[simp] theorem State.issued_lastStart (s : State) (lane : Bool) : (s.issued lane).lastStart = s.lastStart := rfl
@[simp] theorem State.issued_tasks (s : State) (lane : Bool) : (s.issued lane).tasks = s.tasks := rfl
@[simp] theorem State.issued_taskSerial (s : State) (lane : Bool) : (s.issued lane).taskSerial = s.taskSerial := rfl
@[simp] theorem State.issued_inst (s : State) (lane : Bool) : (s.issued lane).inst = s.inst := rfl
@[simp] theorem State.issued_insts (s : State) (lane : Bool) : (s.issued lane).insts = s.insts := rfl
@[simp] theorem State.issued_ports (s : State) (lane : Bool) : (s.issued lane).ports = s.ports := rfl
@[simp] theorem State.issued_flows (s : State) (lane : Bool) : (s.issued lane).flows = s.flows := rfl
@[simp] theorem State.issued_rings (s : State) (lane : Bool) : (s.issued lane).rings = s.rings := rfl
@[simp] theorem State.issued_rxs (s : State) (lane : Bool) : (s.issued lane).rxs = s.rxs := rfl
@[simp] theorem State.issued_stalls (s : State) (lane : Bool) : (s.issued lane).stalls = s.stalls := rfl
@[simp] theorem State.issued_cwring (s : State) (lane : Bool) : (s.issued lane).cwring = s.cwring := rfl
@[simp] theorem State.issued_lostLinks (s : State) (lane : Bool) : (s.issued lane).lostLinks = s.lostLinks := rfl
@[simp] theorem State.issued_lostModules (s : State) (lane : Bool) : (s.issued lane).lostModules = s.lostModules := rfl
@[simp] theorem State.issued_rr (s : State) (lane : Bool) : (s.issued lane).rr = s.rr := rfl
@[simp] theorem State.issued_hosts (s : State) (lane : Bool) : (s.issued lane).hosts = s.hosts := rfl
@[simp] theorem State.issued_trained (s : State) (lane : Bool) : (s.issued lane).trained = s.trained := rfl
@[simp] theorem State.issued_dbg (s : State) (lane : Bool) : (s.issued lane).dbg = s.dbg := rfl
@[simp] theorem State.issued_errlog (s : State) (lane : Bool) : (s.issued lane).errlog = s.errlog := rfl
@[simp] theorem State.issued_pwr (s : State) (lane : Bool) : (s.issued lane).pwr = s.pwr := rfl

/-! ### State.updHost -/

@[simp] theorem State.updHost_agenda (s : State) (n : Nat) (f : HostCore → HostCore) : (s.updHost n f).agenda = s.agenda := rfl
@[simp] theorem State.updHost_focus (s : State) (n : Nat) (f : HostCore → HostCore) : (s.updHost n f).focus = s.focus := rfl
@[simp] theorem State.updHost_free (s : State) (n : Nat) (f : HostCore → HostCore) : (s.updHost n f).free = s.free := rfl
@[simp] theorem State.updHost_nextId (s : State) (n : Nat) (f : HostCore → HostCore) : (s.updHost n f).nextId = s.nextId := rfl
@[simp] theorem State.updHost_reply (s : State) (n : Nat) (f : HostCore → HostCore) : (s.updHost n f).reply = s.reply := rfl
@[simp] theorem State.updHost_cycle (s : State) (n : Nat) (f : HostCore → HostCore) : (s.updHost n f).cycle = s.cycle := rfl
@[simp] theorem State.updHost_stackCycle (s : State) (n : Nat) (f : HostCore → HostCore) : (s.updHost n f).stackCycle = s.stackCycle := rfl
@[simp] theorem State.updHost_heartbeat (s : State) (n : Nat) (f : HostCore → HostCore) : (s.updHost n f).heartbeat = s.heartbeat := rfl
@[simp] theorem State.updHost_hbPeriod (s : State) (n : Nat) (f : HostCore → HostCore) : (s.updHost n f).hbPeriod = s.hbPeriod := rfl
@[simp] theorem State.updHost_nextTick (s : State) (n : Nat) (f : HostCore → HostCore) : (s.updHost n f).nextTick = s.nextTick := rfl
@[simp] theorem State.updHost_boot (s : State) (n : Nat) (f : HostCore → HostCore) : (s.updHost n f).boot = s.boot := rfl
@[simp] theorem State.updHost_serial (s : State) (n : Nat) (f : HostCore → HostCore) : (s.updHost n f).serial = s.serial := rfl
@[simp] theorem State.updHost_fwMajor (s : State) (n : Nat) (f : HostCore → HostCore) : (s.updHost n f).fwMajor = s.fwMajor := rfl
@[simp] theorem State.updHost_fwMinor (s : State) (n : Nat) (f : HostCore → HostCore) : (s.updHost n f).fwMinor = s.fwMinor := rfl
@[simp] theorem State.updHost_fwFix (s : State) (n : Nat) (f : HostCore → HostCore) : (s.updHost n f).fwFix = s.fwFix := rfl
@[simp] theorem State.updHost_harvest (s : State) (n : Nat) (f : HostCore → HostCore) : (s.updHost n f).harvest = s.harvest := rfl
@[simp] theorem State.updHost_rollback (s : State) (n : Nat) (f : HostCore → HostCore) : (s.updHost n f).rollback = s.rollback := rfl
@[simp] theorem State.updHost_flash (s : State) (n : Nat) (f : HostCore → HostCore) : (s.updHost n f).flash = s.flash := rfl
@[simp] theorem State.updHost_staged (s : State) (n : Nat) (f : HostCore → HostCore) : (s.updHost n f).staged = s.staged := rfl
@[simp] theorem State.updHost_running (s : State) (n : Nat) (f : HostCore → HostCore) : (s.updHost n f).running = s.running := rfl
@[simp] theorem State.updHost_dram (s : State) (n : Nat) (f : HostCore → HostCore) : (s.updHost n f).dram = s.dram := rfl
@[simp] theorem State.updHost_poison (s : State) (n : Nat) (f : HostCore → HostCore) : (s.updHost n f).poison = s.poison := rfl
@[simp] theorem State.updHost_checks (s : State) (n : Nat) (f : HostCore → HostCore) : (s.updHost n f).checks = s.checks := rfl
@[simp] theorem State.updHost_l2 (s : State) (n : Nat) (f : HostCore → HostCore) : (s.updHost n f).l2 = s.l2 := rfl
@[simp] theorem State.updHost_rgn (s : State) (n : Nat) (f : HostCore → HostCore) : (s.updHost n f).rgn = s.rgn := rfl
@[simp] theorem State.updHost_tlb (s : State) (n : Nat) (f : HostCore → HostCore) : (s.updHost n f).tlb = s.tlb := rfl
@[simp] theorem State.updHost_tlbis (s : State) (n : Nat) (f : HostCore → HostCore) : (s.updHost n f).tlbis = s.tlbis := rfl
@[simp] theorem State.updHost_multicast (s : State) (n : Nat) (f : HostCore → HostCore) : (s.updHost n f).multicast = s.multicast := rfl
@[simp] theorem State.updHost_cp (s : State) (n : Nat) (f : HostCore → HostCore) : (s.updHost n f).cp = s.cp := rfl
@[simp] theorem State.updHost_ctxs (s : State) (n : Nat) (f : HostCore → HostCore) : (s.updHost n f).ctxs = s.ctxs := rfl
@[simp] theorem State.updHost_creates (s : State) (n : Nat) (f : HostCore → HostCore) : (s.updHost n f).creates = s.creates := rfl
@[simp] theorem State.updHost_kernels (s : State) (n : Nat) (f : HostCore → HostCore) : (s.updHost n f).kernels = s.kernels := rfl
@[simp] theorem State.updHost_kernelSerial (s : State) (n : Nat) (f : HostCore → HostCore) : (s.updHost n f).kernelSerial = s.kernelSerial := rfl
@[simp] theorem State.updHost_aggregates (s : State) (n : Nat) (f : HostCore → HostCore) : (s.updHost n f).aggregates = s.aggregates := rfl
@[simp] theorem State.updHost_crews (s : State) (n : Nat) (f : HostCore → HostCore) : (s.updHost n f).crews = s.crews := rfl
@[simp] theorem State.updHost_cores (s : State) (n : Nat) (f : HostCore → HostCore) : (s.updHost n f).cores = s.cores := rfl
@[simp] theorem State.updHost_g (s : State) (n : Nat) (f : HostCore → HostCore) : (s.updHost n f).g = s.g := rfl
@[simp] theorem State.updHost_gangs (s : State) (n : Nat) (f : HostCore → HostCore) : (s.updHost n f).gangs = s.gangs := rfl
@[simp] theorem State.updHost_shadows (s : State) (n : Nat) (f : HostCore → HostCore) : (s.updHost n f).shadows = s.shadows := rfl
@[simp] theorem State.updHost_copies (s : State) (n : Nat) (f : HostCore → HostCore) : (s.updHost n f).copies = s.copies := rfl
@[simp] theorem State.updHost_mxs (s : State) (n : Nat) (f : HostCore → HostCore) : (s.updHost n f).mxs = s.mxs := rfl
@[simp] theorem State.updHost_lastStart (s : State) (n : Nat) (f : HostCore → HostCore) : (s.updHost n f).lastStart = s.lastStart := rfl
@[simp] theorem State.updHost_tasks (s : State) (n : Nat) (f : HostCore → HostCore) : (s.updHost n f).tasks = s.tasks := rfl
@[simp] theorem State.updHost_taskSerial (s : State) (n : Nat) (f : HostCore → HostCore) : (s.updHost n f).taskSerial = s.taskSerial := rfl
@[simp] theorem State.updHost_inst (s : State) (n : Nat) (f : HostCore → HostCore) : (s.updHost n f).inst = s.inst := rfl
@[simp] theorem State.updHost_insts (s : State) (n : Nat) (f : HostCore → HostCore) : (s.updHost n f).insts = s.insts := rfl
@[simp] theorem State.updHost_ports (s : State) (n : Nat) (f : HostCore → HostCore) : (s.updHost n f).ports = s.ports := rfl
@[simp] theorem State.updHost_flows (s : State) (n : Nat) (f : HostCore → HostCore) : (s.updHost n f).flows = s.flows := rfl
@[simp] theorem State.updHost_rings (s : State) (n : Nat) (f : HostCore → HostCore) : (s.updHost n f).rings = s.rings := rfl
@[simp] theorem State.updHost_rxs (s : State) (n : Nat) (f : HostCore → HostCore) : (s.updHost n f).rxs = s.rxs := rfl
@[simp] theorem State.updHost_stalls (s : State) (n : Nat) (f : HostCore → HostCore) : (s.updHost n f).stalls = s.stalls := rfl
@[simp] theorem State.updHost_cwring (s : State) (n : Nat) (f : HostCore → HostCore) : (s.updHost n f).cwring = s.cwring := rfl
@[simp] theorem State.updHost_lostLinks (s : State) (n : Nat) (f : HostCore → HostCore) : (s.updHost n f).lostLinks = s.lostLinks := rfl
@[simp] theorem State.updHost_lostModules (s : State) (n : Nat) (f : HostCore → HostCore) : (s.updHost n f).lostModules = s.lostModules := rfl
@[simp] theorem State.updHost_rr (s : State) (n : Nat) (f : HostCore → HostCore) : (s.updHost n f).rr = s.rr := rfl
@[simp] theorem State.updHost_trained (s : State) (n : Nat) (f : HostCore → HostCore) : (s.updHost n f).trained = s.trained := rfl
@[simp] theorem State.updHost_dbg (s : State) (n : Nat) (f : HostCore → HostCore) : (s.updHost n f).dbg = s.dbg := rfl
@[simp] theorem State.updHost_errlog (s : State) (n : Nat) (f : HostCore → HostCore) : (s.updHost n f).errlog = s.errlog := rfl
@[simp] theorem State.updHost_pwr (s : State) (n : Nat) (f : HostCore → HostCore) : (s.updHost n f).pwr = s.pwr := rfl

/-! ### State.updCopy -/

@[simp] theorem State.updCopy_agenda (s : State) (id : Nat) (f : CopyOp → CopyOp) : (s.updCopy id f).agenda = s.agenda := rfl
@[simp] theorem State.updCopy_focus (s : State) (id : Nat) (f : CopyOp → CopyOp) : (s.updCopy id f).focus = s.focus := rfl
@[simp] theorem State.updCopy_free (s : State) (id : Nat) (f : CopyOp → CopyOp) : (s.updCopy id f).free = s.free := rfl
@[simp] theorem State.updCopy_nextId (s : State) (id : Nat) (f : CopyOp → CopyOp) : (s.updCopy id f).nextId = s.nextId := rfl
@[simp] theorem State.updCopy_reply (s : State) (id : Nat) (f : CopyOp → CopyOp) : (s.updCopy id f).reply = s.reply := rfl
@[simp] theorem State.updCopy_cycle (s : State) (id : Nat) (f : CopyOp → CopyOp) : (s.updCopy id f).cycle = s.cycle := rfl
@[simp] theorem State.updCopy_stackCycle (s : State) (id : Nat) (f : CopyOp → CopyOp) : (s.updCopy id f).stackCycle = s.stackCycle := rfl
@[simp] theorem State.updCopy_heartbeat (s : State) (id : Nat) (f : CopyOp → CopyOp) : (s.updCopy id f).heartbeat = s.heartbeat := rfl
@[simp] theorem State.updCopy_hbPeriod (s : State) (id : Nat) (f : CopyOp → CopyOp) : (s.updCopy id f).hbPeriod = s.hbPeriod := rfl
@[simp] theorem State.updCopy_nextTick (s : State) (id : Nat) (f : CopyOp → CopyOp) : (s.updCopy id f).nextTick = s.nextTick := rfl
@[simp] theorem State.updCopy_boot (s : State) (id : Nat) (f : CopyOp → CopyOp) : (s.updCopy id f).boot = s.boot := rfl
@[simp] theorem State.updCopy_serial (s : State) (id : Nat) (f : CopyOp → CopyOp) : (s.updCopy id f).serial = s.serial := rfl
@[simp] theorem State.updCopy_fwMajor (s : State) (id : Nat) (f : CopyOp → CopyOp) : (s.updCopy id f).fwMajor = s.fwMajor := rfl
@[simp] theorem State.updCopy_fwMinor (s : State) (id : Nat) (f : CopyOp → CopyOp) : (s.updCopy id f).fwMinor = s.fwMinor := rfl
@[simp] theorem State.updCopy_fwFix (s : State) (id : Nat) (f : CopyOp → CopyOp) : (s.updCopy id f).fwFix = s.fwFix := rfl
@[simp] theorem State.updCopy_harvest (s : State) (id : Nat) (f : CopyOp → CopyOp) : (s.updCopy id f).harvest = s.harvest := rfl
@[simp] theorem State.updCopy_rollback (s : State) (id : Nat) (f : CopyOp → CopyOp) : (s.updCopy id f).rollback = s.rollback := rfl
@[simp] theorem State.updCopy_flash (s : State) (id : Nat) (f : CopyOp → CopyOp) : (s.updCopy id f).flash = s.flash := rfl
@[simp] theorem State.updCopy_staged (s : State) (id : Nat) (f : CopyOp → CopyOp) : (s.updCopy id f).staged = s.staged := rfl
@[simp] theorem State.updCopy_running (s : State) (id : Nat) (f : CopyOp → CopyOp) : (s.updCopy id f).running = s.running := rfl
@[simp] theorem State.updCopy_dram (s : State) (id : Nat) (f : CopyOp → CopyOp) : (s.updCopy id f).dram = s.dram := rfl
@[simp] theorem State.updCopy_poison (s : State) (id : Nat) (f : CopyOp → CopyOp) : (s.updCopy id f).poison = s.poison := rfl
@[simp] theorem State.updCopy_checks (s : State) (id : Nat) (f : CopyOp → CopyOp) : (s.updCopy id f).checks = s.checks := rfl
@[simp] theorem State.updCopy_l2 (s : State) (id : Nat) (f : CopyOp → CopyOp) : (s.updCopy id f).l2 = s.l2 := rfl
@[simp] theorem State.updCopy_rgn (s : State) (id : Nat) (f : CopyOp → CopyOp) : (s.updCopy id f).rgn = s.rgn := rfl
@[simp] theorem State.updCopy_tlb (s : State) (id : Nat) (f : CopyOp → CopyOp) : (s.updCopy id f).tlb = s.tlb := rfl
@[simp] theorem State.updCopy_tlbis (s : State) (id : Nat) (f : CopyOp → CopyOp) : (s.updCopy id f).tlbis = s.tlbis := rfl
@[simp] theorem State.updCopy_multicast (s : State) (id : Nat) (f : CopyOp → CopyOp) : (s.updCopy id f).multicast = s.multicast := rfl
@[simp] theorem State.updCopy_cp (s : State) (id : Nat) (f : CopyOp → CopyOp) : (s.updCopy id f).cp = s.cp := rfl
@[simp] theorem State.updCopy_ctxs (s : State) (id : Nat) (f : CopyOp → CopyOp) : (s.updCopy id f).ctxs = s.ctxs := rfl
@[simp] theorem State.updCopy_creates (s : State) (id : Nat) (f : CopyOp → CopyOp) : (s.updCopy id f).creates = s.creates := rfl
@[simp] theorem State.updCopy_kernels (s : State) (id : Nat) (f : CopyOp → CopyOp) : (s.updCopy id f).kernels = s.kernels := rfl
@[simp] theorem State.updCopy_kernelSerial (s : State) (id : Nat) (f : CopyOp → CopyOp) : (s.updCopy id f).kernelSerial = s.kernelSerial := rfl
@[simp] theorem State.updCopy_aggregates (s : State) (id : Nat) (f : CopyOp → CopyOp) : (s.updCopy id f).aggregates = s.aggregates := rfl
@[simp] theorem State.updCopy_crews (s : State) (id : Nat) (f : CopyOp → CopyOp) : (s.updCopy id f).crews = s.crews := rfl
@[simp] theorem State.updCopy_cores (s : State) (id : Nat) (f : CopyOp → CopyOp) : (s.updCopy id f).cores = s.cores := rfl
@[simp] theorem State.updCopy_g (s : State) (id : Nat) (f : CopyOp → CopyOp) : (s.updCopy id f).g = s.g := rfl
@[simp] theorem State.updCopy_gangs (s : State) (id : Nat) (f : CopyOp → CopyOp) : (s.updCopy id f).gangs = s.gangs := rfl
@[simp] theorem State.updCopy_shadows (s : State) (id : Nat) (f : CopyOp → CopyOp) : (s.updCopy id f).shadows = s.shadows := rfl
@[simp] theorem State.updCopy_mxs (s : State) (id : Nat) (f : CopyOp → CopyOp) : (s.updCopy id f).mxs = s.mxs := rfl
@[simp] theorem State.updCopy_lastStart (s : State) (id : Nat) (f : CopyOp → CopyOp) : (s.updCopy id f).lastStart = s.lastStart := rfl
@[simp] theorem State.updCopy_tasks (s : State) (id : Nat) (f : CopyOp → CopyOp) : (s.updCopy id f).tasks = s.tasks := rfl
@[simp] theorem State.updCopy_taskSerial (s : State) (id : Nat) (f : CopyOp → CopyOp) : (s.updCopy id f).taskSerial = s.taskSerial := rfl
@[simp] theorem State.updCopy_inst (s : State) (id : Nat) (f : CopyOp → CopyOp) : (s.updCopy id f).inst = s.inst := rfl
@[simp] theorem State.updCopy_insts (s : State) (id : Nat) (f : CopyOp → CopyOp) : (s.updCopy id f).insts = s.insts := rfl
@[simp] theorem State.updCopy_ports (s : State) (id : Nat) (f : CopyOp → CopyOp) : (s.updCopy id f).ports = s.ports := rfl
@[simp] theorem State.updCopy_flows (s : State) (id : Nat) (f : CopyOp → CopyOp) : (s.updCopy id f).flows = s.flows := rfl
@[simp] theorem State.updCopy_rings (s : State) (id : Nat) (f : CopyOp → CopyOp) : (s.updCopy id f).rings = s.rings := rfl
@[simp] theorem State.updCopy_rxs (s : State) (id : Nat) (f : CopyOp → CopyOp) : (s.updCopy id f).rxs = s.rxs := rfl
@[simp] theorem State.updCopy_stalls (s : State) (id : Nat) (f : CopyOp → CopyOp) : (s.updCopy id f).stalls = s.stalls := rfl
@[simp] theorem State.updCopy_cwring (s : State) (id : Nat) (f : CopyOp → CopyOp) : (s.updCopy id f).cwring = s.cwring := rfl
@[simp] theorem State.updCopy_lostLinks (s : State) (id : Nat) (f : CopyOp → CopyOp) : (s.updCopy id f).lostLinks = s.lostLinks := rfl
@[simp] theorem State.updCopy_lostModules (s : State) (id : Nat) (f : CopyOp → CopyOp) : (s.updCopy id f).lostModules = s.lostModules := rfl
@[simp] theorem State.updCopy_rr (s : State) (id : Nat) (f : CopyOp → CopyOp) : (s.updCopy id f).rr = s.rr := rfl
@[simp] theorem State.updCopy_hosts (s : State) (id : Nat) (f : CopyOp → CopyOp) : (s.updCopy id f).hosts = s.hosts := rfl
@[simp] theorem State.updCopy_trained (s : State) (id : Nat) (f : CopyOp → CopyOp) : (s.updCopy id f).trained = s.trained := rfl
@[simp] theorem State.updCopy_dbg (s : State) (id : Nat) (f : CopyOp → CopyOp) : (s.updCopy id f).dbg = s.dbg := rfl
@[simp] theorem State.updCopy_errlog (s : State) (id : Nat) (f : CopyOp → CopyOp) : (s.updCopy id f).errlog = s.errlog := rfl
@[simp] theorem State.updCopy_pwr (s : State) (id : Nat) (f : CopyOp → CopyOp) : (s.updCopy id f).pwr = s.pwr := rfl

/-! ### State.updShadow -/

@[simp] theorem State.updShadow_agenda (s : State) (r : GangRef) (f : Gang → Gang) : (s.updShadow r f).agenda = s.agenda := rfl
@[simp] theorem State.updShadow_focus (s : State) (r : GangRef) (f : Gang → Gang) : (s.updShadow r f).focus = s.focus := rfl
@[simp] theorem State.updShadow_free (s : State) (r : GangRef) (f : Gang → Gang) : (s.updShadow r f).free = s.free := rfl
@[simp] theorem State.updShadow_nextId (s : State) (r : GangRef) (f : Gang → Gang) : (s.updShadow r f).nextId = s.nextId := rfl
@[simp] theorem State.updShadow_reply (s : State) (r : GangRef) (f : Gang → Gang) : (s.updShadow r f).reply = s.reply := rfl
@[simp] theorem State.updShadow_cycle (s : State) (r : GangRef) (f : Gang → Gang) : (s.updShadow r f).cycle = s.cycle := rfl
@[simp] theorem State.updShadow_stackCycle (s : State) (r : GangRef) (f : Gang → Gang) : (s.updShadow r f).stackCycle = s.stackCycle := rfl
@[simp] theorem State.updShadow_heartbeat (s : State) (r : GangRef) (f : Gang → Gang) : (s.updShadow r f).heartbeat = s.heartbeat := rfl
@[simp] theorem State.updShadow_hbPeriod (s : State) (r : GangRef) (f : Gang → Gang) : (s.updShadow r f).hbPeriod = s.hbPeriod := rfl
@[simp] theorem State.updShadow_nextTick (s : State) (r : GangRef) (f : Gang → Gang) : (s.updShadow r f).nextTick = s.nextTick := rfl
@[simp] theorem State.updShadow_boot (s : State) (r : GangRef) (f : Gang → Gang) : (s.updShadow r f).boot = s.boot := rfl
@[simp] theorem State.updShadow_serial (s : State) (r : GangRef) (f : Gang → Gang) : (s.updShadow r f).serial = s.serial := rfl
@[simp] theorem State.updShadow_fwMajor (s : State) (r : GangRef) (f : Gang → Gang) : (s.updShadow r f).fwMajor = s.fwMajor := rfl
@[simp] theorem State.updShadow_fwMinor (s : State) (r : GangRef) (f : Gang → Gang) : (s.updShadow r f).fwMinor = s.fwMinor := rfl
@[simp] theorem State.updShadow_fwFix (s : State) (r : GangRef) (f : Gang → Gang) : (s.updShadow r f).fwFix = s.fwFix := rfl
@[simp] theorem State.updShadow_harvest (s : State) (r : GangRef) (f : Gang → Gang) : (s.updShadow r f).harvest = s.harvest := rfl
@[simp] theorem State.updShadow_rollback (s : State) (r : GangRef) (f : Gang → Gang) : (s.updShadow r f).rollback = s.rollback := rfl
@[simp] theorem State.updShadow_flash (s : State) (r : GangRef) (f : Gang → Gang) : (s.updShadow r f).flash = s.flash := rfl
@[simp] theorem State.updShadow_staged (s : State) (r : GangRef) (f : Gang → Gang) : (s.updShadow r f).staged = s.staged := rfl
@[simp] theorem State.updShadow_running (s : State) (r : GangRef) (f : Gang → Gang) : (s.updShadow r f).running = s.running := rfl
@[simp] theorem State.updShadow_dram (s : State) (r : GangRef) (f : Gang → Gang) : (s.updShadow r f).dram = s.dram := rfl
@[simp] theorem State.updShadow_poison (s : State) (r : GangRef) (f : Gang → Gang) : (s.updShadow r f).poison = s.poison := rfl
@[simp] theorem State.updShadow_checks (s : State) (r : GangRef) (f : Gang → Gang) : (s.updShadow r f).checks = s.checks := rfl
@[simp] theorem State.updShadow_l2 (s : State) (r : GangRef) (f : Gang → Gang) : (s.updShadow r f).l2 = s.l2 := rfl
@[simp] theorem State.updShadow_rgn (s : State) (r : GangRef) (f : Gang → Gang) : (s.updShadow r f).rgn = s.rgn := rfl
@[simp] theorem State.updShadow_tlb (s : State) (r : GangRef) (f : Gang → Gang) : (s.updShadow r f).tlb = s.tlb := rfl
@[simp] theorem State.updShadow_tlbis (s : State) (r : GangRef) (f : Gang → Gang) : (s.updShadow r f).tlbis = s.tlbis := rfl
@[simp] theorem State.updShadow_multicast (s : State) (r : GangRef) (f : Gang → Gang) : (s.updShadow r f).multicast = s.multicast := rfl
@[simp] theorem State.updShadow_cp (s : State) (r : GangRef) (f : Gang → Gang) : (s.updShadow r f).cp = s.cp := rfl
@[simp] theorem State.updShadow_ctxs (s : State) (r : GangRef) (f : Gang → Gang) : (s.updShadow r f).ctxs = s.ctxs := rfl
@[simp] theorem State.updShadow_creates (s : State) (r : GangRef) (f : Gang → Gang) : (s.updShadow r f).creates = s.creates := rfl
@[simp] theorem State.updShadow_kernels (s : State) (r : GangRef) (f : Gang → Gang) : (s.updShadow r f).kernels = s.kernels := rfl
@[simp] theorem State.updShadow_kernelSerial (s : State) (r : GangRef) (f : Gang → Gang) : (s.updShadow r f).kernelSerial = s.kernelSerial := rfl
@[simp] theorem State.updShadow_aggregates (s : State) (r : GangRef) (f : Gang → Gang) : (s.updShadow r f).aggregates = s.aggregates := rfl
@[simp] theorem State.updShadow_crews (s : State) (r : GangRef) (f : Gang → Gang) : (s.updShadow r f).crews = s.crews := rfl
@[simp] theorem State.updShadow_cores (s : State) (r : GangRef) (f : Gang → Gang) : (s.updShadow r f).cores = s.cores := rfl
@[simp] theorem State.updShadow_g (s : State) (r : GangRef) (f : Gang → Gang) : (s.updShadow r f).g = s.g := rfl
@[simp] theorem State.updShadow_gangs (s : State) (r : GangRef) (f : Gang → Gang) : (s.updShadow r f).gangs = s.gangs := rfl
@[simp] theorem State.updShadow_copies (s : State) (r : GangRef) (f : Gang → Gang) : (s.updShadow r f).copies = s.copies := rfl
@[simp] theorem State.updShadow_mxs (s : State) (r : GangRef) (f : Gang → Gang) : (s.updShadow r f).mxs = s.mxs := rfl
@[simp] theorem State.updShadow_lastStart (s : State) (r : GangRef) (f : Gang → Gang) : (s.updShadow r f).lastStart = s.lastStart := rfl
@[simp] theorem State.updShadow_tasks (s : State) (r : GangRef) (f : Gang → Gang) : (s.updShadow r f).tasks = s.tasks := rfl
@[simp] theorem State.updShadow_taskSerial (s : State) (r : GangRef) (f : Gang → Gang) : (s.updShadow r f).taskSerial = s.taskSerial := rfl
@[simp] theorem State.updShadow_inst (s : State) (r : GangRef) (f : Gang → Gang) : (s.updShadow r f).inst = s.inst := rfl
@[simp] theorem State.updShadow_insts (s : State) (r : GangRef) (f : Gang → Gang) : (s.updShadow r f).insts = s.insts := rfl
@[simp] theorem State.updShadow_ports (s : State) (r : GangRef) (f : Gang → Gang) : (s.updShadow r f).ports = s.ports := rfl
@[simp] theorem State.updShadow_flows (s : State) (r : GangRef) (f : Gang → Gang) : (s.updShadow r f).flows = s.flows := rfl
@[simp] theorem State.updShadow_rings (s : State) (r : GangRef) (f : Gang → Gang) : (s.updShadow r f).rings = s.rings := rfl
@[simp] theorem State.updShadow_rxs (s : State) (r : GangRef) (f : Gang → Gang) : (s.updShadow r f).rxs = s.rxs := rfl
@[simp] theorem State.updShadow_stalls (s : State) (r : GangRef) (f : Gang → Gang) : (s.updShadow r f).stalls = s.stalls := rfl
@[simp] theorem State.updShadow_cwring (s : State) (r : GangRef) (f : Gang → Gang) : (s.updShadow r f).cwring = s.cwring := rfl
@[simp] theorem State.updShadow_lostLinks (s : State) (r : GangRef) (f : Gang → Gang) : (s.updShadow r f).lostLinks = s.lostLinks := rfl
@[simp] theorem State.updShadow_lostModules (s : State) (r : GangRef) (f : Gang → Gang) : (s.updShadow r f).lostModules = s.lostModules := rfl
@[simp] theorem State.updShadow_rr (s : State) (r : GangRef) (f : Gang → Gang) : (s.updShadow r f).rr = s.rr := rfl
@[simp] theorem State.updShadow_hosts (s : State) (r : GangRef) (f : Gang → Gang) : (s.updShadow r f).hosts = s.hosts := rfl
@[simp] theorem State.updShadow_trained (s : State) (r : GangRef) (f : Gang → Gang) : (s.updShadow r f).trained = s.trained := rfl
@[simp] theorem State.updShadow_dbg (s : State) (r : GangRef) (f : Gang → Gang) : (s.updShadow r f).dbg = s.dbg := rfl
@[simp] theorem State.updShadow_errlog (s : State) (r : GangRef) (f : Gang → Gang) : (s.updShadow r f).errlog = s.errlog := rfl
@[simp] theorem State.updShadow_pwr (s : State) (r : GangRef) (f : Gang → Gang) : (s.updShadow r f).pwr = s.pwr := rfl

/-! ### State.updPort -/

@[simp] theorem State.updPort_agenda (s : State) (n : Nat) (f : CwPort → CwPort) : (s.updPort n f).agenda = s.agenda := rfl
@[simp] theorem State.updPort_focus (s : State) (n : Nat) (f : CwPort → CwPort) : (s.updPort n f).focus = s.focus := rfl
@[simp] theorem State.updPort_free (s : State) (n : Nat) (f : CwPort → CwPort) : (s.updPort n f).free = s.free := rfl
@[simp] theorem State.updPort_nextId (s : State) (n : Nat) (f : CwPort → CwPort) : (s.updPort n f).nextId = s.nextId := rfl
@[simp] theorem State.updPort_reply (s : State) (n : Nat) (f : CwPort → CwPort) : (s.updPort n f).reply = s.reply := rfl
@[simp] theorem State.updPort_cycle (s : State) (n : Nat) (f : CwPort → CwPort) : (s.updPort n f).cycle = s.cycle := rfl
@[simp] theorem State.updPort_stackCycle (s : State) (n : Nat) (f : CwPort → CwPort) : (s.updPort n f).stackCycle = s.stackCycle := rfl
@[simp] theorem State.updPort_heartbeat (s : State) (n : Nat) (f : CwPort → CwPort) : (s.updPort n f).heartbeat = s.heartbeat := rfl
@[simp] theorem State.updPort_hbPeriod (s : State) (n : Nat) (f : CwPort → CwPort) : (s.updPort n f).hbPeriod = s.hbPeriod := rfl
@[simp] theorem State.updPort_nextTick (s : State) (n : Nat) (f : CwPort → CwPort) : (s.updPort n f).nextTick = s.nextTick := rfl
@[simp] theorem State.updPort_boot (s : State) (n : Nat) (f : CwPort → CwPort) : (s.updPort n f).boot = s.boot := rfl
@[simp] theorem State.updPort_serial (s : State) (n : Nat) (f : CwPort → CwPort) : (s.updPort n f).serial = s.serial := rfl
@[simp] theorem State.updPort_fwMajor (s : State) (n : Nat) (f : CwPort → CwPort) : (s.updPort n f).fwMajor = s.fwMajor := rfl
@[simp] theorem State.updPort_fwMinor (s : State) (n : Nat) (f : CwPort → CwPort) : (s.updPort n f).fwMinor = s.fwMinor := rfl
@[simp] theorem State.updPort_fwFix (s : State) (n : Nat) (f : CwPort → CwPort) : (s.updPort n f).fwFix = s.fwFix := rfl
@[simp] theorem State.updPort_harvest (s : State) (n : Nat) (f : CwPort → CwPort) : (s.updPort n f).harvest = s.harvest := rfl
@[simp] theorem State.updPort_rollback (s : State) (n : Nat) (f : CwPort → CwPort) : (s.updPort n f).rollback = s.rollback := rfl
@[simp] theorem State.updPort_flash (s : State) (n : Nat) (f : CwPort → CwPort) : (s.updPort n f).flash = s.flash := rfl
@[simp] theorem State.updPort_staged (s : State) (n : Nat) (f : CwPort → CwPort) : (s.updPort n f).staged = s.staged := rfl
@[simp] theorem State.updPort_running (s : State) (n : Nat) (f : CwPort → CwPort) : (s.updPort n f).running = s.running := rfl
@[simp] theorem State.updPort_dram (s : State) (n : Nat) (f : CwPort → CwPort) : (s.updPort n f).dram = s.dram := rfl
@[simp] theorem State.updPort_poison (s : State) (n : Nat) (f : CwPort → CwPort) : (s.updPort n f).poison = s.poison := rfl
@[simp] theorem State.updPort_checks (s : State) (n : Nat) (f : CwPort → CwPort) : (s.updPort n f).checks = s.checks := rfl
@[simp] theorem State.updPort_l2 (s : State) (n : Nat) (f : CwPort → CwPort) : (s.updPort n f).l2 = s.l2 := rfl
@[simp] theorem State.updPort_rgn (s : State) (n : Nat) (f : CwPort → CwPort) : (s.updPort n f).rgn = s.rgn := rfl
@[simp] theorem State.updPort_tlb (s : State) (n : Nat) (f : CwPort → CwPort) : (s.updPort n f).tlb = s.tlb := rfl
@[simp] theorem State.updPort_tlbis (s : State) (n : Nat) (f : CwPort → CwPort) : (s.updPort n f).tlbis = s.tlbis := rfl
@[simp] theorem State.updPort_multicast (s : State) (n : Nat) (f : CwPort → CwPort) : (s.updPort n f).multicast = s.multicast := rfl
@[simp] theorem State.updPort_cp (s : State) (n : Nat) (f : CwPort → CwPort) : (s.updPort n f).cp = s.cp := rfl
@[simp] theorem State.updPort_ctxs (s : State) (n : Nat) (f : CwPort → CwPort) : (s.updPort n f).ctxs = s.ctxs := rfl
@[simp] theorem State.updPort_creates (s : State) (n : Nat) (f : CwPort → CwPort) : (s.updPort n f).creates = s.creates := rfl
@[simp] theorem State.updPort_kernels (s : State) (n : Nat) (f : CwPort → CwPort) : (s.updPort n f).kernels = s.kernels := rfl
@[simp] theorem State.updPort_kernelSerial (s : State) (n : Nat) (f : CwPort → CwPort) : (s.updPort n f).kernelSerial = s.kernelSerial := rfl
@[simp] theorem State.updPort_aggregates (s : State) (n : Nat) (f : CwPort → CwPort) : (s.updPort n f).aggregates = s.aggregates := rfl
@[simp] theorem State.updPort_crews (s : State) (n : Nat) (f : CwPort → CwPort) : (s.updPort n f).crews = s.crews := rfl
@[simp] theorem State.updPort_cores (s : State) (n : Nat) (f : CwPort → CwPort) : (s.updPort n f).cores = s.cores := rfl
@[simp] theorem State.updPort_g (s : State) (n : Nat) (f : CwPort → CwPort) : (s.updPort n f).g = s.g := rfl
@[simp] theorem State.updPort_gangs (s : State) (n : Nat) (f : CwPort → CwPort) : (s.updPort n f).gangs = s.gangs := rfl
@[simp] theorem State.updPort_shadows (s : State) (n : Nat) (f : CwPort → CwPort) : (s.updPort n f).shadows = s.shadows := rfl
@[simp] theorem State.updPort_copies (s : State) (n : Nat) (f : CwPort → CwPort) : (s.updPort n f).copies = s.copies := rfl
@[simp] theorem State.updPort_mxs (s : State) (n : Nat) (f : CwPort → CwPort) : (s.updPort n f).mxs = s.mxs := rfl
@[simp] theorem State.updPort_lastStart (s : State) (n : Nat) (f : CwPort → CwPort) : (s.updPort n f).lastStart = s.lastStart := rfl
@[simp] theorem State.updPort_tasks (s : State) (n : Nat) (f : CwPort → CwPort) : (s.updPort n f).tasks = s.tasks := rfl
@[simp] theorem State.updPort_taskSerial (s : State) (n : Nat) (f : CwPort → CwPort) : (s.updPort n f).taskSerial = s.taskSerial := rfl
@[simp] theorem State.updPort_inst (s : State) (n : Nat) (f : CwPort → CwPort) : (s.updPort n f).inst = s.inst := rfl
@[simp] theorem State.updPort_insts (s : State) (n : Nat) (f : CwPort → CwPort) : (s.updPort n f).insts = s.insts := rfl
@[simp] theorem State.updPort_flows (s : State) (n : Nat) (f : CwPort → CwPort) : (s.updPort n f).flows = s.flows := rfl
@[simp] theorem State.updPort_rings (s : State) (n : Nat) (f : CwPort → CwPort) : (s.updPort n f).rings = s.rings := rfl
@[simp] theorem State.updPort_rxs (s : State) (n : Nat) (f : CwPort → CwPort) : (s.updPort n f).rxs = s.rxs := rfl
@[simp] theorem State.updPort_stalls (s : State) (n : Nat) (f : CwPort → CwPort) : (s.updPort n f).stalls = s.stalls := rfl
@[simp] theorem State.updPort_cwring (s : State) (n : Nat) (f : CwPort → CwPort) : (s.updPort n f).cwring = s.cwring := rfl
@[simp] theorem State.updPort_lostLinks (s : State) (n : Nat) (f : CwPort → CwPort) : (s.updPort n f).lostLinks = s.lostLinks := rfl
@[simp] theorem State.updPort_lostModules (s : State) (n : Nat) (f : CwPort → CwPort) : (s.updPort n f).lostModules = s.lostModules := rfl
@[simp] theorem State.updPort_rr (s : State) (n : Nat) (f : CwPort → CwPort) : (s.updPort n f).rr = s.rr := rfl
@[simp] theorem State.updPort_hosts (s : State) (n : Nat) (f : CwPort → CwPort) : (s.updPort n f).hosts = s.hosts := rfl
@[simp] theorem State.updPort_trained (s : State) (n : Nat) (f : CwPort → CwPort) : (s.updPort n f).trained = s.trained := rfl
@[simp] theorem State.updPort_dbg (s : State) (n : Nat) (f : CwPort → CwPort) : (s.updPort n f).dbg = s.dbg := rfl
@[simp] theorem State.updPort_errlog (s : State) (n : Nat) (f : CwPort → CwPort) : (s.updPort n f).errlog = s.errlog := rfl
@[simp] theorem State.updPort_pwr (s : State) (n : Nat) (f : CwPort → CwPort) : (s.updPort n f).pwr = s.pwr := rfl

/-! ### State.updFlow -/

@[simp] theorem State.updFlow_agenda (s : State) (n m : Nat) (f : Flow → Flow) : (s.updFlow n m f).agenda = s.agenda := rfl
@[simp] theorem State.updFlow_focus (s : State) (n m : Nat) (f : Flow → Flow) : (s.updFlow n m f).focus = s.focus := rfl
@[simp] theorem State.updFlow_free (s : State) (n m : Nat) (f : Flow → Flow) : (s.updFlow n m f).free = s.free := rfl
@[simp] theorem State.updFlow_nextId (s : State) (n m : Nat) (f : Flow → Flow) : (s.updFlow n m f).nextId = s.nextId := rfl
@[simp] theorem State.updFlow_reply (s : State) (n m : Nat) (f : Flow → Flow) : (s.updFlow n m f).reply = s.reply := rfl
@[simp] theorem State.updFlow_cycle (s : State) (n m : Nat) (f : Flow → Flow) : (s.updFlow n m f).cycle = s.cycle := rfl
@[simp] theorem State.updFlow_stackCycle (s : State) (n m : Nat) (f : Flow → Flow) : (s.updFlow n m f).stackCycle = s.stackCycle := rfl
@[simp] theorem State.updFlow_heartbeat (s : State) (n m : Nat) (f : Flow → Flow) : (s.updFlow n m f).heartbeat = s.heartbeat := rfl
@[simp] theorem State.updFlow_hbPeriod (s : State) (n m : Nat) (f : Flow → Flow) : (s.updFlow n m f).hbPeriod = s.hbPeriod := rfl
@[simp] theorem State.updFlow_nextTick (s : State) (n m : Nat) (f : Flow → Flow) : (s.updFlow n m f).nextTick = s.nextTick := rfl
@[simp] theorem State.updFlow_boot (s : State) (n m : Nat) (f : Flow → Flow) : (s.updFlow n m f).boot = s.boot := rfl
@[simp] theorem State.updFlow_serial (s : State) (n m : Nat) (f : Flow → Flow) : (s.updFlow n m f).serial = s.serial := rfl
@[simp] theorem State.updFlow_fwMajor (s : State) (n m : Nat) (f : Flow → Flow) : (s.updFlow n m f).fwMajor = s.fwMajor := rfl
@[simp] theorem State.updFlow_fwMinor (s : State) (n m : Nat) (f : Flow → Flow) : (s.updFlow n m f).fwMinor = s.fwMinor := rfl
@[simp] theorem State.updFlow_fwFix (s : State) (n m : Nat) (f : Flow → Flow) : (s.updFlow n m f).fwFix = s.fwFix := rfl
@[simp] theorem State.updFlow_harvest (s : State) (n m : Nat) (f : Flow → Flow) : (s.updFlow n m f).harvest = s.harvest := rfl
@[simp] theorem State.updFlow_rollback (s : State) (n m : Nat) (f : Flow → Flow) : (s.updFlow n m f).rollback = s.rollback := rfl
@[simp] theorem State.updFlow_flash (s : State) (n m : Nat) (f : Flow → Flow) : (s.updFlow n m f).flash = s.flash := rfl
@[simp] theorem State.updFlow_staged (s : State) (n m : Nat) (f : Flow → Flow) : (s.updFlow n m f).staged = s.staged := rfl
@[simp] theorem State.updFlow_running (s : State) (n m : Nat) (f : Flow → Flow) : (s.updFlow n m f).running = s.running := rfl
@[simp] theorem State.updFlow_dram (s : State) (n m : Nat) (f : Flow → Flow) : (s.updFlow n m f).dram = s.dram := rfl
@[simp] theorem State.updFlow_poison (s : State) (n m : Nat) (f : Flow → Flow) : (s.updFlow n m f).poison = s.poison := rfl
@[simp] theorem State.updFlow_checks (s : State) (n m : Nat) (f : Flow → Flow) : (s.updFlow n m f).checks = s.checks := rfl
@[simp] theorem State.updFlow_l2 (s : State) (n m : Nat) (f : Flow → Flow) : (s.updFlow n m f).l2 = s.l2 := rfl
@[simp] theorem State.updFlow_rgn (s : State) (n m : Nat) (f : Flow → Flow) : (s.updFlow n m f).rgn = s.rgn := rfl
@[simp] theorem State.updFlow_tlb (s : State) (n m : Nat) (f : Flow → Flow) : (s.updFlow n m f).tlb = s.tlb := rfl
@[simp] theorem State.updFlow_tlbis (s : State) (n m : Nat) (f : Flow → Flow) : (s.updFlow n m f).tlbis = s.tlbis := rfl
@[simp] theorem State.updFlow_multicast (s : State) (n m : Nat) (f : Flow → Flow) : (s.updFlow n m f).multicast = s.multicast := rfl
@[simp] theorem State.updFlow_cp (s : State) (n m : Nat) (f : Flow → Flow) : (s.updFlow n m f).cp = s.cp := rfl
@[simp] theorem State.updFlow_ctxs (s : State) (n m : Nat) (f : Flow → Flow) : (s.updFlow n m f).ctxs = s.ctxs := rfl
@[simp] theorem State.updFlow_creates (s : State) (n m : Nat) (f : Flow → Flow) : (s.updFlow n m f).creates = s.creates := rfl
@[simp] theorem State.updFlow_kernels (s : State) (n m : Nat) (f : Flow → Flow) : (s.updFlow n m f).kernels = s.kernels := rfl
@[simp] theorem State.updFlow_kernelSerial (s : State) (n m : Nat) (f : Flow → Flow) : (s.updFlow n m f).kernelSerial = s.kernelSerial := rfl
@[simp] theorem State.updFlow_aggregates (s : State) (n m : Nat) (f : Flow → Flow) : (s.updFlow n m f).aggregates = s.aggregates := rfl
@[simp] theorem State.updFlow_crews (s : State) (n m : Nat) (f : Flow → Flow) : (s.updFlow n m f).crews = s.crews := rfl
@[simp] theorem State.updFlow_cores (s : State) (n m : Nat) (f : Flow → Flow) : (s.updFlow n m f).cores = s.cores := rfl
@[simp] theorem State.updFlow_g (s : State) (n m : Nat) (f : Flow → Flow) : (s.updFlow n m f).g = s.g := rfl
@[simp] theorem State.updFlow_gangs (s : State) (n m : Nat) (f : Flow → Flow) : (s.updFlow n m f).gangs = s.gangs := rfl
@[simp] theorem State.updFlow_shadows (s : State) (n m : Nat) (f : Flow → Flow) : (s.updFlow n m f).shadows = s.shadows := rfl
@[simp] theorem State.updFlow_copies (s : State) (n m : Nat) (f : Flow → Flow) : (s.updFlow n m f).copies = s.copies := rfl
@[simp] theorem State.updFlow_mxs (s : State) (n m : Nat) (f : Flow → Flow) : (s.updFlow n m f).mxs = s.mxs := rfl
@[simp] theorem State.updFlow_lastStart (s : State) (n m : Nat) (f : Flow → Flow) : (s.updFlow n m f).lastStart = s.lastStart := rfl
@[simp] theorem State.updFlow_tasks (s : State) (n m : Nat) (f : Flow → Flow) : (s.updFlow n m f).tasks = s.tasks := rfl
@[simp] theorem State.updFlow_taskSerial (s : State) (n m : Nat) (f : Flow → Flow) : (s.updFlow n m f).taskSerial = s.taskSerial := rfl
@[simp] theorem State.updFlow_inst (s : State) (n m : Nat) (f : Flow → Flow) : (s.updFlow n m f).inst = s.inst := rfl
@[simp] theorem State.updFlow_insts (s : State) (n m : Nat) (f : Flow → Flow) : (s.updFlow n m f).insts = s.insts := rfl
@[simp] theorem State.updFlow_ports (s : State) (n m : Nat) (f : Flow → Flow) : (s.updFlow n m f).ports = s.ports := rfl
@[simp] theorem State.updFlow_rings (s : State) (n m : Nat) (f : Flow → Flow) : (s.updFlow n m f).rings = s.rings := rfl
@[simp] theorem State.updFlow_rxs (s : State) (n m : Nat) (f : Flow → Flow) : (s.updFlow n m f).rxs = s.rxs := rfl
@[simp] theorem State.updFlow_stalls (s : State) (n m : Nat) (f : Flow → Flow) : (s.updFlow n m f).stalls = s.stalls := rfl
@[simp] theorem State.updFlow_cwring (s : State) (n m : Nat) (f : Flow → Flow) : (s.updFlow n m f).cwring = s.cwring := rfl
@[simp] theorem State.updFlow_lostLinks (s : State) (n m : Nat) (f : Flow → Flow) : (s.updFlow n m f).lostLinks = s.lostLinks := rfl
@[simp] theorem State.updFlow_lostModules (s : State) (n m : Nat) (f : Flow → Flow) : (s.updFlow n m f).lostModules = s.lostModules := rfl
@[simp] theorem State.updFlow_rr (s : State) (n m : Nat) (f : Flow → Flow) : (s.updFlow n m f).rr = s.rr := rfl
@[simp] theorem State.updFlow_hosts (s : State) (n m : Nat) (f : Flow → Flow) : (s.updFlow n m f).hosts = s.hosts := rfl
@[simp] theorem State.updFlow_trained (s : State) (n m : Nat) (f : Flow → Flow) : (s.updFlow n m f).trained = s.trained := rfl
@[simp] theorem State.updFlow_dbg (s : State) (n m : Nat) (f : Flow → Flow) : (s.updFlow n m f).dbg = s.dbg := rfl
@[simp] theorem State.updFlow_errlog (s : State) (n m : Nat) (f : Flow → Flow) : (s.updFlow n m f).errlog = s.errlog := rfl
@[simp] theorem State.updFlow_pwr (s : State) (n m : Nat) (f : Flow → Flow) : (s.updFlow n m f).pwr = s.pwr := rfl

/-! ### State.turnTaken -/

@[simp] theorem State.turnTaken_agenda (s : State) (p : Nat × Nat) : (s.turnTaken p).agenda = s.agenda := rfl
@[simp] theorem State.turnTaken_focus (s : State) (p : Nat × Nat) : (s.turnTaken p).focus = s.focus := rfl
@[simp] theorem State.turnTaken_free (s : State) (p : Nat × Nat) : (s.turnTaken p).free = s.free := rfl
@[simp] theorem State.turnTaken_nextId (s : State) (p : Nat × Nat) : (s.turnTaken p).nextId = s.nextId := rfl
@[simp] theorem State.turnTaken_reply (s : State) (p : Nat × Nat) : (s.turnTaken p).reply = s.reply := rfl
@[simp] theorem State.turnTaken_cycle (s : State) (p : Nat × Nat) : (s.turnTaken p).cycle = s.cycle := rfl
@[simp] theorem State.turnTaken_stackCycle (s : State) (p : Nat × Nat) : (s.turnTaken p).stackCycle = s.stackCycle := rfl
@[simp] theorem State.turnTaken_heartbeat (s : State) (p : Nat × Nat) : (s.turnTaken p).heartbeat = s.heartbeat := rfl
@[simp] theorem State.turnTaken_hbPeriod (s : State) (p : Nat × Nat) : (s.turnTaken p).hbPeriod = s.hbPeriod := rfl
@[simp] theorem State.turnTaken_nextTick (s : State) (p : Nat × Nat) : (s.turnTaken p).nextTick = s.nextTick := rfl
@[simp] theorem State.turnTaken_boot (s : State) (p : Nat × Nat) : (s.turnTaken p).boot = s.boot := rfl
@[simp] theorem State.turnTaken_serial (s : State) (p : Nat × Nat) : (s.turnTaken p).serial = s.serial := rfl
@[simp] theorem State.turnTaken_fwMajor (s : State) (p : Nat × Nat) : (s.turnTaken p).fwMajor = s.fwMajor := rfl
@[simp] theorem State.turnTaken_fwMinor (s : State) (p : Nat × Nat) : (s.turnTaken p).fwMinor = s.fwMinor := rfl
@[simp] theorem State.turnTaken_fwFix (s : State) (p : Nat × Nat) : (s.turnTaken p).fwFix = s.fwFix := rfl
@[simp] theorem State.turnTaken_harvest (s : State) (p : Nat × Nat) : (s.turnTaken p).harvest = s.harvest := rfl
@[simp] theorem State.turnTaken_rollback (s : State) (p : Nat × Nat) : (s.turnTaken p).rollback = s.rollback := rfl
@[simp] theorem State.turnTaken_flash (s : State) (p : Nat × Nat) : (s.turnTaken p).flash = s.flash := rfl
@[simp] theorem State.turnTaken_staged (s : State) (p : Nat × Nat) : (s.turnTaken p).staged = s.staged := rfl
@[simp] theorem State.turnTaken_running (s : State) (p : Nat × Nat) : (s.turnTaken p).running = s.running := rfl
@[simp] theorem State.turnTaken_dram (s : State) (p : Nat × Nat) : (s.turnTaken p).dram = s.dram := rfl
@[simp] theorem State.turnTaken_poison (s : State) (p : Nat × Nat) : (s.turnTaken p).poison = s.poison := rfl
@[simp] theorem State.turnTaken_checks (s : State) (p : Nat × Nat) : (s.turnTaken p).checks = s.checks := rfl
@[simp] theorem State.turnTaken_l2 (s : State) (p : Nat × Nat) : (s.turnTaken p).l2 = s.l2 := rfl
@[simp] theorem State.turnTaken_rgn (s : State) (p : Nat × Nat) : (s.turnTaken p).rgn = s.rgn := rfl
@[simp] theorem State.turnTaken_tlb (s : State) (p : Nat × Nat) : (s.turnTaken p).tlb = s.tlb := rfl
@[simp] theorem State.turnTaken_tlbis (s : State) (p : Nat × Nat) : (s.turnTaken p).tlbis = s.tlbis := rfl
@[simp] theorem State.turnTaken_multicast (s : State) (p : Nat × Nat) : (s.turnTaken p).multicast = s.multicast := rfl
@[simp] theorem State.turnTaken_cp (s : State) (p : Nat × Nat) : (s.turnTaken p).cp = s.cp := rfl
@[simp] theorem State.turnTaken_ctxs (s : State) (p : Nat × Nat) : (s.turnTaken p).ctxs = s.ctxs := rfl
@[simp] theorem State.turnTaken_creates (s : State) (p : Nat × Nat) : (s.turnTaken p).creates = s.creates := rfl
@[simp] theorem State.turnTaken_kernels (s : State) (p : Nat × Nat) : (s.turnTaken p).kernels = s.kernels := rfl
@[simp] theorem State.turnTaken_kernelSerial (s : State) (p : Nat × Nat) : (s.turnTaken p).kernelSerial = s.kernelSerial := rfl
@[simp] theorem State.turnTaken_aggregates (s : State) (p : Nat × Nat) : (s.turnTaken p).aggregates = s.aggregates := rfl
@[simp] theorem State.turnTaken_crews (s : State) (p : Nat × Nat) : (s.turnTaken p).crews = s.crews := rfl
@[simp] theorem State.turnTaken_cores (s : State) (p : Nat × Nat) : (s.turnTaken p).cores = s.cores := rfl
@[simp] theorem State.turnTaken_g (s : State) (p : Nat × Nat) : (s.turnTaken p).g = s.g := rfl
@[simp] theorem State.turnTaken_gangs (s : State) (p : Nat × Nat) : (s.turnTaken p).gangs = s.gangs := rfl
@[simp] theorem State.turnTaken_shadows (s : State) (p : Nat × Nat) : (s.turnTaken p).shadows = s.shadows := rfl
@[simp] theorem State.turnTaken_copies (s : State) (p : Nat × Nat) : (s.turnTaken p).copies = s.copies := rfl
@[simp] theorem State.turnTaken_mxs (s : State) (p : Nat × Nat) : (s.turnTaken p).mxs = s.mxs := rfl
@[simp] theorem State.turnTaken_lastStart (s : State) (p : Nat × Nat) : (s.turnTaken p).lastStart = s.lastStart := rfl
@[simp] theorem State.turnTaken_tasks (s : State) (p : Nat × Nat) : (s.turnTaken p).tasks = s.tasks := rfl
@[simp] theorem State.turnTaken_taskSerial (s : State) (p : Nat × Nat) : (s.turnTaken p).taskSerial = s.taskSerial := rfl
@[simp] theorem State.turnTaken_inst (s : State) (p : Nat × Nat) : (s.turnTaken p).inst = s.inst := rfl
@[simp] theorem State.turnTaken_insts (s : State) (p : Nat × Nat) : (s.turnTaken p).insts = s.insts := rfl
@[simp] theorem State.turnTaken_ports (s : State) (p : Nat × Nat) : (s.turnTaken p).ports = s.ports := rfl
@[simp] theorem State.turnTaken_flows (s : State) (p : Nat × Nat) : (s.turnTaken p).flows = s.flows := rfl
@[simp] theorem State.turnTaken_rings (s : State) (p : Nat × Nat) : (s.turnTaken p).rings = s.rings := rfl
@[simp] theorem State.turnTaken_rxs (s : State) (p : Nat × Nat) : (s.turnTaken p).rxs = s.rxs := rfl
@[simp] theorem State.turnTaken_stalls (s : State) (p : Nat × Nat) : (s.turnTaken p).stalls = s.stalls := rfl
@[simp] theorem State.turnTaken_cwring (s : State) (p : Nat × Nat) : (s.turnTaken p).cwring = s.cwring := rfl
@[simp] theorem State.turnTaken_lostLinks (s : State) (p : Nat × Nat) : (s.turnTaken p).lostLinks = s.lostLinks := rfl
@[simp] theorem State.turnTaken_lostModules (s : State) (p : Nat × Nat) : (s.turnTaken p).lostModules = s.lostModules := rfl
@[simp] theorem State.turnTaken_hosts (s : State) (p : Nat × Nat) : (s.turnTaken p).hosts = s.hosts := rfl
@[simp] theorem State.turnTaken_trained (s : State) (p : Nat × Nat) : (s.turnTaken p).trained = s.trained := rfl
@[simp] theorem State.turnTaken_dbg (s : State) (p : Nat × Nat) : (s.turnTaken p).dbg = s.dbg := rfl
@[simp] theorem State.turnTaken_errlog (s : State) (p : Nat × Nat) : (s.turnTaken p).errlog = s.errlog := rfl
@[simp] theorem State.turnTaken_pwr (s : State) (p : Nat × Nat) : (s.turnTaken p).pwr = s.pwr := rfl

/-! ### State.dbgCode -/

@[simp] theorem State.dbgCode_agenda (s : State) (n : Nat) : (s.dbgCode n).agenda = s.agenda := rfl
@[simp] theorem State.dbgCode_focus (s : State) (n : Nat) : (s.dbgCode n).focus = s.focus := rfl
@[simp] theorem State.dbgCode_free (s : State) (n : Nat) : (s.dbgCode n).free = s.free := rfl
@[simp] theorem State.dbgCode_nextId (s : State) (n : Nat) : (s.dbgCode n).nextId = s.nextId := rfl
@[simp] theorem State.dbgCode_reply (s : State) (n : Nat) : (s.dbgCode n).reply = s.reply := rfl
@[simp] theorem State.dbgCode_cycle (s : State) (n : Nat) : (s.dbgCode n).cycle = s.cycle := rfl
@[simp] theorem State.dbgCode_stackCycle (s : State) (n : Nat) : (s.dbgCode n).stackCycle = s.stackCycle := rfl
@[simp] theorem State.dbgCode_heartbeat (s : State) (n : Nat) : (s.dbgCode n).heartbeat = s.heartbeat := rfl
@[simp] theorem State.dbgCode_hbPeriod (s : State) (n : Nat) : (s.dbgCode n).hbPeriod = s.hbPeriod := rfl
@[simp] theorem State.dbgCode_nextTick (s : State) (n : Nat) : (s.dbgCode n).nextTick = s.nextTick := rfl
@[simp] theorem State.dbgCode_boot (s : State) (n : Nat) : (s.dbgCode n).boot = s.boot := rfl
@[simp] theorem State.dbgCode_serial (s : State) (n : Nat) : (s.dbgCode n).serial = s.serial := rfl
@[simp] theorem State.dbgCode_fwMajor (s : State) (n : Nat) : (s.dbgCode n).fwMajor = s.fwMajor := rfl
@[simp] theorem State.dbgCode_fwMinor (s : State) (n : Nat) : (s.dbgCode n).fwMinor = s.fwMinor := rfl
@[simp] theorem State.dbgCode_fwFix (s : State) (n : Nat) : (s.dbgCode n).fwFix = s.fwFix := rfl
@[simp] theorem State.dbgCode_harvest (s : State) (n : Nat) : (s.dbgCode n).harvest = s.harvest := rfl
@[simp] theorem State.dbgCode_rollback (s : State) (n : Nat) : (s.dbgCode n).rollback = s.rollback := rfl
@[simp] theorem State.dbgCode_flash (s : State) (n : Nat) : (s.dbgCode n).flash = s.flash := rfl
@[simp] theorem State.dbgCode_staged (s : State) (n : Nat) : (s.dbgCode n).staged = s.staged := rfl
@[simp] theorem State.dbgCode_running (s : State) (n : Nat) : (s.dbgCode n).running = s.running := rfl
@[simp] theorem State.dbgCode_dram (s : State) (n : Nat) : (s.dbgCode n).dram = s.dram := rfl
@[simp] theorem State.dbgCode_poison (s : State) (n : Nat) : (s.dbgCode n).poison = s.poison := rfl
@[simp] theorem State.dbgCode_checks (s : State) (n : Nat) : (s.dbgCode n).checks = s.checks := rfl
@[simp] theorem State.dbgCode_l2 (s : State) (n : Nat) : (s.dbgCode n).l2 = s.l2 := rfl
@[simp] theorem State.dbgCode_rgn (s : State) (n : Nat) : (s.dbgCode n).rgn = s.rgn := rfl
@[simp] theorem State.dbgCode_tlb (s : State) (n : Nat) : (s.dbgCode n).tlb = s.tlb := rfl
@[simp] theorem State.dbgCode_tlbis (s : State) (n : Nat) : (s.dbgCode n).tlbis = s.tlbis := rfl
@[simp] theorem State.dbgCode_multicast (s : State) (n : Nat) : (s.dbgCode n).multicast = s.multicast := rfl
@[simp] theorem State.dbgCode_cp (s : State) (n : Nat) : (s.dbgCode n).cp = s.cp := rfl
@[simp] theorem State.dbgCode_ctxs (s : State) (n : Nat) : (s.dbgCode n).ctxs = s.ctxs := rfl
@[simp] theorem State.dbgCode_creates (s : State) (n : Nat) : (s.dbgCode n).creates = s.creates := rfl
@[simp] theorem State.dbgCode_kernels (s : State) (n : Nat) : (s.dbgCode n).kernels = s.kernels := rfl
@[simp] theorem State.dbgCode_kernelSerial (s : State) (n : Nat) : (s.dbgCode n).kernelSerial = s.kernelSerial := rfl
@[simp] theorem State.dbgCode_aggregates (s : State) (n : Nat) : (s.dbgCode n).aggregates = s.aggregates := rfl
@[simp] theorem State.dbgCode_crews (s : State) (n : Nat) : (s.dbgCode n).crews = s.crews := rfl
@[simp] theorem State.dbgCode_cores (s : State) (n : Nat) : (s.dbgCode n).cores = s.cores := rfl
@[simp] theorem State.dbgCode_g (s : State) (n : Nat) : (s.dbgCode n).g = s.g := rfl
@[simp] theorem State.dbgCode_gangs (s : State) (n : Nat) : (s.dbgCode n).gangs = s.gangs := rfl
@[simp] theorem State.dbgCode_shadows (s : State) (n : Nat) : (s.dbgCode n).shadows = s.shadows := rfl
@[simp] theorem State.dbgCode_copies (s : State) (n : Nat) : (s.dbgCode n).copies = s.copies := rfl
@[simp] theorem State.dbgCode_mxs (s : State) (n : Nat) : (s.dbgCode n).mxs = s.mxs := rfl
@[simp] theorem State.dbgCode_lastStart (s : State) (n : Nat) : (s.dbgCode n).lastStart = s.lastStart := rfl
@[simp] theorem State.dbgCode_tasks (s : State) (n : Nat) : (s.dbgCode n).tasks = s.tasks := rfl
@[simp] theorem State.dbgCode_taskSerial (s : State) (n : Nat) : (s.dbgCode n).taskSerial = s.taskSerial := rfl
@[simp] theorem State.dbgCode_inst (s : State) (n : Nat) : (s.dbgCode n).inst = s.inst := rfl
@[simp] theorem State.dbgCode_insts (s : State) (n : Nat) : (s.dbgCode n).insts = s.insts := rfl
@[simp] theorem State.dbgCode_ports (s : State) (n : Nat) : (s.dbgCode n).ports = s.ports := rfl
@[simp] theorem State.dbgCode_flows (s : State) (n : Nat) : (s.dbgCode n).flows = s.flows := rfl
@[simp] theorem State.dbgCode_rings (s : State) (n : Nat) : (s.dbgCode n).rings = s.rings := rfl
@[simp] theorem State.dbgCode_rxs (s : State) (n : Nat) : (s.dbgCode n).rxs = s.rxs := rfl
@[simp] theorem State.dbgCode_stalls (s : State) (n : Nat) : (s.dbgCode n).stalls = s.stalls := rfl
@[simp] theorem State.dbgCode_cwring (s : State) (n : Nat) : (s.dbgCode n).cwring = s.cwring := rfl
@[simp] theorem State.dbgCode_lostLinks (s : State) (n : Nat) : (s.dbgCode n).lostLinks = s.lostLinks := rfl
@[simp] theorem State.dbgCode_lostModules (s : State) (n : Nat) : (s.dbgCode n).lostModules = s.lostModules := rfl
@[simp] theorem State.dbgCode_rr (s : State) (n : Nat) : (s.dbgCode n).rr = s.rr := rfl
@[simp] theorem State.dbgCode_hosts (s : State) (n : Nat) : (s.dbgCode n).hosts = s.hosts := rfl
@[simp] theorem State.dbgCode_trained (s : State) (n : Nat) : (s.dbgCode n).trained = s.trained := rfl
@[simp] theorem State.dbgCode_errlog (s : State) (n : Nat) : (s.dbgCode n).errlog = s.errlog := rfl
@[simp] theorem State.dbgCode_pwr (s : State) (n : Nat) : (s.dbgCode n).pwr = s.pwr := rfl

/-! ### State.finishCommand -/

@[simp] theorem State.finishCommand_agenda (s : State) (n : Nat) : (s.finishCommand n).agenda = s.agenda := rfl
@[simp] theorem State.finishCommand_focus (s : State) (n : Nat) : (s.finishCommand n).focus = s.focus := rfl
@[simp] theorem State.finishCommand_free (s : State) (n : Nat) : (s.finishCommand n).free = s.free := rfl
@[simp] theorem State.finishCommand_nextId (s : State) (n : Nat) : (s.finishCommand n).nextId = s.nextId := rfl
@[simp] theorem State.finishCommand_reply (s : State) (n : Nat) : (s.finishCommand n).reply = s.reply := rfl
@[simp] theorem State.finishCommand_cycle (s : State) (n : Nat) : (s.finishCommand n).cycle = s.cycle := rfl
@[simp] theorem State.finishCommand_stackCycle (s : State) (n : Nat) : (s.finishCommand n).stackCycle = s.stackCycle := rfl
@[simp] theorem State.finishCommand_heartbeat (s : State) (n : Nat) : (s.finishCommand n).heartbeat = s.heartbeat := rfl
@[simp] theorem State.finishCommand_hbPeriod (s : State) (n : Nat) : (s.finishCommand n).hbPeriod = s.hbPeriod := rfl
@[simp] theorem State.finishCommand_nextTick (s : State) (n : Nat) : (s.finishCommand n).nextTick = s.nextTick := rfl
@[simp] theorem State.finishCommand_boot (s : State) (n : Nat) : (s.finishCommand n).boot = s.boot := rfl
@[simp] theorem State.finishCommand_serial (s : State) (n : Nat) : (s.finishCommand n).serial = s.serial := rfl
@[simp] theorem State.finishCommand_fwMajor (s : State) (n : Nat) : (s.finishCommand n).fwMajor = s.fwMajor := rfl
@[simp] theorem State.finishCommand_fwMinor (s : State) (n : Nat) : (s.finishCommand n).fwMinor = s.fwMinor := rfl
@[simp] theorem State.finishCommand_fwFix (s : State) (n : Nat) : (s.finishCommand n).fwFix = s.fwFix := rfl
@[simp] theorem State.finishCommand_harvest (s : State) (n : Nat) : (s.finishCommand n).harvest = s.harvest := rfl
@[simp] theorem State.finishCommand_rollback (s : State) (n : Nat) : (s.finishCommand n).rollback = s.rollback := rfl
@[simp] theorem State.finishCommand_flash (s : State) (n : Nat) : (s.finishCommand n).flash = s.flash := rfl
@[simp] theorem State.finishCommand_staged (s : State) (n : Nat) : (s.finishCommand n).staged = s.staged := rfl
@[simp] theorem State.finishCommand_running (s : State) (n : Nat) : (s.finishCommand n).running = s.running := rfl
@[simp] theorem State.finishCommand_dram (s : State) (n : Nat) : (s.finishCommand n).dram = s.dram := rfl
@[simp] theorem State.finishCommand_poison (s : State) (n : Nat) : (s.finishCommand n).poison = s.poison := rfl
@[simp] theorem State.finishCommand_checks (s : State) (n : Nat) : (s.finishCommand n).checks = s.checks := rfl
@[simp] theorem State.finishCommand_l2 (s : State) (n : Nat) : (s.finishCommand n).l2 = s.l2 := rfl
@[simp] theorem State.finishCommand_rgn (s : State) (n : Nat) : (s.finishCommand n).rgn = s.rgn := rfl
@[simp] theorem State.finishCommand_tlb (s : State) (n : Nat) : (s.finishCommand n).tlb = s.tlb := rfl
@[simp] theorem State.finishCommand_tlbis (s : State) (n : Nat) : (s.finishCommand n).tlbis = s.tlbis := rfl
@[simp] theorem State.finishCommand_multicast (s : State) (n : Nat) : (s.finishCommand n).multicast = s.multicast := rfl
@[simp] theorem State.finishCommand_ctxs (s : State) (n : Nat) : (s.finishCommand n).ctxs = s.ctxs := rfl
@[simp] theorem State.finishCommand_creates (s : State) (n : Nat) : (s.finishCommand n).creates = s.creates := rfl
@[simp] theorem State.finishCommand_kernels (s : State) (n : Nat) : (s.finishCommand n).kernels = s.kernels := rfl
@[simp] theorem State.finishCommand_kernelSerial (s : State) (n : Nat) : (s.finishCommand n).kernelSerial = s.kernelSerial := rfl
@[simp] theorem State.finishCommand_aggregates (s : State) (n : Nat) : (s.finishCommand n).aggregates = s.aggregates := rfl
@[simp] theorem State.finishCommand_crews (s : State) (n : Nat) : (s.finishCommand n).crews = s.crews := rfl
@[simp] theorem State.finishCommand_cores (s : State) (n : Nat) : (s.finishCommand n).cores = s.cores := rfl
@[simp] theorem State.finishCommand_g (s : State) (n : Nat) : (s.finishCommand n).g = s.g := rfl
@[simp] theorem State.finishCommand_gangs (s : State) (n : Nat) : (s.finishCommand n).gangs = s.gangs := rfl
@[simp] theorem State.finishCommand_shadows (s : State) (n : Nat) : (s.finishCommand n).shadows = s.shadows := rfl
@[simp] theorem State.finishCommand_copies (s : State) (n : Nat) : (s.finishCommand n).copies = s.copies := rfl
@[simp] theorem State.finishCommand_mxs (s : State) (n : Nat) : (s.finishCommand n).mxs = s.mxs := rfl
@[simp] theorem State.finishCommand_lastStart (s : State) (n : Nat) : (s.finishCommand n).lastStart = s.lastStart := rfl
@[simp] theorem State.finishCommand_tasks (s : State) (n : Nat) : (s.finishCommand n).tasks = s.tasks := rfl
@[simp] theorem State.finishCommand_taskSerial (s : State) (n : Nat) : (s.finishCommand n).taskSerial = s.taskSerial := rfl
@[simp] theorem State.finishCommand_inst (s : State) (n : Nat) : (s.finishCommand n).inst = s.inst := rfl
@[simp] theorem State.finishCommand_insts (s : State) (n : Nat) : (s.finishCommand n).insts = s.insts := rfl
@[simp] theorem State.finishCommand_ports (s : State) (n : Nat) : (s.finishCommand n).ports = s.ports := rfl
@[simp] theorem State.finishCommand_flows (s : State) (n : Nat) : (s.finishCommand n).flows = s.flows := rfl
@[simp] theorem State.finishCommand_rings (s : State) (n : Nat) : (s.finishCommand n).rings = s.rings := rfl
@[simp] theorem State.finishCommand_rxs (s : State) (n : Nat) : (s.finishCommand n).rxs = s.rxs := rfl
@[simp] theorem State.finishCommand_stalls (s : State) (n : Nat) : (s.finishCommand n).stalls = s.stalls := rfl
@[simp] theorem State.finishCommand_cwring (s : State) (n : Nat) : (s.finishCommand n).cwring = s.cwring := rfl
@[simp] theorem State.finishCommand_lostLinks (s : State) (n : Nat) : (s.finishCommand n).lostLinks = s.lostLinks := rfl
@[simp] theorem State.finishCommand_lostModules (s : State) (n : Nat) : (s.finishCommand n).lostModules = s.lostModules := rfl
@[simp] theorem State.finishCommand_rr (s : State) (n : Nat) : (s.finishCommand n).rr = s.rr := rfl
@[simp] theorem State.finishCommand_hosts (s : State) (n : Nat) : (s.finishCommand n).hosts = s.hosts := rfl
@[simp] theorem State.finishCommand_trained (s : State) (n : Nat) : (s.finishCommand n).trained = s.trained := rfl
@[simp] theorem State.finishCommand_dbg (s : State) (n : Nat) : (s.finishCommand n).dbg = s.dbg := rfl
@[simp] theorem State.finishCommand_errlog (s : State) (n : Nat) : (s.finishCommand n).errlog = s.errlog := rfl
@[simp] theorem State.finishCommand_pwr (s : State) (n : Nat) : (s.finishCommand n).pwr = s.pwr := rfl

/-! ### State.retire -/

@[simp] theorem State.retire_agenda (s : State) (t : State) (lane : Bool) (u : Undo) : (s.retire t lane u).agenda = s.agenda := rfl
@[simp] theorem State.retire_focus (s : State) (t : State) (lane : Bool) (u : Undo) : (s.retire t lane u).focus = s.focus := rfl
@[simp] theorem State.retire_free (s : State) (t : State) (lane : Bool) (u : Undo) : (s.retire t lane u).free = s.free := rfl
@[simp] theorem State.retire_nextId (s : State) (t : State) (lane : Bool) (u : Undo) : (s.retire t lane u).nextId = s.nextId := rfl
@[simp] theorem State.retire_reply (s : State) (t : State) (lane : Bool) (u : Undo) : (s.retire t lane u).reply = s.reply := rfl
@[simp] theorem State.retire_cycle (s : State) (t : State) (lane : Bool) (u : Undo) : (s.retire t lane u).cycle = s.cycle := rfl
@[simp] theorem State.retire_stackCycle (s : State) (t : State) (lane : Bool) (u : Undo) : (s.retire t lane u).stackCycle = s.stackCycle := rfl
@[simp] theorem State.retire_heartbeat (s : State) (t : State) (lane : Bool) (u : Undo) : (s.retire t lane u).heartbeat = s.heartbeat := rfl
@[simp] theorem State.retire_hbPeriod (s : State) (t : State) (lane : Bool) (u : Undo) : (s.retire t lane u).hbPeriod = s.hbPeriod := rfl
@[simp] theorem State.retire_nextTick (s : State) (t : State) (lane : Bool) (u : Undo) : (s.retire t lane u).nextTick = s.nextTick := rfl
@[simp] theorem State.retire_boot (s : State) (t : State) (lane : Bool) (u : Undo) : (s.retire t lane u).boot = s.boot := rfl
@[simp] theorem State.retire_serial (s : State) (t : State) (lane : Bool) (u : Undo) : (s.retire t lane u).serial = s.serial := rfl
@[simp] theorem State.retire_fwMajor (s : State) (t : State) (lane : Bool) (u : Undo) : (s.retire t lane u).fwMajor = s.fwMajor := rfl
@[simp] theorem State.retire_fwMinor (s : State) (t : State) (lane : Bool) (u : Undo) : (s.retire t lane u).fwMinor = s.fwMinor := rfl
@[simp] theorem State.retire_fwFix (s : State) (t : State) (lane : Bool) (u : Undo) : (s.retire t lane u).fwFix = s.fwFix := rfl
@[simp] theorem State.retire_harvest (s : State) (t : State) (lane : Bool) (u : Undo) : (s.retire t lane u).harvest = s.harvest := rfl
@[simp] theorem State.retire_rollback (s : State) (t : State) (lane : Bool) (u : Undo) : (s.retire t lane u).rollback = s.rollback := rfl
@[simp] theorem State.retire_flash (s : State) (t : State) (lane : Bool) (u : Undo) : (s.retire t lane u).flash = s.flash := rfl
@[simp] theorem State.retire_staged (s : State) (t : State) (lane : Bool) (u : Undo) : (s.retire t lane u).staged = s.staged := rfl
@[simp] theorem State.retire_running (s : State) (t : State) (lane : Bool) (u : Undo) : (s.retire t lane u).running = s.running := rfl
@[simp] theorem State.retire_dram (s : State) (t : State) (lane : Bool) (u : Undo) : (s.retire t lane u).dram = s.dram := rfl
@[simp] theorem State.retire_poison (s : State) (t : State) (lane : Bool) (u : Undo) : (s.retire t lane u).poison = s.poison := rfl
@[simp] theorem State.retire_checks (s : State) (t : State) (lane : Bool) (u : Undo) : (s.retire t lane u).checks = s.checks := rfl
@[simp] theorem State.retire_l2 (s : State) (t : State) (lane : Bool) (u : Undo) : (s.retire t lane u).l2 = s.l2 := rfl
@[simp] theorem State.retire_rgn (s : State) (t : State) (lane : Bool) (u : Undo) : (s.retire t lane u).rgn = s.rgn := rfl
@[simp] theorem State.retire_tlb (s : State) (t : State) (lane : Bool) (u : Undo) : (s.retire t lane u).tlb = s.tlb := rfl
@[simp] theorem State.retire_tlbis (s : State) (t : State) (lane : Bool) (u : Undo) : (s.retire t lane u).tlbis = s.tlbis := rfl
@[simp] theorem State.retire_multicast (s : State) (t : State) (lane : Bool) (u : Undo) : (s.retire t lane u).multicast = s.multicast := rfl
@[simp] theorem State.retire_cp (s : State) (t : State) (lane : Bool) (u : Undo) : (s.retire t lane u).cp = s.cp := rfl
@[simp] theorem State.retire_ctxs (s : State) (t : State) (lane : Bool) (u : Undo) : (s.retire t lane u).ctxs = s.ctxs := rfl
@[simp] theorem State.retire_creates (s : State) (t : State) (lane : Bool) (u : Undo) : (s.retire t lane u).creates = s.creates := rfl
@[simp] theorem State.retire_kernels (s : State) (t : State) (lane : Bool) (u : Undo) : (s.retire t lane u).kernels = s.kernels := rfl
@[simp] theorem State.retire_kernelSerial (s : State) (t : State) (lane : Bool) (u : Undo) : (s.retire t lane u).kernelSerial = s.kernelSerial := rfl
@[simp] theorem State.retire_aggregates (s : State) (t : State) (lane : Bool) (u : Undo) : (s.retire t lane u).aggregates = s.aggregates := rfl
@[simp] theorem State.retire_crews (s : State) (t : State) (lane : Bool) (u : Undo) : (s.retire t lane u).crews = s.crews := rfl
@[simp] theorem State.retire_cores (s : State) (t : State) (lane : Bool) (u : Undo) : (s.retire t lane u).cores = s.cores := rfl
@[simp] theorem State.retire_gangs (s : State) (t : State) (lane : Bool) (u : Undo) : (s.retire t lane u).gangs = s.gangs := rfl
@[simp] theorem State.retire_shadows (s : State) (t : State) (lane : Bool) (u : Undo) : (s.retire t lane u).shadows = s.shadows := rfl
@[simp] theorem State.retire_copies (s : State) (t : State) (lane : Bool) (u : Undo) : (s.retire t lane u).copies = s.copies := rfl
@[simp] theorem State.retire_mxs (s : State) (t : State) (lane : Bool) (u : Undo) : (s.retire t lane u).mxs = s.mxs := rfl
@[simp] theorem State.retire_lastStart (s : State) (t : State) (lane : Bool) (u : Undo) : (s.retire t lane u).lastStart = s.lastStart := rfl
@[simp] theorem State.retire_tasks (s : State) (t : State) (lane : Bool) (u : Undo) : (s.retire t lane u).tasks = s.tasks := rfl
@[simp] theorem State.retire_taskSerial (s : State) (t : State) (lane : Bool) (u : Undo) : (s.retire t lane u).taskSerial = s.taskSerial := rfl
@[simp] theorem State.retire_inst (s : State) (t : State) (lane : Bool) (u : Undo) : (s.retire t lane u).inst = s.inst := rfl
@[simp] theorem State.retire_insts (s : State) (t : State) (lane : Bool) (u : Undo) : (s.retire t lane u).insts = s.insts := rfl
@[simp] theorem State.retire_ports (s : State) (t : State) (lane : Bool) (u : Undo) : (s.retire t lane u).ports = s.ports := rfl
@[simp] theorem State.retire_flows (s : State) (t : State) (lane : Bool) (u : Undo) : (s.retire t lane u).flows = s.flows := rfl
@[simp] theorem State.retire_rings (s : State) (t : State) (lane : Bool) (u : Undo) : (s.retire t lane u).rings = s.rings := rfl
@[simp] theorem State.retire_rxs (s : State) (t : State) (lane : Bool) (u : Undo) : (s.retire t lane u).rxs = s.rxs := rfl
@[simp] theorem State.retire_stalls (s : State) (t : State) (lane : Bool) (u : Undo) : (s.retire t lane u).stalls = s.stalls := rfl
@[simp] theorem State.retire_cwring (s : State) (t : State) (lane : Bool) (u : Undo) : (s.retire t lane u).cwring = s.cwring := rfl
@[simp] theorem State.retire_lostLinks (s : State) (t : State) (lane : Bool) (u : Undo) : (s.retire t lane u).lostLinks = s.lostLinks := rfl
@[simp] theorem State.retire_lostModules (s : State) (t : State) (lane : Bool) (u : Undo) : (s.retire t lane u).lostModules = s.lostModules := rfl
@[simp] theorem State.retire_rr (s : State) (t : State) (lane : Bool) (u : Undo) : (s.retire t lane u).rr = s.rr := rfl
@[simp] theorem State.retire_hosts (s : State) (t : State) (lane : Bool) (u : Undo) : (s.retire t lane u).hosts = s.hosts := rfl
@[simp] theorem State.retire_trained (s : State) (t : State) (lane : Bool) (u : Undo) : (s.retire t lane u).trained = s.trained := rfl
@[simp] theorem State.retire_dbg (s : State) (t : State) (lane : Bool) (u : Undo) : (s.retire t lane u).dbg = s.dbg := rfl
@[simp] theorem State.retire_errlog (s : State) (t : State) (lane : Bool) (u : Undo) : (s.retire t lane u).errlog = s.errlog := rfl
@[simp] theorem State.retire_pwr (s : State) (t : State) (lane : Bool) (u : Undo) : (s.retire t lane u).pwr = s.pwr := rfl

/-! ### State.takeLatch -/

@[simp] theorem State.takeLatch_agenda (s : State) (l : Nat) : (s.takeLatch l).agenda = s.agenda := rfl
@[simp] theorem State.takeLatch_focus (s : State) (l : Nat) : (s.takeLatch l).focus = s.focus := rfl
@[simp] theorem State.takeLatch_free (s : State) (l : Nat) : (s.takeLatch l).free = s.free := rfl
@[simp] theorem State.takeLatch_nextId (s : State) (l : Nat) : (s.takeLatch l).nextId = s.nextId := rfl
@[simp] theorem State.takeLatch_reply (s : State) (l : Nat) : (s.takeLatch l).reply = s.reply := rfl
@[simp] theorem State.takeLatch_cycle (s : State) (l : Nat) : (s.takeLatch l).cycle = s.cycle := rfl
@[simp] theorem State.takeLatch_stackCycle (s : State) (l : Nat) : (s.takeLatch l).stackCycle = s.stackCycle := rfl
@[simp] theorem State.takeLatch_heartbeat (s : State) (l : Nat) : (s.takeLatch l).heartbeat = s.heartbeat := rfl
@[simp] theorem State.takeLatch_hbPeriod (s : State) (l : Nat) : (s.takeLatch l).hbPeriod = s.hbPeriod := rfl
@[simp] theorem State.takeLatch_nextTick (s : State) (l : Nat) : (s.takeLatch l).nextTick = s.nextTick := rfl
@[simp] theorem State.takeLatch_boot (s : State) (l : Nat) : (s.takeLatch l).boot = s.boot := rfl
@[simp] theorem State.takeLatch_serial (s : State) (l : Nat) : (s.takeLatch l).serial = s.serial := rfl
@[simp] theorem State.takeLatch_fwMajor (s : State) (l : Nat) : (s.takeLatch l).fwMajor = s.fwMajor := rfl
@[simp] theorem State.takeLatch_fwMinor (s : State) (l : Nat) : (s.takeLatch l).fwMinor = s.fwMinor := rfl
@[simp] theorem State.takeLatch_fwFix (s : State) (l : Nat) : (s.takeLatch l).fwFix = s.fwFix := rfl
@[simp] theorem State.takeLatch_harvest (s : State) (l : Nat) : (s.takeLatch l).harvest = s.harvest := rfl
@[simp] theorem State.takeLatch_rollback (s : State) (l : Nat) : (s.takeLatch l).rollback = s.rollback := rfl
@[simp] theorem State.takeLatch_flash (s : State) (l : Nat) : (s.takeLatch l).flash = s.flash := rfl
@[simp] theorem State.takeLatch_staged (s : State) (l : Nat) : (s.takeLatch l).staged = s.staged := rfl
@[simp] theorem State.takeLatch_running (s : State) (l : Nat) : (s.takeLatch l).running = s.running := rfl
@[simp] theorem State.takeLatch_dram (s : State) (l : Nat) : (s.takeLatch l).dram = s.dram := rfl
@[simp] theorem State.takeLatch_poison (s : State) (l : Nat) : (s.takeLatch l).poison = s.poison := rfl
@[simp] theorem State.takeLatch_checks (s : State) (l : Nat) : (s.takeLatch l).checks = s.checks := rfl
@[simp] theorem State.takeLatch_l2 (s : State) (l : Nat) : (s.takeLatch l).l2 = s.l2 := rfl
@[simp] theorem State.takeLatch_rgn (s : State) (l : Nat) : (s.takeLatch l).rgn = s.rgn := rfl
@[simp] theorem State.takeLatch_tlb (s : State) (l : Nat) : (s.takeLatch l).tlb = s.tlb := rfl
@[simp] theorem State.takeLatch_tlbis (s : State) (l : Nat) : (s.takeLatch l).tlbis = s.tlbis := rfl
@[simp] theorem State.takeLatch_multicast (s : State) (l : Nat) : (s.takeLatch l).multicast = s.multicast := rfl
@[simp] theorem State.takeLatch_cp (s : State) (l : Nat) : (s.takeLatch l).cp = s.cp := rfl
@[simp] theorem State.takeLatch_ctxs (s : State) (l : Nat) : (s.takeLatch l).ctxs = s.ctxs := rfl
@[simp] theorem State.takeLatch_creates (s : State) (l : Nat) : (s.takeLatch l).creates = s.creates := rfl
@[simp] theorem State.takeLatch_kernels (s : State) (l : Nat) : (s.takeLatch l).kernels = s.kernels := rfl
@[simp] theorem State.takeLatch_kernelSerial (s : State) (l : Nat) : (s.takeLatch l).kernelSerial = s.kernelSerial := rfl
@[simp] theorem State.takeLatch_aggregates (s : State) (l : Nat) : (s.takeLatch l).aggregates = s.aggregates := rfl
@[simp] theorem State.takeLatch_crews (s : State) (l : Nat) : (s.takeLatch l).crews = s.crews := rfl
@[simp] theorem State.takeLatch_cores (s : State) (l : Nat) : (s.takeLatch l).cores = s.cores := rfl
@[simp] theorem State.takeLatch_g (s : State) (l : Nat) : (s.takeLatch l).g = s.g := rfl
@[simp] theorem State.takeLatch_shadows (s : State) (l : Nat) : (s.takeLatch l).shadows = s.shadows := rfl
@[simp] theorem State.takeLatch_copies (s : State) (l : Nat) : (s.takeLatch l).copies = s.copies := rfl
@[simp] theorem State.takeLatch_mxs (s : State) (l : Nat) : (s.takeLatch l).mxs = s.mxs := rfl
@[simp] theorem State.takeLatch_lastStart (s : State) (l : Nat) : (s.takeLatch l).lastStart = s.lastStart := rfl
@[simp] theorem State.takeLatch_tasks (s : State) (l : Nat) : (s.takeLatch l).tasks = s.tasks := rfl
@[simp] theorem State.takeLatch_taskSerial (s : State) (l : Nat) : (s.takeLatch l).taskSerial = s.taskSerial := rfl
@[simp] theorem State.takeLatch_inst (s : State) (l : Nat) : (s.takeLatch l).inst = s.inst := rfl
@[simp] theorem State.takeLatch_insts (s : State) (l : Nat) : (s.takeLatch l).insts = s.insts := rfl
@[simp] theorem State.takeLatch_ports (s : State) (l : Nat) : (s.takeLatch l).ports = s.ports := rfl
@[simp] theorem State.takeLatch_flows (s : State) (l : Nat) : (s.takeLatch l).flows = s.flows := rfl
@[simp] theorem State.takeLatch_rings (s : State) (l : Nat) : (s.takeLatch l).rings = s.rings := rfl
@[simp] theorem State.takeLatch_rxs (s : State) (l : Nat) : (s.takeLatch l).rxs = s.rxs := rfl
@[simp] theorem State.takeLatch_stalls (s : State) (l : Nat) : (s.takeLatch l).stalls = s.stalls := rfl
@[simp] theorem State.takeLatch_cwring (s : State) (l : Nat) : (s.takeLatch l).cwring = s.cwring := rfl
@[simp] theorem State.takeLatch_lostLinks (s : State) (l : Nat) : (s.takeLatch l).lostLinks = s.lostLinks := rfl
@[simp] theorem State.takeLatch_lostModules (s : State) (l : Nat) : (s.takeLatch l).lostModules = s.lostModules := rfl
@[simp] theorem State.takeLatch_rr (s : State) (l : Nat) : (s.takeLatch l).rr = s.rr := rfl
@[simp] theorem State.takeLatch_hosts (s : State) (l : Nat) : (s.takeLatch l).hosts = s.hosts := rfl
@[simp] theorem State.takeLatch_trained (s : State) (l : Nat) : (s.takeLatch l).trained = s.trained := rfl
@[simp] theorem State.takeLatch_dbg (s : State) (l : Nat) : (s.takeLatch l).dbg = s.dbg := rfl
@[simp] theorem State.takeLatch_errlog (s : State) (l : Nat) : (s.takeLatch l).errlog = s.errlog := rfl
@[simp] theorem State.takeLatch_pwr (s : State) (l : Nat) : (s.takeLatch l).pwr = s.pwr := rfl

/-! ### The written fields -/

@[simp] theorem State.setK_g (s : State) (i : Reg) (x : Word) : (s.setK i x).g = s.g.setK i x := rfl
@[simp] theorem State.setPc_g (s : State) (pc : Word) : (s.setPc pc).g = { s.g with pc := pc } := rfl
@[simp] theorem State.advance_g (s : State) : s.advance.g = { s.g with pc := s.g.pc + 4 } := rfl
@[simp] theorem State.kill_g (s : State) (m : Mask) : (s.kill m).g = { s.g with dead := s.g.dead ||| m } := rfl
@[simp] theorem State.setInstPc_inst (s : State) (pc : Word) : (s.setInstPc pc).inst = { s.inst with pc := pc } := rfl

/-! ### Gang.setK -/

@[simp] theorem Gang.setK_ref (g : Gang) (i : Reg) (x : Word) : (g.setK i x).ref = g.ref := by unfold Gang.setK; split <;> rfl
@[simp] theorem Gang.setK_core (g : Gang) (i : Reg) (x : Word) : (g.setK i x).core = g.core := by unfold Gang.setK; split <;> rfl
@[simp] theorem Gang.setK_slot (g : Gang) (i : Reg) (x : Word) : (g.setK i x).slot = g.slot := by unfold Gang.setK; split <;> rfl
@[simp] theorem Gang.setK_status (g : Gang) (i : Reg) (x : Word) : (g.setK i x).status = g.status := by unfold Gang.setK; split <;> rfl
@[simp] theorem Gang.setK_level (g : Gang) (i : Reg) (x : Word) : (g.setK i x).level = g.level := by unfold Gang.setK; split <;> rfl
@[simp] theorem Gang.setK_kAlt (g : Gang) (i : Reg) (x : Word) : (g.setK i x).kAlt = g.kAlt := by unfold Gang.setK; split <;> rfl
@[simp] theorem Gang.setK_srPoison (g : Gang) (i : Reg) (x : Word) : (g.setK i x).srPoison = g.srPoison := by unfold Gang.setK; split <;> rfl
@[simp] theorem Gang.setK_pc (g : Gang) (i : Reg) (x : Word) : (g.setK i x).pc = g.pc := by unfold Gang.setK; split <;> rfl
@[simp] theorem Gang.setK_segs (g : Gang) (i : Reg) (x : Word) : (g.setK i x).segs = g.segs := by unfold Gang.setK; split <;> rfl
@[simp] theorem Gang.setK_wait (g : Gang) (i : Reg) (x : Word) : (g.setK i x).wait = g.wait := by unfold Gang.setK; split <;> rfl
@[simp] theorem Gang.setK_kept (g : Gang) (i : Reg) (x : Word) : (g.setK i x).kept = g.kept := by unfold Gang.setK; split <;> rfl
@[simp] theorem Gang.setK_yieldUntil (g : Gang) (i : Reg) (x : Word) : (g.setK i x).yieldUntil = g.yieldUntil := by unfold Gang.setK; split <;> rfl
@[simp] theorem Gang.setK_win (g : Gang) (i : Reg) (x : Word) : (g.setK i x).win = g.win := by unfold Gang.setK; split <;> rfl
@[simp] theorem Gang.setK_res (g : Gang) (i : Reg) (x : Word) : (g.setK i x).res = g.res := by unfold Gang.setK; split <;> rfl
@[simp] theorem Gang.setK_allot (g : Gang) (i : Reg) (x : Word) : (g.setK i x).allot = g.allot := by unfold Gang.setK; split <;> rfl
@[simp] theorem Gang.setK_units (g : Gang) (i : Reg) (x : Word) : (g.setK i x).units = g.units := by unfold Gang.setK; split <;> rfl
@[simp] theorem Gang.setK_regs (g : Gang) (i : Reg) (x : Word) : (g.setK i x).regs = g.regs := by unfold Gang.setK; split <;> rfl
@[simp] theorem Gang.setK_vPoison (g : Gang) (i : Reg) (x : Word) : (g.setK i x).vPoison = g.vPoison := by unfold Gang.setK; split <;> rfl
@[simp] theorem Gang.setK_q (g : Gang) (i : Reg) (x : Word) : (g.setK i x).q = g.q := by unfold Gang.setK; split <;> rfl
@[simp] theorem Gang.setK_latches (g : Gang) (i : Reg) (x : Word) : (g.setK i x).latches = g.latches := by unfold Gang.setK; split <;> rfl
@[simp] theorem Gang.setK_lane (g : Gang) (i : Reg) (x : Word) : (g.setK i x).lane = g.lane := by unfold Gang.setK; split <;> rfl
@[simp] theorem Gang.setK_pend (g : Gang) (i : Reg) (x : Word) : (g.setK i x).pend = g.pend := by unfold Gang.setK; split <;> rfl
@[simp] theorem Gang.setK_ust (g : Gang) (i : Reg) (x : Word) : (g.setK i x).ust = g.ust := by unfold Gang.setK; split <;> rfl
@[simp] theorem Gang.setK_ifc (g : Gang) (i : Reg) (x : Word) : (g.setK i x).ifc = g.ifc := by unfold Gang.setK; split <;> rfl
@[simp] theorem Gang.setK_sealed (g : Gang) (i : Reg) (x : Word) : (g.setK i x).sealed = g.sealed := by unfold Gang.setK; split <;> rfl
@[simp] theorem Gang.setK_batchDone (g : Gang) (i : Reg) (x : Word) : (g.setK i x).batchDone = g.batchDone := by unfold Gang.setK; split <;> rfl
@[simp] theorem Gang.setK_dropCnt (g : Gang) (i : Reg) (x : Word) : (g.setK i x).dropCnt = g.dropCnt := by unfold Gang.setK; split <;> rfl
@[simp] theorem Gang.setK_errCnt (g : Gang) (i : Reg) (x : Word) : (g.setK i x).errCnt = g.errCnt := by unfold Gang.setK; split <;> rfl
@[simp] theorem Gang.setK_lastBatch (g : Gang) (i : Reg) (x : Word) : (g.setK i x).lastBatch = g.lastBatch := by unfold Gang.setK; split <;> rfl
@[simp] theorem Gang.setK_notes (g : Gang) (i : Reg) (x : Word) : (g.setK i x).notes = g.notes := by unfold Gang.setK; split <;> rfl
@[simp] theorem Gang.setK_dead (g : Gang) (i : Reg) (x : Word) : (g.setK i x).dead = g.dead := by unfold Gang.setK; split <;> rfl
@[simp] theorem Gang.setK_trapCause (g : Gang) (i : Reg) (x : Word) : (g.setK i x).trapCause = g.trapCause := by unfold Gang.setK; split <;> rfl
@[simp] theorem Gang.setK_trapPc (g : Gang) (i : Reg) (x : Word) : (g.setK i x).trapPc = g.trapPc := by unfold Gang.setK; split <;> rfl
@[simp] theorem Gang.setK_trapInfo (g : Gang) (i : Reg) (x : Word) : (g.setK i x).trapInfo = g.trapInfo := by unfold Gang.setK; split <;> rfl
@[simp] theorem Gang.setK_trapVec (g : Gang) (i : Reg) (x : Word) : (g.setK i x).trapVec = g.trapVec := by unfold Gang.setK; split <;> rfl
@[simp] theorem Gang.setK_haltTrap (g : Gang) (i : Reg) (x : Word) : (g.setK i x).haltTrap = g.haltTrap := by unfold Gang.setK; split <;> rfl
@[simp] theorem Gang.setK_lptBase (g : Gang) (i : Reg) (x : Word) : (g.setK i x).lptBase = g.lptBase := by unfold Gang.setK; split <;> rfl
@[simp] theorem Gang.setK_dbgHaltTrap (g : Gang) (i : Reg) (x : Word) : (g.setK i x).dbgHaltTrap = g.dbgHaltTrap := by unfold Gang.setK; split <;> rfl
@[simp] theorem Gang.setK_dbgHaltBrk (g : Gang) (i : Reg) (x : Word) : (g.setK i x).dbgHaltBrk = g.dbgHaltBrk := by unfold Gang.setK; split <;> rfl
@[simp] theorem Gang.setK_dbgUndo (g : Gang) (i : Reg) (x : Word) : (g.setK i x).dbgUndo = g.dbgUndo := by unfold Gang.setK; split <;> rfl
@[simp] theorem Gang.setK_dbgLaunch (g : Gang) (i : Reg) (x : Word) : (g.setK i x).dbgLaunch = g.dbgLaunch := by unfold Gang.setK; split <;> rfl
@[simp] theorem Gang.setK_undo (g : Gang) (i : Reg) (x : Word) : (g.setK i x).undo = g.undo := by unfold Gang.setK; split <;> rfl
@[simp] theorem Gang.setK_undoMem (g : Gang) (i : Reg) (x : Word) : (g.setK i x).undoMem = g.undoMem := by unfold Gang.setK; split <;> rfl
@[simp] theorem Gang.setK_stepOne (g : Gang) (i : Reg) (x : Word) : (g.setK i x).stepOne = g.stepOne := by unfold Gang.setK; split <;> rfl
@[simp] theorem Gang.setK_haltDue (g : Gang) (i : Reg) (x : Word) : (g.setK i x).haltDue = g.haltDue := by unfold Gang.setK; split <;> rfl
@[simp] theorem Gang.setK_streams (g : Gang) (i : Reg) (x : Word) : (g.setK i x).streams = g.streams := by unfold Gang.setK; split <;> rfl
@[simp] theorem Gang.setK_shadow (g : Gang) (i : Reg) (x : Word) : (g.setK i x).shadow = g.shadow := by unfold Gang.setK; split <;> rfl
@[simp] theorem Gang.setK_trail (g : Gang) (i : Reg) (x : Word) : (g.setK i x).trail = g.trail := by unfold Gang.setK; split <;> rfl
@[simp] theorem Gang.setK_laneAge (g : Gang) (i : Reg) (x : Word) : (g.setK i x).laneAge = g.laneAge := by unfold Gang.setK; split <;> rfl
@[simp] theorem Gang.setK_scalarAge (g : Gang) (i : Reg) (x : Word) : (g.setK i x).scalarAge = g.scalarAge := by unfold Gang.setK; split <;> rfl
@[simp] theorem Gang.setK_early (g : Gang) (i : Reg) (x : Word) : (g.setK i x).early = g.early := by unfold Gang.setK; split <;> rfl
@[simp] theorem Gang.setK_lBase (g : Gang) (i : Reg) (x : Word) : (g.setK i x).lBase = g.lBase := by unfold Gang.setK; split <;> rfl

end Sys2Proof.Machine
end

