-- ==== Sys2Proof/Laws/Scalar.lean ====
section
/-! SUPPORT. What the shared operations of the scalar stream do, said once: an answer as a next state, a result, a
completed instruction, taking a trap and returning from one. -/

namespace Sys2Proof.Machine

open Sys2Proof
open Sys2Proof.Safety

/-! ### Answers -/

@[simp] theorem Act.scalar_ok (b s : State) (u : Undo) : Act.scalar b (.ok s u) = .next (s.retire b false u) := rfl
@[simp] theorem Act.scalar_trap (b s : State) (c : Cause) (x : Word) :
    Act.scalar b (.trap s c x) = .next (if b.g.uncompared then b else s.takeTrap false c x) := rfl
@[simp] theorem Act.scalar_wait (b s : State) (w : Wait) :
    Act.scalar b (.wait s w) = .next { s with g := { s.g with wait := some w } } := rfl
@[simp] theorem Act.scalar_stall (b s : State) :
    Act.scalar b (.stall s) = .next (if b.g.uncompared then b else s) := rfl

/-- A scalar instruction always answers a next state. -/
theorem Act.scalar_next (b : State) (a : Act) : ∃ t, a.scalar b = .next t := by
  cases a <;> exact ⟨_, rfl⟩

/-- A lane instruction always answers a next state. -/
theorem Act.lane_next (b : State) (a : Act) : ∃ t, a.lane b = .next t := by
  cases a <;> exact ⟨_, rfl⟩

theorem State.lane_next (s : State) (op : LaneOp) (f : LaneF) (k : Act) : ∃ t, s.lane op f k = .next t :=
  Act.lane_next _ _

/-- Sound sources raise nothing. -/
theorem State.reading_sound {s : State} {rs : List Reg} (a : Act) (h : ∀ r ∈ rs, s.g.badK r = false) :
    s.reading rs a = a := by
  have : (rs.any fun r => s.g.badK r) = false := by simpa using h
  simp [State.reading, this]

/-! ### Completing an instruction (R152, R372, R374) -/

/-- A halt changes the status, the single step and the note that a halt is due. -/
theorem Gang.halt_eq (g : Gang) :
    g.halt = { g with status := g.halt.status, stepOne := g.halt.stepOne, haltDue := g.halt.haltDue } := by
  unfold Gang.halt; split <;> rfl

theorem Gang.stepDone_eq (g : Gang) (lane : Bool) :
    g.stepDone lane = { g with
      status := (g.stepDone lane).status, stepOne := (g.stepDone lane).stepOne, haltDue := (g.stepDone lane).haltDue } := by
  unfold Gang.stepDone
  generalize (g.stepOne == some (if lane then Stream.lane else Stream.scalar) && g.status == .run) = b
  cases b
  · rfl
  · exact Gang.halt_eq g

/-- With no single step nothing halts. -/
theorem Gang.stepDone_none (g : Gang) (lane : Bool) (h : g.stepOne = none) : g.stepDone lane = g := by
  cases lane <;> simp [Gang.stepDone, h]

/-- The gang that `retire` leaves: its wait, the record of one, and what `marked` names. -/
theorem State.retire_eq (s b : State) (lane : Bool) (u : Undo) :
    s.retire b lane u = { s with g := marked { s.g with
      wait := (s.retire b lane u).g.wait, kept := (s.retire b lane u).g.kept } (s.retire b lane u).g } := by
  cases lane <;> cases hd : (s.g.dbgUndo && u != .none) <;>
    simp only [State.retire, State.issued, hd, marked, if_true, if_false, Bool.false_eq_true] <;>
    rw [Gang.stepDone_eq]

/-- For a lane instruction the wait and its record stay too. -/
theorem State.retire_lane_eq (s b : State) (u : Undo) :
    s.retire b true u = { s with g := marked s.g (s.retire b true u).g } := by
  cases hd : (s.g.dbgUndo && u != .none) <;>
    simp only [State.retire, State.issued, hd, marked, if_true, if_false, Bool.false_eq_true] <;>
    rw [Gang.stepDone_eq]

theorem State.retire_wait (s b : State) (u : Undo) : (s.retire b false u).g.wait = none := by
  cases hd : (s.g.dbgUndo && u != .none) <;>
    simp only [State.retire, State.issued, hd, if_true, if_false, Bool.false_eq_true] <;>
    rw [Gang.stepDone_eq]

theorem State.retire_lane_wait (s b : State) (u : Undo) : (s.retire b true u).g.wait = s.g.wait := by
  rw [State.retire_lane_eq]; rfl

/-- What completing an instruction leaves in the record of how instructions complete. -/
theorem State.retire_completes (s b : State) (lane : Bool) (u : Undo) : completes lane s (s.retire b lane u) := by
  refine ⟨fun h => ?_, fun h => ?_, ?_, ?_, ?_⟩
  · cases lane <;>
      simp only [State.retire, State.issued, h, Bool.false_and, if_true, if_false, Bool.false_eq_true] <;>
      rw [Gang.stepDone_eq] <;> exact ⟨rfl, rfl⟩
  · cases lane <;> cases hd : (s.g.dbgUndo && u != .none) <;>
      simp only [State.retire, State.issued, hd, if_true, if_false, Bool.false_eq_true] <;>
      rw [Gang.stepDone_none _ _ (by exact h)] <;> exact ⟨rfl, rfl, h⟩
  · cases lane <;> cases hd : (s.g.dbgUndo && u != .none) <;>
      simp only [State.retire, State.issued, hd, if_true, if_false, Bool.false_eq_true]
  · cases lane <;> cases hd : (s.g.dbgUndo && u != .none) <;>
      simp only [State.retire, State.issued, hd, if_true, if_false, Bool.false_eq_true] <;>
      rw [Gang.stepDone_eq]
  · cases lane <;> cases hd : (s.g.dbgUndo && u != .none) <;>
      simp only [State.retire, State.issued, hd, if_true, if_false, Bool.false_eq_true] <;>
      rw [Gang.stepDone_eq]

@[simp] theorem State.retire_k (s b : State) (lane : Bool) (u : Undo) : (s.retire b lane u).g.k = s.g.k := by
  rw [State.retire_eq]; rfl
@[simp] theorem State.retire_kPoison (s b : State) (lane : Bool) (u : Undo) :
    (s.retire b lane u).g.kPoison = s.g.kPoison := by rw [State.retire_eq]; rfl
@[simp] theorem State.retire_pc (s b : State) (lane : Bool) (u : Undo) : (s.retire b lane u).g.pc = s.g.pc := by
  rw [State.retire_eq]; rfl
@[simp] theorem State.retire_regs (s b : State) (lane : Bool) (u : Undo) : (s.retire b lane u).g.regs = s.g.regs := by
  rw [State.retire_eq]; rfl
@[simp] theorem State.retire_q (s b : State) (lane : Bool) (u : Undo) : (s.retire b lane u).g.q = s.g.q := by
  rw [State.retire_eq]; rfl
@[simp] theorem State.retire_laneStream (s b : State) (lane : Bool) (u : Undo) :
    (s.retire b lane u).g.lane = s.g.lane := by rw [State.retire_eq]; rfl
@[simp] theorem State.retire_latches (s b : State) (lane : Bool) (u : Undo) :
    (s.retire b lane u).g.latches = s.g.latches := by rw [State.retire_eq]; rfl
@[simp] theorem State.retire_pend (s b : State) (lane : Bool) (u : Undo) : (s.retire b lane u).g.pend = s.g.pend := by
  rw [State.retire_eq]; rfl
@[simp] theorem State.retire_vPoison (s b : State) (lane : Bool) (u : Undo) :
    (s.retire b lane u).g.vPoison = s.g.vPoison := by rw [State.retire_eq]; rfl
@[simp] theorem State.retire_ifc (s b : State) (lane : Bool) (u : Undo) : (s.retire b lane u).g.ifc = s.g.ifc := by
  rw [State.retire_eq]; rfl
@[simp] theorem State.retire_ust (s b : State) (lane : Bool) (u : Undo) : (s.retire b lane u).g.ust = s.g.ust := by
  rw [State.retire_eq]; rfl

/-! ### Results -/

/-- k[d] := x, as a list. -/
@[simp] theorem State.setK_k (s : State) (d : Reg) (x : Word) :
    (s.setK d x).g.k = if d = 0 then s.g.k else s.g.k.set d.toNat x := by
  by_cases h : d = 0
  · subst h; rfl
  · have hb : (d == 0) = false := beq_false_of_ne h
    simp only [State.setK, Gang.setK, hb, Bool.false_eq_true, if_false, if_neg h]

/-- `setK` changes the k registers and their error marks only. -/
theorem State.setK_eq (s : State) (d : Reg) (x : Word) :
    s.setK d x = { s with g := { s.g with k := (s.setK d x).g.k, kPoison := (s.setK d x).g.kPoison } } := by
  by_cases h : d = 0
  · subst h; rfl
  · have hb : (d == 0) = false := beq_false_of_ne h
    simp only [State.setK, Gang.setK, hb, Bool.false_eq_true, if_false]

/-- A home byte depends on the memory side of the state only. -/
theorem State.homeByte_gang (s : State) (g : Gang) (a : Nat) : ({ s with g := g } : State).homeByte a = s.homeByte a := rfl

/-- An operation that touches the record of how instructions complete as little as `s` does. -/
theorem completes_of {lane : Bool} {s u t : State} (h : completes lane u t) (hg : marked u.g s.g = u.g)
    (hd : u.g.dbgUndo = s.g.dbgUndo) (hc : u.cycle = s.cycle) : completes lane s t := by
  have e1 : u.g.undo = s.g.undo := by rw [← hg]; rfl
  have e2 : u.g.undoMem = s.g.undoMem := by rw [← hg]; rfl
  have e3 : u.g.status = s.g.status := by rw [← hg]; rfl
  have e4 : u.g.stepOne = s.g.stepOne := by rw [← hg]; rfl
  have e5 : u.g.haltDue = s.g.haltDue := by rw [← hg]; rfl
  have e6 : u.g.shadow = s.g.shadow := by rw [← hg]; rfl
  have e7 : u.g.laneAge = s.g.laneAge := by rw [← hg]; rfl
  have e8 : u.g.scalarAge = s.g.scalarAge := by rw [← hg]; rfl
  unfold completes at h ⊢
  rw [hd, hc, e1, e2, e3, e4, e5, e6, e7, e8] at h
  exact h

/-- What a scalar result leaves: k[d], pc + 4, no wait, and everything else of the state and of the gang but its error
marks and the record of how instructions complete. -/
theorem State.result_next (s : State) (d : Reg) (x : Word) :
    ∃ t, (s.result d x).scalar s = .next t ∧ t.g.k = (if d = 0 then s.g.k else s.g.k.set d.toNat x) ∧
      t.g.pc = s.g.pc + 4 ∧ t.g.wait = none ∧
      t = { s with g := marked { s.g with
              k := t.g.k, kPoison := t.g.kPoison, pc := t.g.pc, wait := t.g.wait, kept := t.g.kept } t.g } ∧
      completes false s t := by
  refine ⟨_, rfl, ?_, ?_, State.retire_wait _ _ _, ?_, ?_⟩
  · rw [State.retire_k]; exact State.setK_k s d x
  · rw [State.retire_pc]
    show (s.setK d x).g.pc + 4 = _
    rw [State.setK_eq]
  · rw [State.retire_eq]
    simp only [State.advance, State.setPc]
    rw [State.setK_eq]
    rfl
  · have e : (s.setK d x).advance = { s with g := { s.g with
        k := (s.setK d x).g.k, kPoison := (s.setK d x).g.kPoison, pc := s.g.pc + 4 } } := by
      simp only [State.advance, State.setPc]; rw [State.setK_eq]
    exact completes_of (State.retire_completes _ _ _ _) (by rw [e]; rfl) (by rw [e]) (by rw [e])

/-! ### Traps (R353, R355) -/

/-- What stopping the streams changes: the grant queue, the latches and what is in flight, the wait and its record. -/
theorem State.stopStreams_eq (s : State) :
    s.stopStreams = { s with cores := s.stopStreams.cores, g := { s.g with
      latches := s.stopStreams.g.latches, pend := s.stopStreams.g.pend, wait := none, kept := s.stopStreams.g.kept } } := by
  rfl

/-- TAKING A TRAP, where nothing keeps it from K (R353, R355). -/
theorem State.takeTrap_entersK (s : State) (lane : Bool) (c : Cause) (info : Word) (hc : c ≠ .sdc)
    (hv : s.g.trapVec ≠ 0) (hl : s.g.level = .u) (hver : ∀ x, s.myCrew = some x → x.version.versioned = false)
    (hh : s.g.dbgHaltTrap = false) (hb : c = .brk → s.g.dbgHaltBrk = false) :
    let u := s.stopStreams.issued lane
    let g := ({ u.g.recordTrap lane c info with
      shadow := s.g.shadow.map fun (x : Shadow) => { x with equal := false } }.enterK).tell .enter
    s.takeTrap lane c info = { u with g := if s.g.stepOne.isSome then g.halt else g } := by
  have h1 : (c == Cause.sdc) = false := by simpa using hc
  have h3 : (s.stopStreams.issued lane).trapFails = false := by
    have e1 : (s.stopStreams.issued lane).g.trapVec = s.g.trapVec := by cases lane <;> rfl
    have e2 : (s.stopStreams.issued lane).g.level = s.g.level := by cases lane <;> rfl
    have e3 : (s.stopStreams.issued lane).myCrew = s.myCrew := by cases lane <;> rfl
    simp only [State.trapFails, e1, e2, e3, hl]
    have hz : (s.g.trapVec == 0) = false := beq_false_of_ne hv
    cases hm : s.myCrew with
    | none => simp only [hz]; rfl
    | some x => simp only [hz, hver x hm]; rfl
  have h4 : (s.stopStreams.issued lane).g.dbgHaltTrap = false := by cases lane <;> exact hh
  have h5 : ((c == Cause.brk) && (s.stopStreams.issued lane).g.dbgHaltBrk) = false := by
    by_cases hcb : c = .brk
    · have : (s.stopStreams.issued lane).g.dbgHaltBrk = false := by cases lane <;> exact hb hcb
      simp [this]
    · simp [hcb]
  have h6 : (s.stopStreams.issued lane).g.shadow = s.g.shadow := by cases lane <;> rfl
  have h7 : (s.stopStreams.issued lane).g.stepOne = s.g.stepOne := by cases lane <;> rfl
  simp only [State.takeTrap, h1, Bool.false_eq_true, if_false, h3, Gang.recordTrap, h4, h5, Bool.or_self, h6, h7]

/-- THE RETURN FROM A TRAP: pc, level and the exchange (R165, R354). -/
theorem Gang.returnFromK_fields (g : Gang) :
    g.returnFromK.pc = g.trapPc &&& ~~~(3#64) ∧ g.returnFromK.level = .u ∧
      g.returnFromK.k = g.k.take 24 ++ g.kAlt ∧ g.returnFromK.kAlt = g.k.drop 24 ∧
      g.returnFromK.trapVec = g.trapVec ∧ g.returnFromK.trapCause = g.trapCause ∧
      g.returnFromK.trapInfo = g.trapInfo ∧ g.returnFromK.regs = g.regs ∧ g.returnFromK.q = g.q ∧
      g.returnFromK.segs = g.segs := by
  unfold Gang.returnFromK Gang.resumeLane
  split
  · exact ⟨rfl, rfl, rfl, rfl, rfl, rfl, rfl, rfl, rfl, rfl⟩
  · split
    · exact ⟨rfl, rfl, rfl, rfl, rfl, rfl, rfl, rfl, rfl, rfl⟩
    · split <;> exact ⟨rfl, rfl, rfl, rfl, rfl, rfl, rfl, rfl, rfl, rfl⟩

end Sys2Proof.Machine
end

