-- ==== Sys2Proof/Laws/Lane.lean ====
section
/-! SUPPORT. What the shared operations of the lane stream do, said once: the frame of R119, a register result and a
predicate result. -/

namespace Sys2Proof.Machine

open Sys2Proof
open Sys2Proof.Safety

/-! ### Lists -/

theorem setNth_length {α : Type} (l : List α) (n : Nat) (f : α → α) : (setNth l n f).length = l.length := by
  unfold setNth; cases l[n]? <;> simp

theorem setNth_get {α : Type} (l : List α) (n m : Nat) (f : α → α) :
    (setNth l n f)[m]? = if m = n then l[m]?.map f else l[m]? := by
  unfold setNth
  by_cases hm : m = n
  · subst hm
    cases h : l[m]? with
    | none => simp [h]
    | some x =>
      obtain ⟨hlt, _⟩ := List.getElem?_eq_some_iff.mp h
      simp [hlt]
  · cases h : l[n]? with
    | none => simp [hm]
    | some x => simp [hm, List.getElem?_set_ne (Ne.symm hm)]

theorem mergeLanes_length (on : Mask) : ∀ (i : Nat) (xs ys : List Half), (mergeLanes on i xs ys).length = xs.length
  | _, [], ys => by cases ys <;> simp [mergeLanes]
  | i, x :: xs, [] => by simp [mergeLanes]
  | i, x :: xs, y :: ys => by simp [mergeLanes, mergeLanes_length on (i + 1) xs ys]

theorem mergeLanes_get (on : Mask) : ∀ (i : Nat) (xs ys : List Half) (j : Nat) (x : Half), xs[j]? = some x →
    (mergeLanes on i xs ys)[j]? = some (if on.getLsbD (i + j) then ys.getD j x else x)
  | _, [], _, _, _, h => by simp at h
  | i, y :: xs, [], j, x, h => by simp [mergeLanes, h]
  | i, y :: xs, z :: zs, 0, x, h => by
    have h : y = x := by simpa using h
    subst h
    simp [mergeLanes]
  | i, y :: xs, z :: zs, j + 1, x, h => by
    have h : xs[j]? = some x := by simpa using h
    simp only [mergeLanes, List.getElem?_cons_succ]
    rw [mergeLanes_get on (i + 1) xs zs j x h]
    simp [Nat.add_assoc, Nat.add_comm 1 j]

/-! ### The frame (R119) -/

/-- A word that nothing stops goes on to its rule. -/
theorem State.lane_pass {s : State} {op : LaneOp} {f : LaneF} (k : Act) (h : s.laneGate op f = .pass) :
    s.lane op f k = k.lane s := by simp [State.lane, h]

/-- A word with a register or latch in flight does not issue. -/
theorem State.lane_stall {s : State} {op : LaneOp} {f : LaneF} (k : Act) (h : s.laneGate op f = .stall) :
    s.lane op f k = .next s := by
  cases hu : s.g.uncompared <;> simp [State.lane, h, Act.lane, hu]

theorem State.sound_pass {s : State} {op : LaneOp} {f : LaneF} (k : State → Act) (h : s.g.badLanes op f = 0) :
    s.sound op f k = k s := by simp [State.sound, h]

/-- The window of a word that passes lies in the resident slots (R96). -/
theorem State.laneGate_window {s : State} {op : LaneOp} {f : LaneF} (h : s.laneGate op f = .pass) :
    s.g.res ≤ s.g.win ∧ s.g.win + s.g.window ≤ s.g.res + 8 * s.g.allot := by
  unfold State.laneGate at h
  by_cases hw : s.g.windowFits = true
  · simpa [Gang.windowFits] using hw
  · have hb : s.g.opndBad op f = true := by
      have : s.g.windowFits = false := by simpa using hw
      simp [Gang.opndBad, this]
    rw [hb] at h
    cases hi : (op.illegal f).isSome with
    | true => simp [hi] at h
    | false =>
      cases hf : laneFeature op f with
      | none => simp [hi, hf] at h
      | some n => cases hh : s.hasFeature n <;> simp [hi, hf, hh] at h

/-- The slot goes on to the next index (R107). -/
theorem State.laneNext_eq (s : State) (op : LaneOp) (f : LaneF) :
    s.laneNext op f = { s with g := { s.g with lane := (s.laneNext op f).g.lane } } := by
  unfold State.laneNext
  split <;> rfl

theorem State.laneNext_lane (s : State) (op : LaneOp) (f : LaneF) :
    (s.laneNext op f).g.lane = { (s.g.putSlotNow { s.g.slotNow with pc := s.g.slotNow.pc + 1 }).lane with
      chainHead := if (laneLatches op f).isEmpty then s.g.slotNow.pc else s.g.lane.chainHead } := by
  unfold State.laneNext Gang.putSlotNow
  by_cases h : (laneLatches op f).isEmpty = true <;> cases hc : s.g.lane.cur <;> simp [h]

/-! ### A register result (R119) -/

theorem laneVals_get (on : Mask) (res : Nat → Nat) (i : Nat) (h : i < 32) :
    (laneVals on res)[i]? = some (if on.getLsbD i then res i else 0) := by
  simp [laneVals, laneList, h]

/-- One register written: the entries of the register stack. -/
theorem Gang.putV_get (g : Gang) (n : Nat) (on : Mask) (vals : List Half) (m : Nat) (row : List Half)
    (h : g.regs[m]? = some row) :
    (g.putV n on vals).regs[m]? = some (if m = g.slotOf n - g.res then mergeLanes on 0 row vals else row) := by
  simp only [Gang.putV, setNth_get, h]
  by_cases hm : m = g.slotOf n - g.res <;> simp [hm]

theorem Gang.putV_length (g : Gang) (n : Nat) (on : Mask) (vals : List Half) :
    (g.putV n on vals).regs.length = g.regs.length := setNth_length _ _ _

/-- The values of a lane, merged: the new value for an on lane, the old one for a lane off. -/
theorem merge_vals (on : Mask) (res : Nat → Nat) (w : Nat → Half) (row : List Half) (i : Nat) (x : Half)
    (h : row[i]? = some x) :
    (mergeLanes on 0 row ((laneVals on res).map w))[i]? = some (if on.getLsbD i then w (res i) else x) := by
  rw [mergeLanes_get on 0 row _ i x h]
  by_cases hi : i < 32
  · by_cases ho : on.getLsbD i = true
    · simp [ho, laneVals_get on res i hi]
    · simp [ho]
  · have ho : on.getLsbD i = false := BitVec.getLsbD_of_ge on i (by omega)
    simp [ho]

/-- Error marks only go. -/
theorem Gang.putV_vPoison (g : Gang) (n : Nat) (on : Mask) (vals : List Half) :
    ∀ p ∈ (g.putV n on vals).vPoison, p ∈ g.vPoison := by
  intro p h
  exact (List.mem_filter.mp h).1

/-- `putDst` changes the registers and their error marks only. -/
theorem Gang.putDst_eq (g : Gang) (op : LaneOp) (f : LaneF) (on : Mask) (vals : List Nat) :
    g.putDst op f on vals =
      { g with regs := (g.putDst op f on vals).regs, vPoison := (g.putDst op f on vals).vPoison } := by
  unfold Gang.putDst
  split
  · rfl
  · cases wideResult op f <;> rfl

theorem Gang.putDst_vPoison (g : Gang) (op : LaneOp) (f : LaneF) (on : Mask) (vals : List Nat) :
    ∀ p ∈ (g.putDst op f on vals).vPoison, p ∈ g.vPoison := by
  unfold Gang.putDst
  split
  · exact fun _ h => h
  · cases wideResult op f <;> simp only []
    · exact fun p h => Gang.putV_vPoison _ _ _ _ p h
    · exact fun p h => Gang.putV_vPoison _ _ _ _ p (Gang.putV_vPoison _ _ _ _ p h)

theorem Gang.putDst_length (g : Gang) (op : LaneOp) (f : LaneF) (on : Mask) (vals : List Nat) :
    (g.putDst op f on vals).regs.length = g.regs.length := by
  unfold Gang.putDst
  split
  · rfl
  · cases wideResult op f <;> simp only []
    · exact Gang.putV_length _ _ _ _
    · exact (Gang.putV_length _ _ _ _).trans (Gang.putV_length _ _ _ _)

/-- The entries of the register stack after DST (and, for a 64-bit result, the register above it) is written. -/
theorem Gang.putDst_get (g : Gang) (op : LaneOp) (f : LaneF) (on : Mask) (res : Nat → Nat) (hr : g.res ≤ g.win)
    (n : Nat) (row : List Half) (h : g.regs[n]? = some row) :
    ∃ row', (g.putDst op f on (laneVals on res)).regs[n]? = some row' ∧ row'.length = row.length ∧
      ∀ (i : Nat) (x : Half), row[i]? = some x → row'[i]? = some
        (if f.nwb = true ∨ on.getLsbD i = false then x
         else if wideResult op f = true ∧ g.res + n = g.slotOf (f.dst.toNat + 1) then BitVec.ofNat 32 (res i / 2 ^ 32)
         else if g.res + n = g.slotOf f.dst.toNat then BitVec.ofNat 32 (res i)
         else x) := by
  have e0 : ∀ d, (n = g.slotOf d - g.res) = (g.res + n = g.slotOf d) := by
    intro d
    simp only [Gang.slotOf, eq_iff_iff]
    omega
  by_cases hn : f.nwb = true
  · refine ⟨row, ?_, rfl, ?_⟩
    · simp [Gang.putDst, hn, h]
    · intro i x hx
      simp [hn, hx]
  · have hn' : f.nwb = false := by simpa using hn
    have h1 := Gang.putV_get g f.dst.toNat on ((laneVals on res).map fun x => BitVec.ofNat 32 x) n row h
    cases hw : wideResult op f with
    | false =>
      refine ⟨if n = g.slotOf f.dst.toNat - g.res then
          mergeLanes on 0 row ((laneVals on res).map fun x => BitVec.ofNat 32 x) else row, ?_, ?_, ?_⟩
      · simp only [Gang.putDst, hn', hw]
        exact h1
      · split
        · exact mergeLanes_length _ _ _ _
        · rfl
      · intro i x hx
        by_cases hs : g.res + n = g.slotOf f.dst.toNat
        · rw [if_pos ((e0 _).mpr hs), merge_vals on res _ row i x hx]
          by_cases ho : on.getLsbD i = true <;> simp [ho, hn', hs]
        · rw [if_neg (fun c => hs ((e0 _).mp c)), hx]
          simp [hs]
    | true =>
      have h2 := Gang.putV_get (g.putV f.dst.toNat on ((laneVals on res).map fun x => BitVec.ofNat 32 x))
        (f.dst.toNat + 1) on ((laneVals on res).map fun x => BitVec.ofNat 32 (x / 2 ^ 32)) n _ h1
      refine ⟨_, (by simp only [Gang.putDst, hn', hw]; exact h2), ?_, ?_⟩
      · split
        · rw [mergeLanes_length]
          split
          · exact mergeLanes_length _ _ _ _
          · rfl
        · split
          · exact mergeLanes_length _ _ _ _
          · rfl
      · intro i x hx
        have s1 : (g.putV f.dst.toNat on ((laneVals on res).map fun x => BitVec.ofNat 32 x)).slotOf (f.dst.toNat + 1) =
            g.slotOf (f.dst.toNat + 1) := rfl
        have s2 : (g.putV f.dst.toNat on ((laneVals on res).map fun x => BitVec.ofNat 32 x)).res = g.res := rfl
        rw [s1, s2]
        by_cases hs : g.res + n = g.slotOf (f.dst.toNat + 1)
        · have hs' : g.res + n ≠ g.slotOf f.dst.toNat := by
            simp only [Gang.slotOf] at hs ⊢; omega
          rw [if_pos ((e0 _).mpr hs), if_neg (fun c => hs' ((e0 _).mp c)), merge_vals on res _ row i x hx]
          by_cases ho : on.getLsbD i = true <;> simp [ho, hn', hs]
        · rw [if_neg (fun c => hs ((e0 _).mp c))]
          by_cases hs' : g.res + n = g.slotOf f.dst.toNat
          · rw [if_pos ((e0 _).mpr hs'), merge_vals on res _ row i x hx]
            have hne : g.slotOf f.dst.toNat ≠ g.slotOf (f.dst.toNat + 1) := by simp [Gang.slotOf]
            by_cases ho : on.getLsbD i = true <;> simp [ho, hn', hs', hne]
          · rw [if_neg (fun c => hs' ((e0 _).mp c)), hx]
            simp [hs, hs']

/-- What a register result leaves (R119, R106, R107): DST for the on lanes, the latch for every lane, the slot at its next
index, and everything else but error marks, the undo log and the single step as it was. -/
theorem State.laneResult_next (s : State) (op : LaneOp) (f : LaneF) (res : Nat → Nat) (hr : s.g.res ≤ s.g.win) :
    ∃ t, (s.laneResult op f res).lane s = .next t ∧ t.g.regs.length = s.g.regs.length ∧
      (∀ (n : Nat) (row : List Half), s.g.regs[n]? = some row → ∃ row', t.g.regs[n]? = some row' ∧
        row'.length = row.length ∧ ∀ (i : Nat) (x : Half), row[i]? = some x → row'[i]? = some
          (if f.nwb = true ∨ (s.g.onMask f).getLsbD i = false then x
           else if wideResult op f = true ∧ s.g.res + n = s.g.slotOf (f.dst.toNat + 1) then
             BitVec.ofNat 32 (res i / 2 ^ 32)
           else if s.g.res + n = s.g.slotOf f.dst.toNat then BitVec.ofNat 32 (res i)
           else x)) ∧
      t.g.latches = s.g.latches.set f.lt.toNat
        { valid := true, vals := (laneVals (s.g.onMask f) res).map fun x => BitVec.ofNat 32 x } ∧
      t.gangs = (s.takeLatch f.lt.toNat).gangs ∧ t.g.pend.map Pend.id = s.g.pend.map Pend.id ∧
      (∀ p ∈ t.g.vPoison, p ∈ s.g.vPoison) ∧
      t.g.lane = { (s.g.putSlotNow { s.g.slotNow with pc := s.g.slotNow.pc + 1 }).lane with
        chainHead := if (laneLatches op f).isEmpty then s.g.slotNow.pc else s.g.lane.chainHead } ∧
      t = { s with gangs := t.gangs, g := marked { s.g with
              regs := t.g.regs, vPoison := t.g.vPoison, latches := t.g.latches, pend := t.g.pend,
              lane := t.g.lane } t.g } ∧ completes true s t := by
  unfold State.laneResult
  generalize hg : s.g.putDst op f (s.g.onMask f) (laneVals (s.g.onMask f) res) = g
  generalize hp : g.putLatch f.lt.toNat ((laneVals (s.g.onMask f) res).map fun x => BitVec.ofNat 32 x) = gl
  have eg : g = { s.g with regs := g.regs, vPoison := g.vPoison } := by
    rw [← hg]; exact Gang.putDst_eq _ _ _ _ _
  have el : gl = { s.g with regs := g.regs, vPoison := g.vPoison, latches := gl.latches, pend := gl.pend } := by
    rw [← hp]; unfold Gang.putLatch; rw [eg]
  generalize hu : (State.laneNext (State.takeLatch { s with g := gl } f.lt.toNat) op f) = u
  have eu : u = { s with gangs := u.gangs, g := { s.g with
      regs := g.regs, vPoison := g.vPoison, latches := gl.latches, pend := gl.pend, lane := u.g.lane } } := by
    rw [← hu, State.laneNext_eq]
    simp only [State.takeLatch]
    rw [el]
  refine ⟨u.retire s true .write, by rw [← hu, ← hp, ← hg]; rfl, ?_, ?_, ?_, ?_, ?_, ?_, ?_, ?_, ?_⟩
  · rw [State.retire_regs, eu, ← hg]; exact Gang.putDst_length _ _ _ _ _
  · intro n row h
    rw [State.retire_regs, eu, ← hg]
    exact Gang.putDst_get s.g op f (s.g.onMask f) res hr n row h
  · rw [State.retire_latches, eu, ← hp, eg]; rfl
  · rw [State.retire_eq, ← hu, State.laneNext_eq]
    simp only [State.takeLatch]
    rw [el]
  · rw [State.retire_pend, eu, ← hp]
    simp only [Gang.putLatch, List.map_map]
    rw [eg]
    apply List.map_congr_left
    intro p _
    simp only [Function.comp]
    cases hl : p.latch with
    | none => rfl
    | some x => simp only []; split <;> rfl
  · rw [State.retire_vPoison, eu, ← hg]; exact Gang.putDst_vPoison _ _ _ _ _
  · rw [State.retire_laneStream, ← hu, State.laneNext_lane]
    simp only [State.takeLatch]
    rw [el]
    rfl
  · rw [State.retire_lane_eq]
    generalize (u.retire s true .write).g = g'
    rw [eu]
    rfl
  · exact completes_of (State.retire_completes u s true .write) (by rw [eu]; rfl) (by rw [eu]) (by rw [eu])

/-- A member computed lane by lane, where nothing stops the word. -/
theorem State.laneAlu_pass {s : State} {op : LaneOp} {f : LaneF} (res : State → Nat → Nat)
    (h : s.laneGate op f = .pass) (hb : s.g.badLanes op f = 0) :
    s.laneAlu op f res = (s.laneResult op f (res s)).lane s := by
  unfold State.laneAlu
  rw [State.lane_pass _ h, State.sound_pass _ hb]

theorem State.laneTest_pass {s : State} {op : LaneOp} {f : LaneF} (bit : State → Nat → Bool)
    (h : s.laneGate op f = .pass) (hb : s.g.badLanes op f = 0) :
    s.laneTest op f bit = (s.lanePred op f (bit s)).lane s := by
  unfold State.laneTest
  rw [State.lane_pass _ h, State.sound_pass _ hb]

/-- The mask of the lanes that satisfy a test holds each of them and no other. -/
theorem maskOf_get (p : Nat → Bool) (i : Nat) (h : i < 32) : (maskOf p).getLsbD i = p i := by
  have key : ∀ (n : Nat) (i : Nat), i < n →
      (sumNat ((List.range n).map fun i => if p i then 2 ^ i else 0)).testBit i = p i ∧
        sumNat ((List.range n).map fun i => if p i then 2 ^ i else 0) < 2 ^ n := by
    intro n
    have sum_app : ∀ (l : List Nat) (x : Nat), sumNat (l ++ [x]) = sumNat l + x := by
      intro l x
      simp [sumNat, List.foldl_append]
    have lt : ∀ n, sumNat ((List.range n).map fun i => if p i then 2 ^ i else 0) < 2 ^ n := by
      intro n
      induction n with
      | zero => simp [sumNat]
      | succ n ih =>
        rw [List.range_succ, List.map_append, List.map_singleton, sum_app, Nat.pow_succ]
        split <;> omega
    induction n with
    | zero => intro i hi; omega
    | succ n ih =>
      intro i hi
      refine ⟨?_, lt (n + 1)⟩
      rw [List.range_succ, List.map_append, List.map_singleton, sum_app]
      have hn := lt n
      by_cases hp : p n = true
      · rw [if_pos hp, Nat.add_comm]
        by_cases hi' : i = n
        · subst hi'
          rw [Nat.testBit_two_pow_add_eq, Nat.testBit_lt_two_pow hn, hp]; rfl
        · rw [Nat.testBit_two_pow_add_gt (by omega)]
          exact (ih i (by omega)).1
      · rw [if_neg hp, Nat.add_zero]
        by_cases hi' : i = n
        · subst hi'
          rw [Nat.testBit_lt_two_pow hn]; simpa using hp
        · exact (ih i (by omega)).1
  have := key 32 i h
  unfold maskOf laneList
  rw [BitVec.getLsbD_ofNat, this.1]
  simp [h]

/-- `setQ` changes the predicates only. -/
theorem Gang.setQ_eq (g : Gang) (n : Nat) (on v : Mask) :
    g.setQ n on v = { g with q := if n = 0 then g.q else g.q.set n ((g.q.getD n 0 &&& ~~~on) ||| (v &&& on)) } := by
  unfold Gang.setQ
  by_cases h : n = 0 <;> simp [h]

/-- What a predicate result leaves (R115, R119): q[DST] for the on lanes, nothing for q0; the slot at its next index; all
else but the undo log and the single step as it was. -/
theorem State.lanePred_next (s : State) (op : LaneOp) (f : LaneF) (bit : Nat → Bool) :
    ∃ t, (s.lanePred op f bit).lane s = .next t ∧
      t.g.q = (if f.dst.toNat = 0 then s.g.q else s.g.q.set f.dst.toNat
        ((s.g.q.getD f.dst.toNat 0 &&& ~~~(s.g.onMask f)) ||| (maskOf bit &&& s.g.onMask f))) ∧
      t.g.lane = { (s.g.putSlotNow { s.g.slotNow with pc := s.g.slotNow.pc + 1 }).lane with
        chainHead := if (laneLatches op f).isEmpty then s.g.slotNow.pc else s.g.lane.chainHead } ∧
      t = { s with g := marked { s.g with q := t.g.q, lane := t.g.lane } t.g } ∧ completes true s t := by
  unfold State.lanePred
  rw [Gang.setQ_eq]
  generalize hq : (if f.dst.toNat = 0 then s.g.q else s.g.q.set f.dst.toNat
    ((s.g.q.getD f.dst.toNat 0 &&& ~~~(s.g.onMask f)) ||| (maskOf bit &&& s.g.onMask f))) = q
  generalize hu : State.laneNext { s with g := { s.g with q := q } } op f = u
  have eu : u = { s with g := { s.g with q := q, lane := u.g.lane } } := by
    rw [← hu, State.laneNext_eq]
  refine ⟨u.retire s true .write, rfl, ?_, ?_, ?_, ?_⟩
  · rw [State.retire_q, eu]
  · rw [State.retire_laneStream, ← hu, State.laneNext_lane]; rfl
  · rw [State.retire_lane_eq]
    generalize (u.retire s true .write).g = g'
    rw [eu]
    rfl
  · exact completes_of (State.retire_completes u s true .write) (by rw [eu]; rfl) (by rw [eu]) (by rw [eu])

end Sys2Proof.Machine
end

