-- ==== Sys2Proof/Laws/Memory.lean ====
section
/-! SUPPORT. Memory: every operation on it keeps the canonical form, and a byte reads back as it was last written. -/

namespace Sys2Proof.Machine

open Sys2Proof

/-- A form that holds from b on holds from every lower address on. -/
theorem Memory.wfFrom_mono {a b : Nat} (h : a ≤ b) : ∀ {m : Memory}, Memory.wfFrom b m = true → Memory.wfFrom a m = true
  | [], _ => rfl
  | (k, v) :: rest, w => by
    simp only [Memory.wfFrom, Bool.and_eq_true, decide_eq_true_eq] at w ⊢
    exact ⟨⟨by omega, w.1.2⟩, w.2⟩

/-- An address below every listed one reads as an unlisted one does. -/
theorem Memory.read_below : ∀ {m : Memory} {a b : Nat}, Memory.wfFrom b m = true → a < b → m.read a = 0
  | [], _, _, _, _ => rfl
  | (k, v) :: rest, a, b, w, h => by
    simp only [Memory.wfFrom, Bool.and_eq_true, decide_eq_true_eq] at w
    have hk : (k == a) = false := by simp; omega
    simp only [Memory.read, hk]
    exact Memory.read_below w.2 (by omega)

theorem Memory.wfFrom_write : ∀ {m : Memory} {c a : Nat} {b : Byte}, Memory.wfFrom c m = true → c ≤ a →
    Memory.wfFrom c (m.write a b) = true
  | [], c, a, b, _, h => by
    unfold Memory.write
    split
    · rfl
    · simp_all [Memory.wfFrom]
  | (k, v) :: rest, c, a, b, w, h => by
    have w' := w
    simp only [Memory.wfFrom, Bool.and_eq_true, decide_eq_true_eq] at w
    unfold Memory.write
    split
    · simp only [Memory.wfFrom, Bool.and_eq_true, decide_eq_true_eq]
      exact ⟨w.1, Memory.wfFrom_write w.2 (by omega)⟩
    · split
      · have hk : k = a := by simp_all
        subst hk
        split
        · exact Memory.wfFrom_mono (by omega) w.2
        · simp_all [Memory.wfFrom]
      · split
        · exact w'
        · simp_all [Memory.wfFrom]
          omega

/-- A store keeps the canonical form. -/
theorem Memory.wf_write {m : Memory} (a : Nat) (b : Byte) (h : m.wf = true) : (m.write a b).wf = true :=
  Memory.wfFrom_write h (Nat.zero_le a)

theorem Memory.wf_nil : Memory.wf [] = true := rfl

theorem Memory.read_write_from : ∀ {m : Memory} {c a : Nat} {b : Byte} (x : Nat), Memory.wfFrom c m = true → c ≤ a →
    (m.write a b).read x = if x = a then b else m.read x
  | [], c, a, b, x, _, _ => by
    unfold Memory.write
    by_cases hb : b = 0 <;> by_cases hx : x = a <;> simp_all [Memory.read]
    simp [Ne.symm hx]
  | (k, v) :: rest, c, a, b, x, w, h => by
    have w' := w
    simp only [Memory.wfFrom, Bool.and_eq_true, decide_eq_true_eq] at w
    unfold Memory.write
    split
    · rename_i hlt
      simp only [Memory.read]
      rw [Memory.read_write_from x w.2 (by omega)]
      by_cases hx : x = a
      · subst hx
        have : (k == x) = false := by simp; omega
        simp [this]
      · simp [hx]
    · split
      · have hk : k = a := by simp_all
        subst hk
        split
        · rename_i hb
          have hb : b = 0 := by simpa using hb
          subst hb
          by_cases hx : x = k
          · subst hx
            simpa using Memory.read_below w.2 (by omega)
          · simp [Memory.read, hx, Ne.symm hx]
        · by_cases hx : x = k
          · simp [Memory.read, hx]
          · simp [Memory.read, hx, Ne.symm hx]
      · rename_i hne
        have hne : k ≠ a := by simpa using hne
        split
        · rename_i hb
          have hb : b = 0 := by simpa using hb
          subst hb
          by_cases hx : x = a
          · subst hx
            have : Memory.wfFrom (x + 1) ((k, v) :: rest) = true := by
              simp only [Memory.wfFrom, Bool.and_eq_true, decide_eq_true_eq]
              exact ⟨⟨by omega, w.1.2⟩, w.2⟩
            simpa using Memory.read_below this (by omega)
          · simp [hx]
        · by_cases hx : x = a
          · simp [Memory.read, hx]
          · simp [Memory.read, hx, Ne.symm hx]

/-- The byte stored reads back, and every other address reads as before. -/
theorem Memory.read_write {m : Memory} (a : Nat) (b : Byte) (x : Nat) (h : m.wf = true) :
    (m.write a b).read x = if x = a then b else m.read x :=
  Memory.read_write_from x h (Nat.zero_le a)

/-- Stores of bytes from an address on keep the canonical form. -/
theorem Memory.wf_writeBytes : ∀ (bs : List Byte) {m : Memory} (a : Nat), m.wf = true → (m.writeBytes a bs).wf = true
  | [], _, _, h => h
  | b :: rest, m, a, h => by
    unfold Memory.writeBytes
    exact Memory.wf_writeBytes rest (a + 1) (Memory.wf_write a b h)

/-- What bytes stored from an address on read as, and what every other address does. -/
theorem Memory.read_writeBytes : ∀ (bs : List Byte) {m : Memory} (a x : Nat), m.wf = true →
    (m.writeBytes a bs).read x = if a ≤ x ∧ x < a + bs.length then bs.getD (x - a) 0 else m.read x
  | [], _, a, x, _ => by
    have : ¬(a ≤ x ∧ x < a + ([] : List Byte).length) := by simp
    rw [if_neg this]
    rfl
  | b :: rest, m, a, x, h => by
    unfold Memory.writeBytes
    rw [Memory.read_writeBytes rest (a + 1) x (Memory.wf_write a b h), Memory.read_write a b x h]
    by_cases h1 : x = a
    · subst h1
      simp
    · by_cases h2 : a + 1 ≤ x ∧ x < a + 1 + rest.length
      · have h3 : a ≤ x ∧ x < a + (b :: rest).length := by simp only [List.length_cons]; omega
        rw [if_pos h2, if_pos h3]
        have : x - a = (x - (a + 1)) + 1 := by omega
        rw [this]
        simp
      · have h3 : ¬(a ≤ x ∧ x < a + (b :: rest).length) := by simp only [List.length_cons]; omega
        rw [if_neg h2, if_neg h3, if_neg h1]

/-- Stores of a list of (address, byte) pairs, in order, keep the canonical form. -/
theorem Memory.wf_stores : ∀ (cells : List (Nat × Byte)) {m : Memory}, m.wf = true →
    (cells.foldl (fun m c => m.write c.1 c.2) m).wf = true
  | [], _, h => h
  | c :: rest, _, h => Memory.wf_stores rest (Memory.wf_write c.1 c.2 h)

/-- What such a list of stores, in order, leaves at an address. -/
theorem Memory.read_stores : ∀ (cells : List (Nat × Byte)) {m : Memory} (x : Nat), m.wf = true →
    (cells.foldl (fun m c => m.write c.1 c.2) m).read x =
      ((findBy (fun c => c.1 == x) cells.reverse).map (·.2)).getD (m.read x)
  | [], _, _, _ => rfl
  | c :: rest, m, x, h => by
    simp only [List.foldl_cons, List.reverse_cons]
    rw [Memory.read_stores rest x (Memory.wf_write c.1 c.2 h), Memory.read_write c.1 c.2 x h]
    have key : ∀ l : List (Nat × Byte), findBy (fun c => c.1 == x) (l ++ [c]) =
        (findBy (fun c => c.1 == x) l).or (if c.1 == x then some c else none) := by
      intro l
      induction l with
      | nil => simp [findBy]
      | cons y ys ih => by_cases hy : y.1 = x <;> simp [findBy, hy, ih]
    rw [key]
    cases findBy (fun c => c.1 == x) rest.reverse with
    | some y => simp
    | none =>
      by_cases hx : c.1 = x
      · simp [hx]
      · simp [hx, Ne.symm hx]

/-! ### Bank pages -/

theorem Page.wf_setByte {p : Page} (y : Nat) (b : Byte) (h : p.cells.wf = true) : (p.setByte y b).cells.wf = true :=
  Memory.wf_write y b h

theorem Page.wf_setCell {p : Page} (r c : Nat) (v : Bool) (h : p.cells.wf = true) : (p.setCell r c v).cells.wf = true :=
  Page.wf_setByte _ _ h

theorem Page.wf_putRow {p : Page} (r : Nat) (on x : BitVec 256) (h : p.cells.wf = true) :
    (p.putRow r on x).cells.wf = true := by
  simp only [Page.putRow]
  exact Memory.wf_writeBytes _ _ h

/-- A page is empty when its crew starts. -/
theorem Page.wf_fresh (site : Nat) (comp : Bool) (backing : Nat) : (Page.fresh site comp backing).cells.wf = true := rfl

/-! ### The memories of the package -/

/-- The memory of the package after reset is in canonical form. -/
theorem State.reset_wf : Safety.memoriesWf State.reset = true := by decide

/-- A state with the same DRAM, crews and instances has the same memories. -/
theorem memoriesWf_congr {s t : State} (h1 : t.dram = s.dram) (h2 : t.crews = s.crews) (h3 : t.inst = s.inst)
    (h4 : t.insts = s.insts) : Safety.memoriesWf t = Safety.memoriesWf s := by
  simp only [Safety.memoriesWf, h1, h2, h3, h4]

/-- DRAM replaced by one in canonical form. -/
theorem memoriesWf_dram {s : State} {m : Memory} (h : Safety.memoriesWf s = true) (hm : m.wf = true) :
    Safety.memoriesWf { s with dram := m } = true := by
  simp only [Safety.memoriesWf, Bool.and_eq_true] at h ⊢
  exact ⟨⟨⟨hm, h.1.1.2⟩, h.1.2⟩, h.2⟩

end Sys2Proof.Machine
end

