-- ==== Sys2Proof/Tests/Slice0.lean ====
section
/-! SUPPORT. Tests: terms that well-formedness refuses, words of the spec's encodings, a state for each hypothesis of the
statements (one theorem per statement, `witness_<Name>`), and single steps whose expected values are worked out from
the rules. -/

namespace Sys2Proof.Tests

-- One proof at a time: a file of many kernel evaluations would otherwise hold a thread for each.
set_option Elab.async false

open Sys2Proof
open Sys2Proof.Machine
open Sys2Proof.Safety

/-! ### Well-formedness: an ill-formed term for each check -/

def z : LaneF := LaneF.zero

theorem test_illTyp : Instr.illegal (.iadd z) = some .typ ∧ Instr.illegal (.iadd { z with ty := .f32 }) = some .typ ∧
    Instr.illegal (.join) = none ∧ LaneOp.illegal .join { z with ty := .reserved } = some .typ ∧
    LaneOp.illegal .bra { z with ty := .s32 } = some .typ := by decide

theorem test_illNwb : Instr.illegal (.mov { z with nwb := true, dst := 1 }) = some .reserved ∧
    Instr.illegal (.mov { z with nwb := true }) = none := by decide

theorem test_illLatch : Instr.illegal (.smm8 { z with ty := .f32, lt := 1 }) = some .reserved ∧
    Instr.illegal (.icmp { z with nwb := true }) = some .reserved ∧
    Instr.illegal (.st { z with lt := 2, imm := 0x10000000 }) = some .reserved := by decide

theorem test_illDst : Instr.illegal (.st { z with dst := 1 }) = some .reserved ∧ Instr.illegal (.st z) = none := by decide

theorem test_illSources : Instr.illegal (.lstat { z with sa := 1 }) = some .reserved ∧
    Instr.illegal (.mov { z with sb := 1 }) = some .reserved ∧
    Instr.illegal (.lAnd { z with sc := 1 }) = some .reserved ∧
    Instr.illegal (.movi { z with sa := 1 }) = some .reserved ∧
    Instr.illegal (.movi { z with ty := .n64, sa := 1 }) = none := by decide

theorem test_illJoin : LaneOp.illegal .join { z with gp := 1 } = some .reserved ∧
    LaneOp.illegal .lend { z with gn := true } = some .reserved := by decide

theorem test_illMod : Instr.illegal (.lAnd { z with md := 1 }) = some .reserved ∧
    Instr.illegal (.redux { z with ty := .s32, md := 0b0010000#7 }) = some .reserved ∧
    Instr.illegal (.redux { z with ty := .f32, md := 0b0010000#7 }) = none := by decide

theorem test_illImm : Instr.illegal (.lAnd { z with imm := 1 }) = some .reserved ∧
    Instr.illegal (.lAnd { z with sa := 0x44, imm := 1 }) = none ∧
    Instr.illegal (.lop3 { z with imm := 0x100 }) = some .reserved ∧
    Instr.illegal (.bra { z with imm := 0x1000000 }) = some .reserved := by decide

theorem test_illCode : Instr.illegal (.ld { z with md := 5 }) = some .code ∧
    Instr.illegal (.xmatch { z with md := 3 }) = some .code ∧
    Instr.illegal (.getsr { z with imm := 0x0FF }) = some .code ∧
    Instr.illegal (.bra { z with md := 3 }) = some .code ∧
    Instr.illegal (.cpr { z with md := 5 }) = some .code ∧
    Instr.illegal (.icmp { z with ty := .s32, md := 6 }) = some .code := by decide

theorem test_illTypeOfMode : Instr.illegal (.redux { z with md := 3, ty := .f32 }) = some .typ ∧
    Instr.illegal (.cpr { z with md := 1 }) = some .typ ∧
    Instr.illegal (.cpr { z with md := 1, ty := .s64 }) = none := by decide

theorem test_illScalarFields : Instr.illegal (.kins 1 2 63 1) = some .code ∧ Instr.illegal (.kins 1 2 63 0) = none ∧
    Instr.illegal (.kld 1 2 0 7 0) = some .code ∧ Instr.illegal (.kbr 6 1 0) = some .code ∧
    Instr.illegal (.kcall 8 0) = some .code ∧ Instr.illegal (.kret 8) = some .code ∧
    Instr.illegal (.csrr 1 0x00C) = some .code ∧ Instr.illegal (.csrw 1 0x020) = some .code := by decide

theorem test_illFences : Instr.illegal (.fence 5 0) = some .code ∧ Instr.illegal (.fenceAcq 5 0) = some .code ∧
    Instr.illegal (.fenceRel 5 0) = some .code ∧ Instr.illegal (.fenceSc 2 0) = some .code ∧
    Instr.illegal (.fencex 0 8 0) = some .code ∧ Instr.illegal (.fencex 0 0 8) = some .code ∧
    Instr.illegal (.pwait 2 1) = some .code ∧ Instr.illegal (.pwait 8 1) = some .code ∧
    Instr.illegal (.srec 4 1) = some .code := by decide

theorem test_illStackFields : Instr.illegal (.sld 1 2 7 false 0) = some .code ∧
    Instr.illegal (.sbeq 1 2 4) = some .code ∧ Instr.illegal (.sbne 1 2 4) = some .code ∧
    Instr.illegal (.sblt 1 2 4) = some .code ∧ Instr.illegal (.sbge 1 2 4) = some .code ∧
    Instr.illegal (.sjal 1 4) = some .code := by decide

theorem test_illStackVectors : Instr.illegal (.vadd 1 2 3 false 5 false) = some .code ∧
    Instr.illegal (.vsub 1 2 3 true 1 false) = some .code ∧ Instr.illegal (.vmul 1 2 3 true 0 true) = some .code ∧
    Instr.illegal (.vfma 1 2 3 5 false) = some .code ∧ Instr.illegal (.vmin 1 2 3 true true) = some .code ∧
    Instr.illegal (.vmax 1 2 3 true true) = some .code ∧ Instr.illegal (.vcvt 1 2 10 0 false) = some .code ∧
    Instr.illegal (.vcvt 1 2 2 1 false) = some .code ∧ Instr.illegal (.scsrr 1 6) = some .code ∧
    Instr.illegal (.scsrw 0x010 1) = some .code := by decide

/-! ### Decoding: words written out from the spec's encodings -/

/-- The worked words of the scalar chapters, bits from R110 and the members' tables. -/
theorem test_decodeScalarWords :
    decodeScalar 0x04642800 = .ok (.kadd 3 4 5) ∧ decodeScalar 0x0864FFF8 = .ok (.kaddi 3 4 0xFFF8) ∧
    decodeScalar 0x31A903F0 = .ok (.kins 13 9 15 48) ∧ decodeScalar 0x34642810 = .ok (.kld 3 4 0 5 0x010) ∧
    decodeScalar 0x358B8000 = .ok (.kld 12 11 2 0 0) ∧ decodeScalar 0x3C240006 = .ok (.kbr 1 4 6) ∧
    decodeScalar 0x58000000 = .ok .knop ∧ decodeScalar 0x58A00801 = .ok (.csrr 5 0x020) := by decide

/-- The worked words of the fence, barrier, bank, matrix and task chapters. -/
theorem test_decodeUnitWords :
    decodeScalar 0x5C600002 = .ok (.fenceRel 3 0) ∧ decodeScalar 0x5C610002 = .ok (.fenceRel 3 1) ∧
    decodeScalar 0x5C430004 = .ok (.fencex 2 3 0) ∧ decodeScalar 0x68640003 = .ok (.barrw 3 4) ∧
    decodeScalar 0x68042802 = .ok (.barw 4 5) ∧ decodeScalar 0x68043004 = .ok (.barx 4 6) ∧
    decodeScalar 0x70040800 = .ok (.bmodeComp 4) ∧ decodeScalar 0x74050000 = .ok (.bvAdd 5) ∧
    decodeScalar 0x80042800 = .ok (.mtx 4 5) ∧ decodeScalar 0x80050001 = .ok (.mclr 5) ∧
    decodeScalar 0x80043002 = .ok (.mdrain 4 6) ∧ decodeScalar 0x84E80001 = .ok (.bdsub 7 8) ∧
    decodeScalar 0x84A60000 = .ok (.klaunch 5 6) := by decide

/-- `?q1 bra 7, join 9` and its `.any` form (R193), `?q2 iadd.s32 v3, v4, by1->by0` (R113), lend, and
`cpr.row.b32 v10, 0x01C1_0002` (R295), byte by byte as the spec gives them. -/
theorem test_decodeLaneWords :
    decode .lane [0x07, 0, 0, 0, 0x80, 0x04, 0, 0, 0, 0x08, 0, 0x10] = .ok (.bra { z with gp := 1, sc := 9, imm := 7 }) ∧
    decode .lane [0x07, 0, 0, 0, 0x81, 0x04, 0, 0, 0, 0x08, 0, 0x10] =
      .ok (.bra { z with gp := 1, sc := 9, md := 1, imm := 7 }) ∧
    decode .lane [0, 0, 0, 0, 0, 0x80, 0x20, 0x82, 0x01, 0x50, 0, 0x01] =
      .ok (.iadd { z with ty := .s32, gp := 2, dst := 3, sa := 4, sb := 0x41 }) ∧
    decode .lane [0, 0, 0, 0, 0, 0, 0, 0, 0, 0, 0x08, 0x10] = .ok .lend ∧
    decode .lane [0x02, 0, 0xC1, 0x01, 0, 0, 0, 0x22, 0x05, 0, 0, 0x11] =
      .ok (.cpr { z with dst := 10, sa := 0x44, imm := 0x01C10002 }) := by decide

/-- A word of format S-R (R110): OPC, kd, ka, kb, FN. -/
def sr (opc : BitVec 6) (kd ka kb : BitVec 5) (fn : BitVec 11) : BitVec 32 := opc ++ kd ++ ka ++ kb ++ fn

/-- A word of format S-I (R110): OPC, kd, ka, imm16. -/
def si (opc : BitVec 6) (kd ka : BitVec 5) (imm : BitVec 16) : BitVec 32 := opc ++ kd ++ ka ++ imm

/-- One word of each scalar major, its OPC, FN and fields from R111. -/
theorem test_decodeScalarMajors :
    decodeScalar (sr 0x01 1 2 3 20) = .ok (.ksltn 1 2 3) ∧ decodeScalar (sr 0x01 1 2 0 23) = .ok (.kpopc 1 2) ∧
    decodeScalar (sr 0x01 1 2 0 24) = .error .unassigned ∧ decodeScalar (si 0x06 1 2 63) = .ok (.kshli 1 2 63) ∧
    decodeScalar (si 0x06 1 2 64) = .error .reserved ∧ decodeScalar (si 0x0A 1 2 0xFFFF) = .ok (.ksltni 1 2 0xFFFF) ∧
    decodeScalar (si 0x0B 1 0 7) = .ok (.klui 1 7) ∧ decodeScalar (sr 0x0E 1 2 (0b10011) 0x7FF) = .ok (.kst 1 2 2 3 0x7FF) ∧
    decodeScalar (0x10#6 ++ 0x3FFFFFF#26) = .ok (.kjal 0x3FFFFFF) ∧ decodeScalar (si 0x11 1 2 4) = .ok (.kjalr 1 2 4) ∧
    decodeScalar (si 0x14 0 2 4) = .ok (.lbk 2 4) ∧ decodeScalar (sr 0x15 1 2 0 1) = .ok (.lget 1 2) ∧
    decodeScalar 0 = .error .unassigned ∧ decodeScalar (sr 0x23 0 0 0 0) = .error .unassigned := by decide

theorem test_decodeScalarUnits :
    decodeScalar (sr 0x16 0 7 0 3) = .ok (.ktrap 7) ∧ decodeScalar (sr 0x16 0 0 0 4) = .ok .keret ∧
    decodeScalar (sr 0x16 0 0 0 5) = .ok .kend ∧ decodeScalar (sr 0x16 0 7 0 6) = .ok (.sgld 7) ∧
    decodeScalar (sr 0x16 0 7 8 8) = .ok (.ktlbi 7 8) ∧ decodeScalar (sr 0x18 3 4 0 0) = .ok (.pwait 3 4) ∧
    decodeScalar (sr 0x19 5 0 0 0) = .ok (.cseal 5) ∧ decodeScalar (sr 0x19 3 5 0 1) = .ok (.srec 3 5) ∧
    decodeScalar (sr 0x1A 0 1 2 0) = .ok (.barinit 1 2) ∧ decodeScalar (sr 0x1B 1 2 0 0) = .ok (.rgrow 1 2) ∧
    decodeScalar (sr 0x1E 0 1 2 7) = .ok (.bvShr 1 2) ∧ decodeScalar (sr 0x1F 0 1 0 5) = .ok (.bvPst 1) ∧
    decodeScalar (sr 0x22 1 0 0 1) = .ok (.vcom 1) := by decide

/-- A lane word (R113), field by field. -/
def lw (opc : BitVec 8) (fn : BitVec 6) (ty : BitVec 4) (gp : BitVec 3) (gn nwb : BitVec 1) (lt : BitVec 2)
    (dst sa sb sc : BitVec 8) (md : BitVec 7) (imm : BitVec 32) : BitVec 96 :=
  opc ++ fn ++ ty ++ gp ++ gn ++ nwb ++ lt ++ dst ++ sa ++ sb ++ sc ++ md ++ imm

/-- One word of each lane family (R118), every field of R113 at its place. -/
theorem test_decodeLaneFamilies :
    decodeLane (lw 0x01 4 3 7 1 0 3 0x3E 2 4 6 8 0) =
      .ok (.imad { ty := .s64, gp := 7, gn := true, nwb := false, lt := 3, dst := 0x3E, sa := 2, sb := 4, sc := 6, md := 8, imm := 0 }) ∧
    decodeLane (lw 0x02 5 0 0 0 1 0 0 1 2 3 0 0xE8) = .ok (.lop3 { z with nwb := true, sa := 1, sb := 2, sc := 3, imm := 0xE8 }) ∧
    decodeLane (lw 0x03 9 0 0 0 0 0 1 2 3 0 0 0x3210) = .ok (.prmt { z with dst := 1, sa := 2, sb := 3, imm := 0x3210 }) ∧
    decodeLane (lw 0x04 0 1 0 0 0 0 7 1 2 6 0b0001101 0) =
      .ok (.icmp { z with ty := .s32, dst := 7, sa := 1, sb := 2, sc := 6, md := 0b0001101 }) ∧
    decodeLane (lw 0x05 2 14 0 0 0 0 1 2 3 4 0 0) = .ok (.sel { z with ty := .e5m2x4, dst := 1, sa := 2, sb := 3, sc := 4 }) ∧
    decodeLane (lw 0x06 0 5 0 0 0 0 1 2 0 1 0 0) = .ok (.cvt { z with ty := .f32, dst := 1, sa := 2, sc := 1 }) ∧
    decodeLane (lw 0x07 3 5 0 0 0 0 1 2 3 4 0b1001111 0) =
      .ok (.ffma { z with ty := .f32, dst := 1, sa := 2, sb := 3, sc := 4, md := 0b1001111 }) ∧
    decodeLane (lw 0x08 1 6 0 0 0 0 1 2 0 0 0 0x1FF) = .ok (.fclass { z with ty := .f64, dst := 1, sa := 2, imm := 0x1FF }) := by decide

theorem test_decodeLaneUnits :
    decodeLane (lw 0x09 7 5 0 0 0 0 1 2 0 0 0 0) = .ok (.fcos { z with ty := .f32, dst := 1, sa := 2 }) ∧
    decodeLane (lw 0x0A 1 5 0 0 0 0 2 4 5 6 0 0) = .ok (.smm8Tb { z with ty := .f32, dst := 2, sa := 4, sb := 5, sc := 6 }) ∧
    decodeLane (lw 0x0B 4 0 0 0 0 0 1 2 0 0 1 0) = .ok (.xmatch { z with dst := 1, sa := 2, md := 1 }) ∧
    decodeLane (lw 0x0C 1 5 0 0 0 0 1 0 0 0 0 3) = .ok (.ldRec { z with ty := .f32, dst := 1, imm := 3 }) ∧
    decodeLane (lw 0x0E 9 0 0 0 0 0 1 2 3 4 1 0) = .ok (.atomCas { z with dst := 1, sa := 2, sb := 3, sc := 4, md := 1 }) ∧
    decodeLane (lw 0x0F 1 0 0 0 0 0 0 2 3 0 0b0001000 0) = .ok (.cpt { z with sa := 2, sb := 3, md := 0b0001000 }) ∧
    decodeLane (lw 0x12 5 0 0 0 0 0 1 2 3 0 0 0) = .ok (.xfmZd { z with dst := 1, sa := 2, sb := 3 }) ∧
    decodeLane (lw 0x13 2 4 0 0 0 0 2 0 0 0 0 0) = .ok (.lclock { z with ty := .n64, dst := 2 }) ∧
    decodeLane (lw 0x13 3 0 0 0 0 0 0 0 0 0 0 0) = .error .unassigned ∧
    decodeLane (lw 0x10 1 15 0 0 0 0 0 0 0 0 0 0) = .error .typ ∧ decodeLane 0 = .error .unassigned := by decide

/-- A stack-core word (R120). -/
def sw (op : BitVec 8) (d a b : BitVec 5) (md : BitVec 9) (imm : BitVec 32) : BitVec 64 := op ++ d ++ a ++ b ++ md ++ imm

theorem test_decodeStackFamilies :
    decodeStack 0x28190A0000000000 = .ok (.vfma 3 4 5 0 false) ∧
    decodeStack (sw 0x0C 1 2 0 0 0xFFFFFFFF) = .ok (.saddi 1 2 0xFFFFFFFF) ∧
    decodeStack (sw 0x10 1 2 0 0b1101 8) = .ok (.sld 1 2 5 true 8) ∧
    decodeStack (sw 0x11 1 2 0 0b0011 8) = .ok (.sst 1 2 3 false 8) ∧
    decodeStack (sw 0x18 0 1 2 0 16) = .ok (.sbeq 1 2 16) ∧ decodeStack (sw 0x1C 1 0 0 0 4) = .error .code ∧
    decodeStack (sw 0x22 15 1 2 8 4) = .ok (.vlds 15 1 2 true 4) ∧ decodeStack (sw 0x22 16 1 2 0 4) = .error .reserved ∧
    decodeStack (sw 0x2C 1 2 3 1 0) = .ok (.vbaccMulF32 1 2 3) ∧ decodeStack (sw 0x2F 31 15 0 0 0) = .ok (.vhsum 31 15) ∧
    decodeStack (sw 0x43 1 2 0 0 0) = .ok (.mpoll 1 2) ∧ decodeStack (sw 0x49 0 1 2 1 0) = .ok (.sflag 1 2 true) ∧
    decodeStack (sw 0x4D 0 3 0 0 0x020) = .ok (.scsrw 0x020 3) ∧ decodeStack 0 = .error .unassigned := by decide

/-- The rows that carry no bits of their own are chosen by the number the table would give them: words of the wrong
width are none. -/
theorem test_decodeTableWord : decodeTableWord 32 0x04642800 = some (.kadd 3 4 5) ∧ decodeTableWord 32 0 = none ∧
    decodeTableWord 96 0x100800000000000000000000 = some .lend ∧ decodeTableWord 16 0 = none := by decide

/-! ### States -/

/-- A gang at U that runs lane instructions: `withFetchWord` of a knop, with nothing on the agenda. -/
def laneBase : State := { State.reset.withFetchWord 32 0x58000000 with agenda := [] }

def onG (s : State) (x : Gang → Gang) : State := { s with g := x s.g }

/-- The same gang with its lane stream idle. -/
def base : State := onG laneBase fun g => { g with lane := LaneStream.empty }

/-- s with k registers set. -/
def withK (s : State) (l : List (Reg × Word)) : State :=
  onG s fun g => { g with k := l.foldl (fun k x => k.set x.1.toNat x.2) g.k }

def atK (s : State) : State := onG s fun g => { g with level := .k }

def withTrapVec (s : State) : State := onG s fun g => { g with trapVec := 0x9000 }

/-- s with the crew of the gang changed. -/
def onCrew (s : State) (x : Crew → Crew) : State := { s with crews := s.crews.map x }

/-- s with the features of the gang's context all enabled and its kernel allowed 64 units. -/
def onCtx (s : State) (x : Ctx → Ctx) : State := { s with ctxs := s.ctxs.map x }

/-- A bank page at a site, PINNED, with every byte zero. -/
def pageAt (site : Nat) (comp : Bool) : Page :=
  { site := site, comp := comp, state := .pinned, cells := [], poison := [], dirty := [], cols := [], owner := none,
    port := [], outside := [], backing := 0x180000 + 32768 * site, moved := 0 }

/-- s with two compute banks (handle 0 in compute mode, 1 in storage mode), one scratch bank (handle 2), and windows of
every segment. -/
def withBanks (s : State) : State :=
  { onG s (fun g => { g with segs := { g.segs with
      s := { base := 0, limit := 0x8000 }, p := { base := 0, limit := 0x8000000 }, c := { base := 0x8000, limit := 0x1000 },
      l := { base := 0x100000, limit := 0x4000 } } }) with
    crews := s.crews.map fun (c : Crew) => { c with pages := [pageAt 0 true, pageAt 1 false, pageAt 2 false] },
    kernels := s.kernels.map fun (k : Kernel) => { k with desc := { k.desc with banks := 2, scratch := 4 } } }

/-- `base` and `laneBase` with banks and all segments. -/
def rich : State := withBanks base

def laneRich : State := withBanks laneBase

/-- An access that passes and brings no bad data, with what it leaves and reads (`readsOk`). -/
def readsB (s : State) (seg : SegName) (o n : Nat) (bypass : Bool) : Option (State × Nat) :=
  match s.check s.g seg 0 o n false false with
  | (.ok ps mt, u) =>
    let t := u.touch u.g.core (seg != .s && viaL1 mt bypass) ps
    if ps.all fun p => !t.gangBad t.g.ref.crew t.g.core (seg != .s && viaL1 mt bypass) p then
      some (t, leNat (ps.map fun p => t.gangByte t.g.ref.crew t.g.core (seg != .s && viaL1 mt bypass) p))
    else none
  | _ => none

theorem readsOk_of {s : State} {seg : SegName} {o n : Nat} {bypass : Bool} {t : State} {x : Nat}
    (h : readsB s seg o n bypass = some (t, x)) : readsOk s seg o n bypass t x := by
  unfold readsB at h
  split at h
  · rename_i ps mt u e
    simp only at h
    split at h
    · rename_i hb
      simp only [Option.some.injEq, Prod.mk.injEq] at h
      obtain ⟨rfl, rfl⟩ := h
      exact ⟨ps, mt, u, e, rfl, fun p hp => by simpa using List.all_eq_true.mp hb p hp, rfl⟩
    · cases h
  · cases h

/-- Some (t, x) with `readsOk`, and what holds of them, where the Bool says so. -/
theorem readsOk_some {s : State} {seg : SegName} {o n : Nat} {bypass : Bool} (P : State → Nat → Prop)
    [∀ t x, Decidable (P t x)] (h : (readsB s seg o n bypass).any (fun r => decide (P r.1 r.2)) = true) :
    ∃ t x, readsOk s seg o n bypass t x ∧ P t x := by
  cases e : readsB s seg o n bypass with
  | none => simp [e] at h
  | some r => exact ⟨r.1, r.2, readsOk_of e, by simpa [e] using h⟩

/-- A check that passes, with what holds of its places, memory type and the state after it. -/
theorem chk_some {r : Chk × State} (P : List Place → Nat → State → Prop) [∀ ps mt t, Decidable (P ps mt t)]
    (h : (match r with
      | (.ok ps mt, t) => decide (P ps mt t)
      | _ => false) = true) : ∃ ps mt t, r = (.ok ps mt, t) ∧ P ps mt t := by
  obtain ⟨c, t⟩ := r
  cases c with
  | ok ps mt => exact ⟨ps, mt, t, rfl, by simpa using h⟩
  | _ => simp at h

/-- A result that is there, with what holds of it. -/
theorem some_of {α : Type} {r : Option α} (P : α → Prop) [∀ x, Decidable (P x)] (h : r.any (fun x => decide (P x)) = true) :
    ∃ x, r = some x ∧ P x := by
  cases r with
  | none => simp at h
  | some x => exact ⟨x, rfl, by simpa using h⟩

/-! ### Witnesses: scalar stream -/

/-- Sound sources; both sides of kins (ScalarResults) and of kbr and kjalr (KnopBranchesAndJumps). -/
theorem witness_ScalarResults : sound base 1 ∧ sound base 31 ∧ (48 : BitVec 6).toNat + ((15 : BitVec 6).toNat + 1) ≤ 64 ∧
    ¬ (49 : BitVec 6).toNat + ((15 : BitVec 6).toNat + 1) ≤ 64 := by decide +kernel

theorem witness_KnopBranchesAndJumps : sound base 1 ∧ (5 : BitVec 5).toNat ≤ 5 ∧ ¬ (6 : BitVec 5).toNat ≤ 5 ∧
    (base.getK 1 + (0x8000 : BitVec 16).signExtend 64).toNat % 4 = 0 ∧
    (base.getK 1 + (0x7FFF : BitVec 16).signExtend 64).toNat % 4 ≠ 0 := by decide +kernel

theorem witness_ScalarLoad : ∃ t x, readsOk base .g (base.getK 1 + (0x010 : BitVec 11).signExtend 64).toNat 8 false t x ∧
    sound base 1 ∧ base.g.laneIdle = true := readsOk_some _ (by decide +kernel)

/-- An idle lane stream, and a running one that touches no memory. -/
theorem witness_lanesClear : lanesClear base false ∧ (laneBase.g.laneIdle = false ∧ lanesClear laneBase false ∧
    lanesClear laneBase true) := by
  unfold lanesClear
  decide +kernel

/-- `rich` with an address in k9 and data in k10. -/
def addressed : State := withK rich [(9, 0x9000), (10, 0x123456789ABCDEF0)]

theorem witness_ScalarStore : ∃ ps mt t,
    addressed.check addressed.g (scalarSeg 0) 0 (addressed.getK 9 + (0x7F8 : BitVec 11).signExtend 64).toNat
      (2 ^ (3 : BitVec 2).toNat) true false = (.ok ps mt, t) ∧
    sound addressed 10 ∧ sound addressed 9 ∧ addressed.g.laneIdle = true ∧ addressed.g.ust < 255 ∧ agrees addressed ∧
    memoriesWf addressed = true ∧ homesWf addressed = true ∧
    roomFor t (scalarSeg 0 == .g || scalarSeg 0 == .l) (ps.zip (leBytes (2 ^ (3 : BitVec 2).toNat) (addressed.getK 10).toNat)) :=
  chk_some _ (by decide +kernel)

/-- Listed, unlisted, writable and not writable numbers at K and at U. -/
theorem witness_SpecialRegisters : srnListed 0x063 = true ∧ srnListed 0x3FF = false ∧ base.g.srPoison = [] ∧
    srnWritable 0x063 = true ∧ srnWritable 0x030 = true ∧ srnWritable 0x000 = false ∧ (atK base).g.level = .k ∧
    sound (atK base) 1 ∧ agrees (atK base) ∧ (atK base).g.pend = [] ∧ base.g.level = .u := by decide +kernel

theorem entersK_of {s : State} {c : Cause} (h : s.g.trapVec ≠ 0 ∧ s.g.level = .u ∧
    (s.myCrew.all fun x => !x.version.versioned) = true ∧ s.g.dbgHaltTrap = false ∧ s.g.dbgHaltBrk = false) :
    entersK s c :=
  ⟨h.1, h.2.1, fun x e => by have := h.2.2.1; rw [e] at this; simpa using this, h.2.2.2.1, fun _ => h.2.2.2.2⟩

theorem witness_TrapEntersK : entersK (withTrapVec base) .ill ∧ Cause.ill ≠ .sdc :=
  ⟨entersK_of (by decide +kernel), by decide⟩

theorem witness_KtrapAndKbrk : (sound (withTrapVec base) 1 ∧ agrees (withTrapVec base) ∧ entersK (withTrapVec base) .brk) ∧
    ((onG base fun g => { g with dbgHaltBrk := true }).g.dbgHaltBrk = true ∧
      agrees (onG base fun g => { g with dbgHaltBrk := true })) :=
  ⟨⟨by decide +kernel, by decide +kernel, entersK_of (by decide +kernel)⟩, by decide +kernel⟩

theorem witness_KeretReturnsToU : ((atK base).g.level = .k ∧ (atK base).g.srPoison = []) ∧ base.g.level = .u := by
  decide +kernel

/-- A block index at the top of its range with three blocks queued; lget of the last lane and register; an empty queue. -/
theorem witness_LaneBlockControl :
    ((∀ r ∈ (withK (onG base fun g => { g with lane := { g.lane with queue := List.replicate 3 ⟨4, []⟩ } })
        [(9, 0xFF0000)]).g.kPoison, 32 ≤ r) ∧
      ((withK base [(9, 0xFF0000)]).getK 9 + (0xFFFF : BitVec 16).setWidth 64).toNat < 2 ^ 24 ∧
      (List.replicate 3 (Block.mk 4 [])).length < 4) ∧
    (let s := withK base [(9, 31 * 64 + 63)]
     sound s 9 ∧ s.g.laneIdle = true ∧ s.getK 9 = BitVec.ofNat 64 (31 * 64 + 63) ∧ 63 < s.g.window ∧
      (∀ p ∈ s.g.pend, s.g.win + 63 ∉ p.regs) ∧ (s.g.win + 63, 31) ∉ s.g.vPoison ∧ s.g.lane.queue.length ≤ 4) := by
  decide +kernel

/-- A gang with 16 units, of which it has called 8 registers in. -/
def called : State :=
  withK (onG rich fun g => { g with win := 8, res := 0, allot := 16, regs := g.regs ++ g.regs, units := List.replicate 16 0 })
    [(31, 0x9000)]

/-- A call and a return within the resident registers, at the largest step and a step of 1, and a step above 7. -/
theorem witness_CallsMoveTheWindow :
    (match called.moveGroups true ((called.g.win + 56 + called.g.window - (called.g.res + 8 * called.g.allot)) / 8) with
      | (.ok (), _) => true
      | _ => false) = true ∧
    ((7 : BitVec 4).toNat ≤ 7 ∧ called.g.laneIdle = true ∧ called.g.pend = [] ∧ called.g.win + 56 + 64 ≤ 65536) ∧
    (sound called 31 ∧ 8 * (1 : BitVec 4).toNat ≤ called.g.win ∧ (called.getK 31).toNat % 4 = 0 ∧
      (match called.moveGroups false ((called.g.res - (called.g.win - 8) + 7) / 8) with
        | (.ok (), _) => true
        | _ => false) = true) ∧ 7 < (8 : BitVec 4).toNat :=
  ⟨by decide +kernel, by decide +kernel, by decide +kernel, by decide⟩

/-- s at the release of a fence.sc: a tick of the heartbeat has passed since. -/
def ticked : State := { onG base fun g => { g with wait := some (.tick 3) } with heartbeat := 4 }

theorem witness_FencesAndWaits :
    ((4 : BitVec 5).toNat ≤ 4 ∧ base.g.laneIdle = true ∧ base.g.loadsBack = true ∧ base.g.ust = 0 ∧ base.g.ifcOf .bd = 0) ∧
    ((3 : BitVec 5) = 3 ∧ ticked.hasFeature 10 = true ∧ ticked.g.wait = some (.tick 3) ∧ 3 < ticked.heartbeat.toNat ∧
      base.hasFeature 10 = true ∧ base.g.wait = none) ∧
    ((7 : BitVec 5).toNat ≤ 7 ∧ base.g.ifcOf (enginePath 7) ≤ (base.getK 1).toNat ∧
      base.g.ifcOf (enginePath 3) ≤ (base.getK 1).toNat ∧ sound base 1) ∧
    ((base.g.sealed - base.g.batchDone).toNat ≤ (base.getK 1).toNat ∧ (base.g.sealed - base.g.batchDone).toNat < 15 ∧
      base.g.status = .run) := by decide +kernel

/-- s with bytes at home in DRAM. -/
def mem (s : State) (a : Nat) (l : List Byte) : State := s.writeHomeBytes a l

/-- A descriptor for sgld at 0x9000 and a stream record at 0x9040. -/
def records : State :=
  withK (mem (mem base 0x9000 (leBytes 16 (0x12340 + 2 ^ 64 * (0x5000 + 4 * 2 ^ 58)))) 0x9040
    (leBytes 64 (0x8000 + 2 ^ 64 + 2 * 2 ^ 72 + 2 ^ 80 + 5 * 2 ^ 128 + 2 ^ 256))) [(9, 0x9000), (10, 0x9040)]

theorem witness_RecordLoads :
    (∃ t x, readsOk (atK records) .g ((atK records).getK 9).toNat 16 true t x ∧
      ((segDescriptor x).isSome = true ∧ (atK records).g.level = .k ∧ sound (atK records) 9 ∧ agrees (atK records) ∧
        ((atK records).getK 9).toNat % 16 = 0 ∧ (atK records).g.laneIdle = true ∧ (atK records).g.ust = 0 ∧
        (atK records).g.ifc = [])) ∧
    base.g.level = .u ∧
    ∃ t x, readsOk records .g (records.getK 10).toNat 64 true t x ∧
      ((streamRecord x).isSome = true ∧ (3 : BitVec 5).toNat ≤ 3 ∧ sound records 10 ∧ (records.getK 10).toNat % 64 = 0 ∧
        records.g.laneIdle = true) :=
  ⟨readsOk_some _ (by decide +kernel), by decide +kernel, readsOk_some _ (by decide +kernel)⟩

/-- An invalidation of every translation of the gang's context that a gang waits for. -/
def tlbiOf (failed : Option (BitVec 17)) (n : Nat) : Tlbi :=
  { id := 7, asid := 1, all := true, va := 0, acked := List.range n, start := 0, port := false, gang := some base.g.ref,
    failed := failed }

def awaiting (x : Tlbi) : State := onG { base with tlbis := [x] } fun g => { g with wait := some (.tlbi 7) }

/-- All pages, and one page at the top of the address space; 17 acknowledgements; a failed one with 11. -/
theorem witness_KtlbiBroadcastsAndCompletes :
    (∀ k ∈ [(0x1001 : Word), 0x0001],
      let s := withK (atK base) [(9, k), (10, 0x1FFFFFFFFFFFFFF)]
      s.g.level = .k ∧ sound s 9 ∧ sound s 10 ∧ agrees s ∧ s.g.wait = none ∧ s.g.ust = 0 ∧ (s.getK 9).toNat < 2 ^ 13 ∧
        (s.getK 9).toNat % 2 ^ 12 = s.myAsid ∧ s.myAsid ≠ 0 ∧ (s.getK 10).toNat < 2 ^ 57) ∧
    (let s := awaiting (tlbiOf none 17)
     s.g.wait = some (.tlbi 7) ∧ findBy (fun (y : Tlbi) => y.id == 7) s.tlbis = some (tlbiOf none 17) ∧
      (tlbiOf none 17).acked.length = 17) ∧
    (let s := awaiting (tlbiOf (some 0x1F800) 11)
     s.g.wait = some (.tlbi 7) ∧ findBy (fun (y : Tlbi) => y.id == 7) s.tlbis = some (tlbiOf (some 0x1F800) 11) ∧ agrees s) ∧
    base.g.level = .u ∧ base.g.wait = none := by
  refine ⟨fun k h => ?_, by decide +kernel, by decide +kernel, by decide +kernel⟩
  simp only [List.mem_cons, List.not_mem_nil, or_false] at h
  obtain rfl | rfl := h <;> decide +kernel

/-- `base` with a second gang in its crew. -/
def twoGangs (s : State) : State :=
  { onCrew s fun c => { c with gangs := 2 } with gangs := [{ s.g with ref := { crew := 1, idx := 1 }, slot := 1 }] }

/-- The conditions of kend, in a crew with another gang and in one without. -/
theorem witness_KendEndsTheGang :
    (∀ s ∈ [twoGangs base, base], agrees s ∧ s.g.laneIdle = true ∧ s.g.sealed = s.g.batchDone ∧
      (∀ n ∈ s.g.notes, n.num ≠ (s.g.sealed + 1).toNat) ∧ (∀ p ∈ [Path.cp, .mx, .xf, .fx], s.g.ifcOf p = 0) ∧ s.g.ust = 0 ∧
      s.g.loadsBack = true) ∧
    (∃ x ∈ (twoGangs base).gangs, x.ref.crew = (twoGangs base).g.ref.crew ∧ x.status ≠ .ended) ∧
    (base.gangs = [] ∧ (base.kernelOf base.g.ref.crew).isSome = true ∧ base.g.status = .run ∧
      base.crewBusy base.g.ref.crew = false) := by decide +kernel

/-- A barrier of the crew. -/
def barrierOf (num : Nat) (phase : Bool) (memb arr : Half) (tx : Int) : Barrier :=
  { level := 0, dom := 0, num := num, phase := phase, memb := memb, arr := arr, tx := tx, next := none, excess := false }

/-- `base` with an idle and a busy barrier; k9 names a barrier, k10 is a value. -/
def withBarriers (name value : Word) : State :=
  withK (onCrew base fun c => { c with barriers := [barrierOf 1 false 1 0 0, barrierOf 2 true 1 0 5] })
    [(9, name), (10, value)]

/-- A barrier that the arrival completes and one that it does not; values of barinit, barx at both ends and barw; gangs that
have been released. -/
theorem witness_BarriersComplete :
    (∀ n ∈ [(1 : Word), 2],
      let s := withBarriers n 1
      let x := s.barrierAt (s.barOf (s.getK 9))
      sound s 9 ∧ sound s 10 ∧ agrees s ∧ (s.kernelOf s.g.ref.crew).isSome = true ∧ barValid (s.getK 9) = true ∧
        barLevel (s.getK 9) = 0 ∧ s.getK 10 ≠ 0 ∧
        ((s.kernelOf s.g.ref.crew).all fun k => decide ((s.getK 10).toNat < 2 ^ k.desc.gangs)) = true ∧
        x.memb.getLsbD s.g.ref.idx = true ∧ x.arr.getLsbD s.g.ref.idx = false ∧ s.g.laneIdle = true ∧ s.g.loadsBack = true ∧
        s.g.ust = 0 ∧ s.g.wait = none ∧ (s.getK 10).toNat < 2 ∧
        ((arrivedBy (s.getK 9) s.g.ref.idx x).phase ≠ x.phase ↔ n = 1) ∧ (x.phase = (s.getK 10).getLsbD 0 ↔ n = 2)) ∧
    (let s := withBarriers 0x1000000000 1
     barValid (s.getK 9) = false ∧ s.g.wait = none) ∧
    (let s := withBarriers 2 0x7FFFFFFFFA
     (s.getK 10).toInt = 549755813882 ∧ (s.barrierAt (s.barOf (s.getK 9))).tx = 5 ∧
      ((withBarriers 2 0xFFFFFF8000000000).getK 10).toInt = -549755813888) ∧
    ((5 : Int) + 549755813882 ≤ 2 ^ 39 - 1 ∧ -(2 ^ 39 - 1) ≤ (5 : Int) + -549755813888) ∧
    ∀ w ∈ [Wait.passed none, .passed (some true)],
      (onG (withBarriers 1 1) fun g => { g with wait := some w }).g.wait = some w ∧ (withBarriers 1 1).g.loadsBack = true := by
  refine ⟨fun n h => ?_, by decide +kernel, by decide +kernel, by norm_num, by decide +kernel⟩
  simp only [List.mem_cons, List.not_mem_nil, or_false] at h
  obtain rfl | rfl := h <;> decide +kernel

/-- A versioned crew with or without an open version. -/
def versioned (opened : Bool) : State := onCrew base fun c =>
  { c with
    version := { versioned := true, opened := opened, commits := 255, held := (if opened then [(0x8000, 1)] else []),
                 bad := [], direct := (if opened then [0x100] else []) } }

theorem witness_VersionsBeginAndCommit :
    (∀ o ∈ [false, true], (∃ c, (versioned o).myCrew = some c ∧
        (c.version.versioned = true ∧ c.version.opened = o ∧ c.version.commits < 256 ∧ (versioned o).hasFeature 3 = true ∧
          (versioned o).g.laneIdle = true ∧ (versioned o).g.ust = 0))) ∧
    ∃ c, base.myCrew = some c ∧ (c.version.versioned = false ∧ base.hasFeature 3 = true) :=
  ⟨fun o h => by
    simp only [List.mem_cons, List.not_mem_nil, or_false] at h
    obtain rfl | rfl := h <;> exact some_of _ (by decide +kernel), some_of _ (by decide +kernel)⟩

/-- `rich` with its banks in step mode for a gang of the crew. -/
def stepped (idx : Nat) : State := onCrew rich fun c =>
  { c with pages := c.pages.map fun (p : Page) => { p with owner := some { crew := 1, idx := idx } } }

/-- s with the ports of its banks as given and step mode of a gang or none. -/
def porting (port : List BankOp) (owner : Option GangRef) (s : State) : State := onCrew s fun c =>
  { c with pages := c.pages.map fun (p : Page) => { p with owner := owner, port := port } }

/-- An operation of the gang at a port. -/
def opOf (act : BankAct) : BankOp := { id := 7, gang := { crew := 1, idx := 0 }, act := act, steps := 0 }

/-- A compute bank, the same in step mode of this gang and of another; an operation at the head with steps left; a busy port;
a finished bsync; a register that names no handle, and one that names no bank. -/
theorem witness_BankControlIssues :
    (∀ s ∈ [rich, stepped 0, stepped 1], ∃ p, s.page s.g.ref.crew 0 = some p ∧
      (sound s 0 ∧ (s.getK 0).toNat = 0 ∧ p.comp = true ∧ p.port = [] ∧ p.outside = [] ∧ s.g.ifcOf .fx < 63 ∧
        agrees s ∧ s.hasFeature 11 = true ∧ s.g.wait = none)) ∧
    (∃ p, (porting [opOf (.bv .mul (7 * 2 ^ 34) 0)] (some { crew := 1, idx := 0 }) rich).page 1 0 = some p ∧
      (p.owner = some rich.g.ref ∧ p.port = [opOf (.bv .mul (7 * 2 ^ 34) 0)] ∧ 0 + 1 < stepsOf (.bv .mul (7 * 2 ^ 34) 0))) ∧
    (let s := onG rich fun g => { g with wait := some (.bankOps [77]) }
     s.g.wait = some (.bankOps [77]) ∧ ∃ c, s.myCrew = some c ∧ ∀ p ∈ c.pages, ∀ o ∈ p.port ++ p.outside, o.id ∉ [77]) ∧
    (let s := withK rich [(9, 16), (10, 15)]
     sound s 9 ∧ 16 ≤ (s.getK 9).toNat ∧ (s.getK 10).toNat < 16 ∧ s.page s.g.ref.crew (s.getK 10).toNat = none) :=
  ⟨fun s h => by
    simp only [List.mem_cons, List.not_mem_nil, or_false] at h
    obtain rfl | rfl | rfl := h <;> exact some_of _ (by decide +kernel),
   some_of _ (by decide +kernel), ⟨by decide +kernel, some_of _ (by decide +kernel)⟩, by decide +kernel⟩

/-- A row descriptor of bank 0. -/
def rowWord (a b d w : Nat) : Word := BitVec.ofNat 64 (a * 2 ^ 4 + b * 2 ^ 14 + d * 2 ^ 24 + (w - 1) * 2 ^ 34)

/-- For each row operation one of four descriptors is legal, among them rows at the end of the bank. -/
theorem witness_RowOperationsIssue :
    (rowOps.all fun row => [rowWord 0 32 64 8, rowWord 0 0 64 8, rowWord 0 0 0 1, rowWord 1008 0 992 16].any fun k =>
      !row.2.1.badDesc k && !row.2.1.outside (rowDesc k) && (rowDesc k).h == 0) = true ∧
    ∃ p, rich.page rich.g.ref.crew 0 = some p ∧
      (p.comp = true ∧ rich.hasFeature 15 = true ∧ sound rich 9 ∧ rich.g.ifcOf .fx < 63 ∧ agrees rich) :=
  ⟨by decide +kernel, some_of _ (by decide +kernel)⟩

/-- `rich` with an operation of its gang at every port, in step mode of the gang or not. -/
def performing (act : BankAct) (owner : Option GangRef) : State :=
  onG (porting [opOf act] owner rich) fun g =>
    { g with ifc := [{ path := .fx, id := 7, done := false }], pend := [⟨7, .cpr, [], [8], 0, some (0, [])⟩] }

/-- The page of bank 0 in `performing`. -/
def performed (act : BankAct) (owner : Option GangRef) : Page := { pageAt 0 true with owner := owner, port := [opOf act] }

/-- What `performable` asks, where each operation is one of the list below. -/
theorem performable_of {s : State} {p : Page} {op : BankOp} {g : Gang}
    (h : op.act.isMx = false ∧ p.cells.wf = true ∧ p.cols = [] ∧ p.poison = [] ∧ s.gang op.gang = some g ∧
      (s.allGangs.map Gang.ref).Nodup ∧ (g.pend.map Pend.id).Nodup ∧ g.haltDue = false ∧
      g.ifc = [{ path := .fx, id := op.id, done := false }])
    (hc : ∀ id piece, op.act ≠ .copy id piece)
    (hb : ∀ m d k, op.act = .bv m d k → m.badDesc d = false ∧ m.outside (rowDesc d) = false)
    (hw : ∀ sel j d on data, op.act = .cpw sel j d on data → sel ≤ 3 ∧
      (sel = 0 → d.toNat / 2 ^ 12 % 1024 + (d.toNat / 2 ^ 22 % 32 + 1) ≤ 1024) ∧ d.toNat / 2 ^ 4 % 256 ≤ 224)
    (hr : ∀ sel j d on dst wide, op.act = .cpr sel j d on dst wide → (∃ x ∈ g.pend, x.id = op.id) ∧
      (∀ row ∈ g.regs, row.length = 32) ∧ g.res ≤ dst ∧ dst + (if wide then 2 else 1) ≤ g.res + g.regs.length) :
    performable s p op g := by
  obtain ⟨h1, h2, h3, h4, h5, h6, h7, h8, h9⟩ := h
  exact ⟨h1, hc, h2, by simp [h3], h4, by simp [h3], hb, hw, hr, h5, h6, h7, h8, [], by simp [h9], by simp⟩

/-- A row operation on the last rows, a cpw and a cpr of the last columns and rows, and a change of mode at the head of the
port of bank 0; and the last step of one in step mode. -/
theorem witness_BankOperationsPerform :
    (∀ act ∈ [BankAct.bv .add (rowWord 1008 0 992 16) 0, .cpw 0 0 0x1FF8E00 0xFFFFFFFF [], .cpr 0 0 0x1FF8E00 1 8 true,
        .mode false],
      ∃ c g, atSite (performing act none) 0 0 c 0 (performed act none) ∧
        performable (performing act none) (performed act none) (opOf act) g) ∧
    (let s := performing (.mode false) (some rich.g.ref)
     ∃ c p g, s.myCrew = some c ∧ (c.state = .running ∧ s.page 1 0 = some p ∧ p.owner = some s.g.ref ∧
      p.port = [opOf (.mode false)] ∧ (opOf (.mode false)).steps + 1 = stepsOf (.mode false) ∧ sound s 0 ∧
      (s.getK 0).toNat = 0 ∧ s.hasFeature 11 = true ∧ agrees s) ∧ performable s p (opOf (.mode false)) g) := by
  refine ⟨fun act h => ⟨(performing act none).crews.headD wordCrew, (performing act none).g, ?_, ?_⟩,
    ((performing (.mode false) (some rich.g.ref)).crews.headD wordCrew), performed (.mode false) (some rich.g.ref),
    (performing (.mode false) (some rich.g.ref)).g, by decide +kernel, by decide +kernel, ?_⟩
  · unfold atSite
    simp only [List.mem_cons, List.not_mem_nil, or_false] at h
    have one : ∀ act, ∀ c' ∈ (performing act none).crews, ∀ h' p', c'.core = 0 → c'.page h' = some p' → p'.site = 0 →
        p'.state = .pinned → c'.id = ((performing act none).crews.headD wordCrew).id ∧ h' = 0 := by
      intro act c' hc h' p' _ hp hs _
      simp only [performing, onG, porting, onCrew, rich, withBanks, base, laneBase, State.withFetchWord, State.installWord,
        wordCrew, List.map_cons, List.map_nil, List.mem_cons, List.not_mem_nil, or_false] at hc
      subst hc
      match h', hp with
      | 0, _ => exact ⟨rfl, rfl⟩
      | 1, e => cases e; exact absurd hs (by simp [pageAt])
      | 2, e => cases e; exact absurd hs (by simp [pageAt])
      | n + 3, e => exact absurd e (by simp [Crew.page])
    obtain rfl | rfl | rfl | rfl := h <;> exact ⟨by decide +kernel, by decide +kernel, by decide +kernel, by decide +kernel,
      by decide +kernel, by decide +kernel, by decide +kernel, one _⟩
  · simp only [List.mem_cons, List.not_mem_nil, or_false] at h
    obtain rfl | rfl | rfl | rfl := h <;> exact performable_of (by decide +kernel) (by intro _ _ e; cases e)
      (by intro m d k e; first | (cases e; done) | (cases e; decide +kernel))
      (by intro a b c d f e; first | (cases e; done) | (cases e; decide +kernel))
      (by intro a b c d f g e; first | (cases e; done) | (cases e; decide +kernel))
  · refine performable_of (by decide +kernel) ?_ ?_ ?_ ?_ <;> intros <;> simp_all [opOf]

/-- A format block in scratch at 0x40: MX element type 5, matrices at 0x2000, 0x1000 and 0x3000. -/
def matrixState : State :=
  withK (rich.writePlaces (((leBytes 64 (5 * 2 ^ 16 + 4 * 2 ^ 24 + 32 * 2 ^ 48 + 32 * 2 ^ 64 + 0x2000 * 2 ^ 96 + 0x1000 * 2 ^ 128 +
    0x3000 * 2 ^ 256)).zip (List.range 64)).map fun x => (Place.bank 1 2 (0x40 + x.2), x.1))) [(9, 0x40), (10, 0)]

theorem witness_MatrixOperationsAccepted :
    (sound matrixState 10 ∧ matDescBad .mclr (matrixState.getK 10) = false ∧
      matrixState.chainCause matrixState.g.ref.crew (matDesc (matrixState.getK 10)) = none ∧
      matrixState.g.ifcOf .mx < 63 ∧ agrees matrixState) ∧
    ∀ kind ∈ [MxKind.mtx, .mdrain], ∃ ps mt t,
      matrixState.check matrixState.g .s 0 (matrixState.getK 9).toNat 64 false false = (.ok ps mt, t) ∧
      (sound matrixState 9 ∧ matDescBad kind (matrixState.getK 10) = false ∧
        t.chainCause t.g.ref.crew (matDesc (matrixState.getK 10)) = none ∧
        (∀ p ∈ ps, t.gangBad t.g.ref.crew t.g.core false p = false) ∧
        (t.rangesCheck (fmtBlk (ps.map (ownByte t))) kind (matDesc (matrixState.getK 10))).isOk = true) :=
  ⟨by decide +kernel, fun kind h => by
    simp only [List.mem_cons, List.not_mem_nil, or_false] at h
    obtain rfl | rfl := h <;> exact chk_some _ (by decide +kernel)⟩

/-- Scales of both formats that hold a value; and none. -/
theorem witness_MatrixArithmetic : (blockScale (.ofCode 0) 0x7F).isSome = true ∧ (blockScale (.ofCode 5) 0x7F).isSome = true ∧
    blockScale (.ofCode 0) 0xFF = none := by decide +kernel

/-- A started operation of the gang on bank 0, with the format block of `matrixState` but for its flag. -/
def mxOf (kind : MxKind) : MxOp :=
  { id := 7, gang := { crew := 1, idx := 0 }, kind := kind, banks := [0], active := [], pages := [(1, 0)], started := true,
    block := leBytes 64 (5 * 2 ^ 16 + 32 * 2 ^ 48 + 32 * 2 ^ 64 + 0x2000 * 2 ^ 96 + 0x1000 * 2 ^ 128 + 0x3000 * 2 ^ 256),
    desc := 0 }

def matrixing (kind : MxKind) : State :=
  { onG matrixState (fun g => { g with ifc := [{ path := .mx, id := 7, done := false }] }) with mxs := [mxOf kind] }

/-- Each kind of operation, with the premises on its format block and, for mdrain, on the row it writes. -/
theorem witness_MatrixOperationsPerform :
    (∀ kind ∈ [MxKind.mclr, .mtx, .mdrain], ∃ g c, mxReady (matrixing kind) (mxOf kind) g c) ∧
    ((matDesc 0).v = 0 ∧ (fmtBlk (mxOf .mtx).block).flag 1 = false ∧ (fmtBlk (mxOf .mtx).block).flag 2 = false ∧
      (fmtBlk (mxOf .mtx).block).flag 3 = false ∧ (fmtBlk (mxOf .mtx).block).dfmt = 0) ∧
    (let s := matrixing .mdrain
     let b := fmtBlk (mxOf .mdrain).block
     let ps := s.rangePlaces s.g (b.drainRange (matDesc 0).v 1)
     ps.Nodup ∧ ps.length = 4 * b.cols ∧ (ps.all fun p => match p with
       | .bank e h _ => (s.page e h).isSome
       | .phys _ => false) = true) := by
  refine ⟨fun kind h => ⟨(matrixing kind).g, (matrixing kind).crews.headD wordCrew, ?_⟩, by decide +kernel, by decide +kernel⟩
  simp only [List.mem_cons, List.not_mem_nil, or_false] at h
  have pages : ∀ k, ∀ p ∈ ((matrixing k).crews.headD wordCrew).pages, p.cols = [] := by
    intro k; cases k <;> decide +kernel
  obtain rfl | rfl | rfl := h <;> exact ⟨by decide +kernel, by decide +kernel, by decide +kernel, by decide +kernel,
    by decide +kernel, by decide +kernel, by decide +kernel, by decide +kernel, fun p hp => by simp [pages _ p hp],
    by decide +kernel, by decide +kernel, [], by decide +kernel, by simp⟩

/-- A launch record of one crew of one gang. -/
def launchNat : Nat :=
  0x8000 + 0x8000 * 2 ^ 64 + 2 ^ 256 + 2 ^ 288 +
    2 ^ 304 + 2 ^ 312 + 2 ^ 320 + 8 * 2 ^ 328 + 8 * 2 ^ 336 + 0x1000 * 2 ^ 448 + 2 ^ 576

/-- A launch record at 0x9000, a stack task record at 0x9080 and a mergeable launch record at 0x9100. -/
def launching : State :=
  withK (mem (mem (mem base 0x9000 (leBytes 128 launchNat)) 0x9080 (leBytes 64 (0x8000 + 2 ^ 128 + 2 ^ 144))) 0x9100
    (leBytes 128 (launchNat + 2 ^ 363))) [(9, 0x9000), (10, 0x9080), (11, 0x9100)]

/-- The same with an aggregate open for that record. -/
def merging : State := { launching with aggregates := [
  { id := 3, asid := 1, prio := 0, serial := 1, opened := 0, recAddr := 0, raw := leBytes 128 (launchNat + 2 ^ 363),
    children := [(0, 0)] }] }

/-- What is asked of a child that starts a kernel, in the state after its record is read. -/
def childStarts (t : State) (x : Nat) : Bool :=
  let raw := leBytes 128 x
  let r := launchRec raw
  let v : State := { t.commitVersion t.g.ref.crew false with kernelSerial := t.kernelSerial + 1 }
  t.acceptsChild t.myAsid t.myPrio raw && !t.merges t.myAsid raw && t.ctxActive t.myAsid
    && (State.checkChild (v.failureList t.myAsid r.completion).2 t.myAsid raw r.param r.completion).1.isNone

/-- A child that starts a kernel. -/
theorem witness_ChildrenAndTasksSubmitted :
    (sound launching 9 ∧ launching.g.ust = 0 ∧ launching.g.wait = none ∧ launching.g.laneIdle = true ∧
      (launching.getK 9).toNat % 128 = 0 ∧ agrees launching) ∧
    ∃ t x, readsOk launching .g (launching.getK 9).toNat 128 true t x ∧ childStarts t x = true :=
  ⟨by decide +kernel, readsOk_some (fun t x => childStarts t x = true) (by decide +kernel)⟩

/-- A child that opens an aggregate, and one that joins one. -/
theorem witness_ChildrenAndTasksSubmitted_merged :
    (∃ t x, readsOk launching .g (launching.getK 11).toNat 128 true t x ∧
      (t.acceptsChild t.myAsid t.myPrio (leBytes 128 x) = true ∧ t.merges t.myAsid (leBytes 128 x) = true ∧
        t.findAggregate t.myAsid t.myPrio (leBytes 128 x) = none)) ∧
    ∃ t x, readsOk merging .g (merging.getK 11).toNat 128 true t x ∧
      (t.acceptsChild t.myAsid t.myPrio (leBytes 128 x) = true ∧ t.merges t.myAsid (leBytes 128 x) = true ∧
        ((t.findAggregate t.myAsid t.myPrio (leBytes 128 x)).any fun g =>
          decide (g.children.length < 255 ∧ (launchRec (leBytes 128 x)).crews * (g.children.length + 1) ≤ 2 ^ 20)) = true) :=
  ⟨readsOk_some _ (by decide +kernel), readsOk_some _ (by decide +kernel)⟩

/-- A task. -/
theorem witness_ChildrenAndTasksSubmitted_task : ∃ t x, readsOk launching .g (launching.getK 10).toNat 64 true t x ∧
      (t.g.ifcOf .bd < 63 ∧ launching.hasFeature 9 = true ∧ sound launching 10 ∧ (launching.getK 10).toNat % 64 = 0 ∧
        (State.checkTask { t.commitVersion t.g.ref.crew false with taskSerial := launching.taskSerial + 1 } t.myAsid
          (leBytes 64 x)).1 = .ok ([], [])) :=
  readsOk_some _ (by decide +kernel)

/-! ### Witnesses: lane stream -/

/-- A word of a member: the first type it accepts, v24 as destination where it has one, v0 for each source. -/
def wordOf (op : LaneOp) (dst : BitVec 8) (md : BitVec 7) : LaneF :=
  (findBy (fun f => (op.illegal f).isNone) ((List.range 16).map fun c =>
    { LaneF.zero with ty := Ty.ofCode c, dst := dst, md := md })).getD LaneF.zero

theorem witness_LaneIntegerResults :
    (intRows.all fun row => decide (laneOk laneRich row.2.1 (wordOf row.2.1 24 0))) = true := by decide +kernel

theorem witness_LaneWordResults :
    (wordRows.all fun row => row.2.2.1.all fun ty =>
      decide (laneOk laneRich row.2.1 { LaneF.zero with ty := ty, dst := 24 })) = true := by decide +kernel

theorem witness_LaneFloatResults :
    (floatRows.all fun row => decide (laneOk laneRich row.2.1
      (if row.2.1 = .cvt then { LaneF.zero with ty := .f32, sc := 1, dst := 24 } else wordOf row.2.1 24 0))) = true := by decide +kernel

theorem witness_LanePredicateResults :
    (predRows.all fun row => decide (laneOk laneRich row.2.1 (wordOf row.2.1 1 0))) = true := by decide +kernel

theorem witness_LaneCrossResults :
    (crossRows.all fun row => decide (laneOk laneRich row.2.1 (wordOf row.2.1 24 0))) = true ∧
    laneOk laneRich .getsr { wordOf .getsr 24 0 with imm := 0x020 } ∧ field { wordOf .getsr 24 0 with imm := 0x020 }.imm 0 10 ∉ laneRich.g.srPoison ∧
    laneOk laneRich .shfl (wordOf .shfl 24 0) := by decide +kernel

/-- `laneRich` with lanes 0 and 31 active: v8 and v10 hold small addresses, v9 is 0, v1 is 7 in every lane. -/
def twoLanes : State := onG laneRich fun g =>
  { g with
    regs := (List.range 64).map fun r => (List.range 32).map fun i =>
      if r = 1 then 7 else if r = 8 then BitVec.ofNat 32 (0x8000 + 8 * i) else if r = 10 then BitVec.ofNat 32 (16 * i) else 0,
    lane := { g.lane with s0 := { g.lane.s0 with mask := 0x80000001 } } }

/-- The same with lane 31 alone. -/
def oneLane : State := onG twoLanes fun g => { g with lane := { g.lane with s0 := { g.lane.s0 with mask := 0x80000000 } } }

/-- An illegal field, a feature that is off, an operand outside the window, a latch never written, and a register in
flight. -/
theorem witness_LaneWordCauses :
    let w := wordOf .iadd 24 0
    (LaneOp.illegal .iadd { w with sc := 9 } ≠ none) ∧
    (∃ n, laneFeature .xfmZc (wordOf .xfmZc 24 0) = some n ∧ ({ laneRich with ctxs := [] } : State).hasFeature n = false) ∧
    (LaneOp.illegal .iadd { w with dst := 64 } = none ∧ laneFeature .iadd w = none ∧
      laneRich.g.opndBad .iadd { w with dst := 64 } = true) ∧
    (LaneOp.illegal .iadd { w with sa := 0x40 } = none ∧ laneRich.g.opndBad .iadd { w with sa := 0x40 } = false ∧
      0 ∈ laneLatches .iadd { w with sa := 0x40 } ∧ (laneRich.g.latches.getD 0 Latch.empty).valid = false ∧
      laneRich.g.latchPending 0 = false) ∧
    (onG laneRich fun g => { g with pend := [⟨9, .smm, [], [g.slotOf 24], 0, none⟩] }).laneGate .iadd w = .stall := by
  refine ⟨by decide +kernel, some_of (fun n => _ = false) (by decide +kernel), by decide +kernel, by decide +kernel, by decide +kernel⟩

theorem witness_UnitsReplyLater :
    (laneOk laneRich .smm8 (wordOf .smm8 24 0) ∧ laneOk laneRich .smm8Tb (wordOf .smm8Tb 24 0) ∧
      laneRich.smmBusy = false) ∧
    (xfmRows.all fun row => decide (laneOk laneRich row.2.1 (wordOf row.2.1 24 0))) = true ∧ laneRich.xfmHeld < 16 ∧
      laneRich.g.ifcOf .xf < 63 ∧ agrees laneRich := by decide +kernel

/-- The places of the checks of several lanes, where all pass. -/
def passed : List (Nat × Chk) → Option (List LaneAcc)
  | [] => some []
  | (i, .ok ps mt) :: l => (passed l).map fun accs => (i, ps, mt) :: accs
  | _ => none

theorem passed_allOk {l : List (Nat × Chk)} {accs : List LaneAcc} (h : passed l = some accs) : l = allOk accs := by
  induction l generalizing accs with
  | nil => simp only [passed, Option.some.injEq] at h; subst h; rfl
  | cons x l ih =>
    obtain ⟨i, c⟩ := x
    cases c with
    | ok ps mt =>
      simp only [passed, Option.map_eq_some_iff] at h
      obtain ⟨r, e, rfl⟩ := h
      simp [allOk, ih e]
    | _ => simp [passed] at h

/-- Checks of several lanes that all pass, with what holds of their places and the state after them. -/
theorem lanes_some {r : List (Nat × Chk) × State} (P : List LaneAcc → State → Prop) [∀ a t, Decidable (P a t)]
    (h : (passed r.1).any (fun a => decide (P a r.2)) = true) : ∃ accs t, r = (allOk accs, t) ∧ P accs t := by
  cases e : passed r.1 with
  | none => simp [e] at h
  | some a => exact ⟨a, r.2, by rw [← passed_allOk e], by simpa [e] using h⟩

/-- The lanes of a list of accesses read one after another (`lanesRead`), where no data is bad. -/
def lanesReadB (s : State) (l1 : Nat → Bool) : List LaneAcc → Option (List (Nat × Nat) × State)
  | [] => some ([], s)
  | (i, ps, mt) :: rest =>
    let u := s.touch s.g.core (l1 mt) ps
    if ps.all fun p => !u.gangBad u.g.ref.crew u.g.core (l1 mt) p then
      (lanesReadB u l1 rest).map fun r => ((i, leNat (ps.map (seenByte u (l1 mt)))) :: r.1, r.2)
    else none

theorem lanesRead_of {s : State} {l1 : Nat → Bool} {accs : List LaneAcc} (h : (lanesReadB s l1 accs).isSome = true) :
    ∃ vals u, lanesRead s l1 accs vals u := by
  induction accs generalizing s with
  | nil => exact ⟨[], s, rfl, rfl⟩
  | cons x rest ih =>
    obtain ⟨i, ps, mt⟩ := x
    simp only [lanesReadB] at h
    split at h
    · rename_i hb
      obtain ⟨vs, u, hr⟩ := ih (by simpa using h)
      exact ⟨_, u, fun p hp => by simpa using List.all_eq_true.mp hb p hp, vs, rfl, hr⟩
    · simp at h

/-- ld of two lanes; ld.rec of two elements, the second the last of the stream. -/
def loadWord : LaneF := { wordOf .ld 24 0x40 with sa := 8 }

def streaming : State := onG twoLanes fun g => { g with streams := [none, some
  { desc := { base := 0x8000, seg := 0, elog := 2, dims := 1, indirect := false, nc := false, count := [40, 0, 0, 0],
              stride := [16, 0, 0, 0], ibase := 0, ilog := 0, iscale := 0 }, pos := 38 }, none, none] }

theorem witness_LaneLoadsIssue :
    (∃ accs t, twoLanes.laneChecks loadWord false true = (allOk accs, t) ∧
      (laneOk twoLanes .ld loadWord ∧ (lanesReadB t (ldViaL1 loadWord) accs).isSome = true)) ∧
    ∃ x, streaming.g.streams[field (1 : Half) 0 2]? = some (some x) ∧
      (laneOk streaming .ldRec { wordOf .ldRec 24 0 with imm := 1 } ∧ x.desc.indirect = false ∧
        2 ^ x.desc.elog = 4 ∧
        ∃ accs t, streaming.elementChecks x.desc ((streamLanes (Mask.lanes (streaming.g.onMask
            { wordOf .ldRec 24 0 with imm := 1 })) x.pos x.desc.size).map fun e => (e.1, x.desc.offset x.desc.base e.2))
            = (allOk accs, t) ∧ (lanesReadB t (streamL1 x.desc x.desc.seg) accs).isSome = true) :=
  ⟨lanes_some _ (by decide +kernel), _, rfl, by decide +kernel, rfl, rfl, lanes_some _ (by decide +kernel)⟩

def storeWord : LaneF := { wordOf .st 0 0x40 with sa := 8, sb := 1 }

/-- A plain store of two lanes, and a releasing one. -/
theorem witness_LaneStores :
    (∃ accs t, twoLanes.laneChecks storeWord true true = (allOk accs, t) ∧
      (laneOk twoLanes .st storeWord ∧ twoLanes.g.ust < 255 ∧ ordRel storeWord = false ∧ agrees twoLanes ∧
        memoriesWf twoLanes = true ∧ homesWf twoLanes = true ∧ roomFor t (segOf storeWord == .g || segOf storeWord == .l)
          (accs.flatMap fun a => a.2.1.zip (leBytes (sizeOf_ storeWord) (twoLanes.g.src storeWord storeWord.ty storeWord.sb a.1))))) ∧
    laneOk twoLanes .st { storeWord with imm := 2 ^ 25 } ∧ ordRel { storeWord with imm := 2 ^ 25 } = true ∧
      twoLanes.g.loadsBack = true ∧ twoLanes.g.ust = 0 :=
  ⟨lanes_some _ (by decide +kernel), by decide +kernel⟩

def atomWord (op : LaneOp) : LaneF := { wordOf op 24 0x40 with sa := 8, sb := 1, sc := if op = .atomCas then 1 else 0 }

/-- The state in which the lanes of an atomic act, after its commit and the settling of its lines. -/
def atomReady (t : State) (accs : List LaneAcc) : State := (t.commitVersion t.g.ref.crew false).atomLines accs

/-- Each atomic on two lanes, and the checks of one. -/
theorem witness_LaneAtomics :
    (atomRows.all fun row => decide (laneOk twoLanes row.2.1 (atomWord row.2.1))) = true ∧
    ∃ accs t, twoLanes.laneChecks (atomWord .atomAdd) true false = (allOk accs, t) ∧
      (twoLanes.g.ust < 255 ∧ ordRel (atomWord .atomAdd) = false ∧ agrees twoLanes ∧ memoriesWf twoLanes = true ∧
        homesWf twoLanes = true ∧ accs.length = 2 ∧
        (accs.all fun a => a.2.1.all fun p => !(atomReady t accs).placeBad true p) = true) :=
  ⟨by decide +kernel, lanes_some _ (by decide +kernel)⟩

def copyWord : LaneF := { wordOf .cpa 0 0 with sa := 8, sb := 10 }

def transposeWord : LaneF := { wordOf .cpt 0 0 with sa := 8, sb := 10 }

/-- A multicast descriptor in scratch at 0x40: 256 bytes from 0 to 0x400 for the first member of stage 0. -/
def castWith (mask : Nat) : State :=
  let s := rich.writePlaces (((leBytes 32 (256 * 2 ^ 32 + 0x400 * 2 ^ 64 + mask * 2 ^ 192)).zip (List.range 32)).map fun x =>
    (Place.bank 1 2 (0x40 + x.2), x.1))
  { withK s [(9, 0x40)] with kernels := s.kernels.map fun (k : Kernel) => { k with desc := { k.desc with stageMasks := [1] } } }

def castState : State := castWith 1

/-- The fields of a descriptor that R249 accepts, within the scratch of the launch. -/
def castOk (s : State) (ps : List Place) : Bool :=
  let m := mcastOf (leNat (ps.map (ownByte s)))
  let e := segVa s.g.segs.s m.src
  match s.myCrew, s.kernelOf s.g.ref.crew with
  | some c, some k => (m.fails k.desc k.each c.die).isNone && m.zero && decide (128 ≤ m.bytes ∧ m.bytes ≤ 65536 ∧
      m.bytes % 128 = 0 ∧ m.src % 128 = 0 ∧ m.dst % 128 = 0 ∧ m.src + m.bytes ≤ s.g.segs.s.limit.toNat ∧
      e + m.bytes ≤ k.desc.scratch * 8192 ∧ m.dst + m.bytes ≤ k.desc.scratch * 8192) && s.scratchStored e m.bytes
  | _, _ => false

/-- The two sides of a cpa: each lane's checks raise no cause. -/
def cpaSides (s : State) (f : LaneF) : (List (Nat × Chk) × State) × (List (Nat × Chk) × State) :=
  let n := 4 * 2 ^ field f.md 2 2
  let on := Mask.lanes (s.g.onMask f)
  let x := s.checkLanes (fun t i => t.check t.g (cpaSegs f).1 i (t.g.cpaSrc f i) n false false) on
  (x, x.2.checkLanes (fun t i => t.check t.g (cpaSegs f).2 i (t.g.cpaDst f i) n true false) on)

/-- cpa of two lanes; cpt of two lanes into the last column that its run reaches. -/
theorem witness_LaneCopiesAccepted :
    (let x := cpaSides twoLanes copyWord
     laneOk twoLanes .cpa copyWord ∧ (∀ y ∈ x.1.1 ++ x.2.1, y.2.cause? = none) ∧ twoLanes.g.ifcOf .cp < 63 ∧ agrees twoLanes) ∧
    let desc (i : Nat) : Nat := (twoLanes.g.src32 transposeWord transposeWord.sb i).toNat
    laneOk twoLanes .cpt transposeWord ∧
      (∀ y ∈ (twoLanes.checkLanes (fun t i => t.check t.g .g i (t.g.cptSrc transposeWord i) 8 false false)
        (Mask.lanes (twoLanes.g.onMask transposeWord))).1, y.2.cause? = none) ∧
      ∀ i ∈ Mask.lanes (twoLanes.g.onMask transposeWord),
        (twoLanes.page twoLanes.g.ref.crew (desc i % 16)).any (fun p => p.comp) = true ∧ desc i < 2 ^ 19 ∧
          desc i / 2 ^ 12 % 8 = 0 ∧ desc i / 2 ^ 12 + 8 ≤ 128 := by
  decide +kernel

/-- The same multicast with no receiver. -/
def castNone : State := castWith 0

theorem witness_MulticastAccepted :
    (∃ ps mt t, castState.check castState.g .s 0 (castState.getK 9).toNat 32 false false = (.ok ps mt, t) ∧
      (castOk castState ps = true ∧ (mcastOf (leNat (ps.map (ownByte castState)))).mask ≠ 0 ∧
        castState.hasFeature 8 = true ∧ sound castState 9 ∧ agrees castState ∧ castState.g.ifcOf .cp < 63 ∧
        ∀ p ∈ ps, t.gangBad t.g.ref.crew t.g.core false p = false)) ∧
    ∃ ps mt t, castNone.check castNone.g .s 0 (castNone.getK 9).toNat 32 false false = (.ok ps mt, t) ∧
      (castOk castNone ps = true ∧ (mcastOf (leNat (ps.map (ownByte castNone)))).mask = 0 ∧
        castNone.g.ifcOf .cp = 0 ∧ castNone.g.status ≠ .absent ∧ (∀ x ∈ castNone.copies, x.id ≠ castNone.nextId) ∧
        ∀ c ∈ castNone.crews, c.state = .running) :=
  ⟨chk_some _ (by decide +kernel), chk_some _ (by decide +kernel)⟩

/-- A column descriptor for the row operations of the column port. -/
def columnWord (op : LaneOp) (dst : BitVec 8) (x : BitVec 32) : LaneF := { wordOf op dst 0 with sa := 0x44, imm := x }

/-- The stops of the column port on a descriptor. -/
def colCase (x : Nat) : Bool × Bool :=
  (decide (x / 2 ^ 27 ≠ 0), decide (224 < x / 2 ^ 4 % 2 ^ 8 ∨ 1024 < x / 2 ^ 12 % 2 ^ 10 + (x / 2 ^ 22 % 2 ^ 5 + 1)))

/-- The last columns and rows of bank 0; bit 27 set; a row beyond the last; bank 9, which is not there. -/
theorem witness_ColumnPortIssues :
    (∃ p, laneRich.page laneRich.g.ref.crew 0 = some p ∧ (p.comp = true ∧ laneRich.g.ifcOf .fx < 63 ∧ agrees laneRich)) ∧
    laneOk laneRich .cpr (columnWord .cpr 24 0x9FF8E00) ∧ laneOk laneRich .cpw (columnWord .cpw 0 0x1FF8E09) ∧
    [0x1FF8E00, 0x9FF8E00, 0x1FFFE00 + 0x400000].map colCase = [(false, false), (true, false), (false, true)] ∧
    (laneRich.page laneRich.g.ref.crew 9).isNone = true :=
  ⟨some_of _ (by decide +kernel), by decide +kernel⟩

/-- A branch taken by the lanes of q3, which are 8 to 31. -/
def branching (depth : Nat) (both : Bool) : State := onG laneRich fun g =>
  { g with
    q := (List.range 8).map fun n => if n = 3 then 0xFFFFFF00 else 0
    lane := { g.lane with
      depth := depth
      s0 := { g.lane.s0 with mask := if both then 0x0000FFFF else 0xFFFFFFFF }
      s1 := if both then { valid := true, pc := 40, mask := 0xFFFF0000, join := some 9, parked := false } else g.lane.s1 } }

def braWord (gp : BitVec 3) : LaneF := { wordOf .bra 0 0 with gp := gp, sc := 9, imm := 77 }

def mergeOf (s : State) : DivEntry :=
  { kind := .merge, index := 9, mask := s.g.active, join := s.g.slotNow.join }

/-- bra with no lane, every lane and some lanes taken; a divergence with the stack full, at its last place with one slot,
and at its last two with both. -/
theorem witness_LaneControl_bra :
    laneOk laneRich .lnop LaneF.zero ∧
    (laneOk (branching 0 false) .bra (braWord 0) ∧ taken (branching 0 false) (braWord 0) ≠ 0 ∧
      (branching 0 false).g.active &&& ~~~taken (branching 0 false) (braWord 0) = 0) ∧
    (laneOk laneRich .bra { braWord 0 with gn := true } ∧ taken laneRich { braWord 0 with gn := true } = 0) ∧
    (laneOk (branching 64 false) .bra (braWord 3) ∧ taken (branching 64 false) (braWord 3) ≠ 0 ∧
      (branching 64 false).g.active &&& ~~~taken (branching 64 false) (braWord 3) ≠ 0 ∧
      64 < 64 + (if (branching 64 false).g.slotOther.valid then 2 else 1)) ∧
    (∃ ps mt u, (branching 63 false).divPlaces 63 true = (.ok ps mt, u) ∧
      (laneOk (branching 63 false) .bra (braWord 3) ∧ (branching 63 false).g.slotOther.valid = false ∧
        roomFor u true (entryCells ps (mergeOf (branching 63 false))))) := by
  refine ⟨by decide +kernel, by decide +kernel, by decide +kernel, by decide +kernel, chk_some _ (by decide +kernel)⟩

/-- The pushes of a divergence with both slots in use, one after the other. -/
def twoPushes (s : State) : Bool :=
  match s.divPlaces 63 true with
  | (.ok _ _, u) => match u.divPlaces 62 true with
    | (.ok ps mt, u') =>
      let v := u'.gangWrite u'.g.ref.crew u'.g.core true mt (entryCells ps (mergeOf s))
      match v.divPlaces 63 true with
      | (.ok ps' _, v') => decide (roomFor u' true (entryCells ps (mergeOf s)) ∧
          roomFor v' true (entryCells ps' { kind := .side, index := 1, mask := 0xFF, join := some 9 }))
      | _ => false
    | _ => false
  | _ => false

theorem witness_LaneControl_bra_both :
    laneOk (branching 62 true) .bra (braWord 3) ∧ (branching 62 true).g.slotOther.valid = true ∧
    taken (branching 62 true) (braWord 3) ≠ 0 ∧
    (branching 62 true).g.active &&& ~~~taken (branching 62 true) (braWord 3) ≠ 0 ∧ twoPushes (branching 62 true) = true := by
  decide +kernel

/-- A slot at its join with an entry on top of the stack; the other slot free, or still running to the same join. -/
def joining (e : DivEntry) (other : Bool) : State :=
  let s := onG (branching 0 other) fun g => g.putSlotNow { g.slotNow with pc := 9, join := some 9 }
  match s.divPlaces 0 true with
  | (.ok ps mt, u) => onG (u.gangWrite u.g.ref.crew u.g.core true mt (entryCells ps e)) fun g =>
      { g with lane := { g.lane with depth := 1 } }
  | _ => s

/-- The top entry of the stack (`topEntry`). -/
def topB (s : State) : Option (State × DivEntry) :=
  if s.g.lane.depth = 0 then none else match s.divPlaces (s.g.lane.depth - 1) false with
  | (.ok ps mt, v) =>
    let u := v.touch v.g.core (viaL1 mt false) ps
    if ps.all fun p => !u.gangBad u.g.ref.crew u.g.core (viaL1 mt false) p then
      some (u, divEntry ((List.range 4).map fun i => BitVec.ofNat 32
        (leNat (((ps.map fun p => u.gangByte u.g.ref.crew u.g.core (viaL1 mt false) p).drop (4 * i)).take 4))))
    else none
  | _ => none

theorem topEntry_of {s : State} (P : DivEntry → Prop) [∀ e, Decidable (P e)]
    (h : (topB s).any (fun r => decide (P r.2)) = true) : ∃ u e, topEntry s u e ∧ P e := by
  cases e : topB s with
  | none => simp [e] at h
  | some r =>
    refine ⟨r.1, r.2, ?_, by simpa [e] using h⟩
    unfold topB at e
    split at e
    · cases e
    · rename_i hd
      split at e
      · rename_i ps mt v hc
        simp only at e
        split at e
        · rename_i hb
          cases e
          exact ⟨hd, ps, mt, v, hc, rfl, fun p hp => by simpa using List.all_eq_true.mp hb p hp, rfl⟩
        · cases e
      · cases e

def sideEntry : DivEntry := { kind := .side, index := 44, mask := 0xFFFF, join := some 9 }

def mergeEntry : DivEntry := { kind := .merge, index := 9, mask := 0xFFFFFFFF, join := none }

/-- A slot at its join whose stack is empty, the other slot running or not. -/
def atJoin (other : Bool) : State :=
  onG (branching 0 other) fun g => g.putSlotNow { g.slotNow with pc := 9, join := some 9 }

def otherEntry : DivEntry := { kind := .merge, index := 8, mask := 1, join := none }

/-- join away from a join and lend there; both at the join: the stack empty with the other slot running or not, a side
entry, a merge entry, a merge entry with the other slot still to come, an entry of another join; lend of the only slot
and of one of two. -/
theorem witness_LaneControl_join :
    (laneOk laneRich .join LaneF.zero ∧ laneOk laneRich .lend LaneF.zero ∧
      laneRich.g.slotNow.join ≠ some laneRich.g.slotNow.pc) ∧
    (let s := onG (branching 0 false) fun g => g.putSlotNow { g.slotNow with pc := 8, join := some 9 }
     laneOk s .lend LaneF.zero ∧ s.g.slotNow.join ≠ some s.g.slotNow.pc ∧ s.g.slotNow.join ≠ none) ∧
    (∀ o ∈ [true, false], laneOk (atJoin o) .join LaneF.zero ∧ laneOk (atJoin o) .lend LaneF.zero ∧
      (atJoin o).g.slotNow.join = some (atJoin o).g.slotNow.pc ∧ (atJoin o).g.lane.depth = 0 ∧
      (((atJoin o).g.slotOther.valid = true ∧ (atJoin o).g.slotOther.parked = false) ↔ o = true)) ∧
    (laneOk laneRich .lend LaneF.zero ∧ laneRich.g.slotNow.join = none ∧ laneRich.g.lane.depth = 0 ∧
      laneRich.g.slotOther.valid = false) ∧
    laneOk (branching 0 true) .lend LaneF.zero ∧ (branching 0 true).g.slotNow.join = none ∧
      (branching 0 true).g.slotOther.valid = true := by
  decide +kernel

theorem witness_LaneControl_entries :
    ∀ x ∈ [(sideEntry, false), (mergeEntry, false), (mergeEntry, true), (otherEntry, false), (otherEntry, true)],
      ∃ u e, topEntry (joining x.1 x.2) u e ∧ (e = x.1 ∧ laneOk (joining x.1 x.2) .join LaneF.zero ∧
        (joining x.1 x.2).g.slotNow.join = some (joining x.1 x.2).g.slotNow.pc ∧
        ((joining x.1 x.2).g.slotOther.valid = true ↔ x.2 = true)) := by
  simp only [List.forall_mem_cons, List.not_mem_nil, false_implies, implies_true, and_true]
  exact ⟨topEntry_of _ (by decide +kernel), topEntry_of _ (by decide +kernel), topEntry_of _ (by decide +kernel),
    topEntry_of _ (by decide +kernel), topEntry_of _ (by decide +kernel)⟩

/-! ### Witnesses: stack stream -/

def onI (s : State) (x : Instance → Instance) : State := { s with inst := x s.inst }

/-- An instance of a task with local SRAM; addresses in a1 (DRAM), a3 (local SRAM) and a stride of 8 in a4. -/
def stackState : State := onI ({ base with tasks := base.tasks.map fun (t : Task) =>
    { t with desc := { t.desc with loc := true } } } : State) fun i =>
  { i with a := (List.range 32).map fun n => if n = 1 then 0x9000 else if n = 3 then 0x100 else if n = 4 then 8 else 0 }

theorem witness_StackScalarInstructions : (8 : Half).toNat % 8 = 0 ∧ (4 : Half).toNat % 8 ≠ 0 ∧
    (readA stackState 1 + (0x80000000 : Half).signExtend 64).toNat % 8 = 0 ∧
    (readA stackState 1 + (0x7FFFFFFF : Half).signExtend 64).toNat % 8 ≠ 0 := by decide +kernel

/-- Accesses of a stack core that pass, with what holds of their places. -/
theorem splaces_some {α : Type} {r : Except Cause α × State} (P : α → State → Prop) [∀ ps t, Decidable (P ps t)]
    (h : (match r with
      | (.ok ps, t) => decide (P ps t)
      | _ => false) = true) : ∃ ps t, r = (.ok ps, t) ∧ P ps t := by
  obtain ⟨c, t⟩ := r
  cases c with
  | ok ps => exact ⟨ps, t, rfl, by simpa using h⟩
  | error => simp at h

theorem stackReads_some {s : State} {ls : Bool} {n : Nat} {os : List Word}
    (h : ∃ ps t, s.stackChecks ls n false os = (.ok ps, t) ∧ ∀ p ∈ ps, (t.stackTouch ps).stackBad p = false) :
    ∃ u xs, stackReads s ls n os u xs :=
  have ⟨ps, t, e, hb⟩ := h
  ⟨_, _, ps, t, e, rfl, hb, rfl⟩

/-- A load of 8 bytes of DRAM, and vector loads of the SRAM at stride 4 and of DRAM at stride 8. -/
theorem witness_StackLoads :
    (∃ u xs, stackReads stackState false (2 ^ ((6 : BitVec 3).toNat / 2)) [readA stackState 1 + (8 : Half).signExtend 64] u xs) ∧
    (∃ u xs, stackReads stackState true 4 ((List.range 16).map fun n =>
      readA stackState 3 + (0 : Half).signExtend 64 + BitVec.ofNat 64 n * 4) u xs) ∧
    ∃ u xs, stackReads stackState false 4 ((List.range 16).map fun n =>
      readA stackState 1 + (0 : Half).signExtend 64 + BitVec.ofNat 64 n * readA stackState 4) u xs :=
  ⟨stackReads_some (splaces_some _ (by decide +kernel)), stackReads_some (splaces_some _ (by decide +kernel)), stackReads_some (splaces_some _ (by decide +kernel))⟩

theorem witness_StackStores :
    (∃ p u, stackState.stackCheck false (readA stackState 1 + (8 : Half).signExtend 64) (2 ^ (3 : BitVec 2).toNat) true = (.ok p, u) ∧
      memoriesWf stackState = true ∧ homesWf stackState = true) ∧
    (∃ ps u, stackState.stackChecks true 4 true ((List.range 16).map fun n =>
      readA stackState 3 + (0 : Half).signExtend 64 + BitVec.ofNat 64 n * 4) = (.ok ps, u) ∧ memoriesWf stackState = true) ∧
    ∃ ps u, stackState.stackChecks false 4 true ((List.range 16).map fun n =>
      readA stackState 1 + (0 : Half).signExtend 64 + BitVec.ofNat 64 n * readA stackState 4) = (.ok ps, u) ∧
        memoriesWf stackState = true :=
  ⟨splaces_some _ (by decide +kernel), splaces_some _ (by decide +kernel), splaces_some _ (by decide +kernel)⟩

/-- Both sides of each condition on the rounding field, FTZ and the code of a conversion. -/
theorem witness_StackVectorInstructions :
    ((4 : BitVec 3).toNat ≤ 4 ∧ ¬ (5 : BitVec 3).toNat ≤ 4) ∧ ((9 : BitVec 4).toNat ≤ 9 ∧ ¬ (10 : BitVec 4).toNat ≤ 9) ∧
    ((2 : BitVec 4).toNat ∈ [2, 3, 6, 7] ∧ (8 : BitVec 4).toNat ∉ [2, 3, 6, 7]) := by decide

/-- An instance with two full and two empty mailboxes; a9 holds a selector. -/
def mailing (x : Word) : State := onI stackState fun i =>
  { i with
    a := i.a.set 9 x
    mail := [false, true, false, true].map fun f => { full := f, msg := List.replicate 16 5, rcvd := 255, sstack := 2, score := 3 } }

/-- Own and other mailboxes at both ends of their range, full and empty; masks with and without a full one; selectors with
a bit too many. -/
theorem witness_StackMailboxesAndControl :
    (boxAt (readA (mailing 0) 9) 0 (0 * 4 + 0) ∧ (mailing 0).inst.die = 0 ∧ (mailing 0).inst.core = 0 ∧
      (∃ x, (mailing 0).instanceOf (mailing 0).inst.task 0 0 = some x ∧ (x.state ≠ .ended ∧ 3 < x.mail.length ∧
        (x.mail.getD 0 Mailbox.empty).full = false ∧ (x.mail.getD 3 Mailbox.empty).full = true))) ∧
    boxAt (readA (mailing 3) 9) 0 (0 * 4 + 3) ∧
    ((readA (mailing 15) 9).toNat < 16 ∧ ((List.range 4).filter fun i => (readA (mailing 15) 9).getLsbD i &&
      ((mailing 15).inst.mail.getD i Mailbox.empty).full) ≠ [] ∧
      ((List.range 4).filter fun i => (readA (mailing 5) 9).getLsbD i &&
      ((mailing 5).inst.mail.getD i Mailbox.empty).full) = [] ∧ readA (mailing 5) 9 ≠ 0 ∧ readA (mailing 0) 9 = 0) ∧
    boxAt (readA (mailing 0x73F) 9) 7 63 ∧ 63 / 4 ≠ (mailing 0x73F).inst.core ∧
    (∃ p u, stackState.stackCheck false (readA stackState 1) 8 true = (.ok p, u) ∧
      (p = .phys 0x9000 ∧ inWindow 0x9000 = false ∧ u.badSector true 0x9000 8 = none ∧ homesWf stackState = true)) ∧
    (scsrListed 0x020 = true ∧ scsrListed 0xFFF = false) ∧ (∃ k, stackState.myTask = some k ∧ 0 < k.count) := by
  refine ⟨⟨by decide +kernel, by decide +kernel, by decide +kernel, some_of _ (by decide +kernel)⟩, by decide +kernel,
    by decide +kernel, by decide +kernel, by decide +kernel, splaces_some _ (by decide +kernel), by decide +kernel,
    some_of _ (by decide +kernel)⟩

/-- Selectors that name no mailbox: bit 6 and bit 11. -/
theorem witness_StackMailboxesAndControl_seg : ∀ die n, ¬ boxAt 0x40 die n ∧ ¬ boxAt 0x800 die n := by
  refine fun die n => ⟨fun ⟨hn, hd, h⟩ => ?_, fun ⟨hn, hd, h⟩ => ?_⟩ <;>
  · have := congrArg BitVec.toNat h
    simp at this
    omega

/-- A gang with a turn; a stack core running an instance of a task, in whose failing cycle a higher rank trapped. -/
theorem witness_FetchFaultsAndStackTraps : base.g.status ≠ .absent ∧ stackState.inst.state = .running ∧
    ∃ k, stackState.myTask = some k ∧ (k.state ≠ .failing ∧ stackState.inst.state ≠ .absent) :=
  ⟨by decide +kernel, by decide +kernel, some_of _ (by decide +kernel)⟩

/-! ### Witnesses: events of gangs, engines and stores -/

/-- iadd v24, latch 0, v1. -/
def chainedWord : LaneF := { wordOf .iadd 24 0 with sa := 0x40, sb := 1 }

/-- The word above at the issuing index, its latch valid, v1 in flight. -/
def chained : State :=
  onG { State.reset.withFetchWord 96 (leNat (encode (.iadd chainedWord))) with agenda := [] } fun g =>
    { g with
      latches := g.latches.set 0 { valid := true, vals := List.replicate 32 3 }
      pend := [⟨9, .smm, [], [g.slotOf 1], 0, none⟩] }

/-- A reply of a unit: lanes 0 and 31 of v3, lane 31 made dead, and latch 1. -/
def replyOf (kind : PendKind) : Pend :=
  { id := 5, kind := kind, writes := [(3, 0, 9), (3, 31, 9)], regs := [3], dead := 0x80000000,
    latch := some (1, List.replicate 32 7) }

def replying (kind : PendKind) : State := onG laneRich fun g =>
  { g with pend := [replyOf kind], ifc := [{ path := .xf, id := 5, done := false }] }

/-- Each event with its condition: a wait that has come about and one that has not, a hold that is over, a chain held for
4 cycles, a block that can start, a reply of each unit, and another gang. -/
theorem witness_GangEventsAct :
    (let s := onG base fun g => { g with wait := some .stores }
     hasTurn s ∧ s.g.wait = some .stores ∧ Wait.stores.carries = false ∧ s.g.ust = 0 ∧
       (onG s fun g => { g with ust := 1 }).g.ust ≠ 0) ∧
    (hasTurn base ∧ base.g.yieldUntil ≤ base.cycle) ∧
    (let s := { chained with cycle := chained.g.laneAge + 4 }
     hasTurn s ∧ s.chainHeld = true ∧ s.g.laneAge + 4 ≤ s.cycle) ∧
    (let s := onG base fun g => { g with lane := { g.lane with queue := [⟨0xFFFFFF, []⟩] } }
     hasTurn s ∧ s.g.lane.queue = [⟨0xFFFFFF, []⟩] ∧ s.g.lane.running = false ∧ s.g.level = .u ∧ s.g.status = .run) ∧
    (hasTurn (replying .load) ∧ (∀ w ∈ (replyOf .load).writes, (replying .load).g.res ≤ w.1) ∧
      findBy (fun (x : Pend) => x.id == 5 && x.kind == .load) (replying .load).g.pend = some (replyOf .load) ∧
      (replying .smm).g.oldest .smm = some (replyOf .smm) ∧ (replying .xfm).g.oldest .xfm = some (replyOf .xfm) ∧
      (replying .xfm).g.ifc.filter (fun e => e.path == .xf) = [{ path := .xf, id := 5, done := false }]) ∧
    (∃ c, base.myCrew = some c ∧ c.state = .running) ∧
    (let s := twoGangs base
     ({ crew := 1, idx := 1 } : GangRef) ≠ s.g.ref ∧ (s.gang { crew := 1, idx := 1 }).isSome = true ∧
      hasTurn (s.bring { crew := 1, idx := 1 })) := by
  refine ⟨by decide +kernel, by decide +kernel, by decide +kernel, by decide +kernel, by decide +kernel,
    some_of _ (by decide +kernel), by decide +kernel⟩

/-- A core with a grant queue that has been stuck since cycle 0, bank 2 gated. -/
def coreOf (l : List Grant) : Core :=
  { id := 0, l1 := [], code := [], rot := 0, queue := [], grants := l, stuckSince := some 0, gated := [2], shadowBank := [],
    admitAt := 0 }

/-- The gang waits for a grant of n units. -/
def granting (n : Nat) : State :=
  onG { base with cores := [coreOf [{ gang := base.g.ref, n := n, racq := false, kd := 8 }]], cycle := 1024 } fun g =>
    { g with wait := some .grant, trapVec := 0x9000 }

/-- `base` with a kernel whose full allotment is the largest. -/
def wide : State :=
  withK { base with kernels := base.kernels.map fun (k : Kernel) => { k with desc := { k.desc with full := 64 } } } [(9, 56), (10, 7)]

theorem witness_AllotmentsAndGrants :
    (sound wide 9 ∧ 0 < (wide.getK 9).toNat ∧ wide.g.allot + (wide.getK 9).toNat ≤ 64 ∧ (wide.core wide.g.core).grants = [] ∧
      wide.g.cost (wide.getK 9).toNat ≤ wide.poolFree wide.g.core ∧ wide.g.status = .run ∧ wide.g.shadow = none) ∧
    (0 < wide.fullUnits - wide.g.allot ∧ wide.fullUnits ≤ 64 ∧
      wide.g.cost (wide.fullUnits - wide.g.allot) ≤ wide.poolFree wide.g.core) ∧ wide.getK 0 = 0 ∧
    (sound wide 10 ∧ (wide.getK 10).toNat < wide.g.allot ∧ wide.g.laneIdle = true ∧ wide.g.pend = [] ∧
      wide.g.win + min 64 (8 * (wide.g.allot - (wide.getK 10).toNat)) ≤ wide.g.res + 8 * (wide.g.allot - (wide.getK 10).toNat)) ∧
    (hasTurn (granting 56) ∧ ((granting 56).core 0).grants = [{ gang := base.g.ref, n := 56, racq := false, kd := 8 }] ∧
      (granting 56).g.core = 0 ∧ (granting 56).g.cost 56 ≤ (granting 56).poolFree 0 ∧ (granting 56).g.shadow = none ∧
      (granting 56).g.stepOne = none) ∧
    (let s := granting 300
     let l := (s.core 0).grants
     (s.core 0).stuckSince = some 0 ∧ 0 + 1024 ≤ s.cycle ∧ s.stuck 0 = true ∧ (l.map Grant.gang).Nodup ∧
       (s.allGangs.map Gang.ref).Nodup ∧ ∀ x ∈ l, s.gang x.gang = some s.g ∧ s.g.core = 0 ∧ s.g.wait = some .grant ∧
         s.g.level = .u ∧ s.g.trapVec ≠ 0 ∧ s.g.dbgHaltTrap = false ∧ s.g.stepOne = none ∧ s.g.shadow = none ∧
         ∀ c ∈ s.crews, c.version.versioned = false) ∧
    (15 < 16 ∧ (granting 56).bankFree 0 15 = 16 ∧ 15 ∉ ((granting 56).core 0).gated) := by decide +kernel

/-! ### Copies that land -/

def copyOf (act : CopyAct) : CopyOp :=
  { id := 7, gang := base.g.ref, batch := 1, act := act, work := none, lines := [], lost := [], direct := [], used := [],
    delivered := 0, dropped := 0, squashed := false, replayed := false, void := false }

def copying (act : CopyAct) : State :=
  onG { rich with copies := [copyOf act], crews := rich.crews.map fun (c : Crew) => { c with begun := true } } fun g =>
    { g with sealed := 1, ifc := [{ path := .cp, id := 7, done := false }] }

def atRestB (s : State) (p : Place) : Bool :=
  match p with
  | .phys _ => true
  | .bank e h _ => (s.page e h).any fun q => decide (q.state = .pinned ∧ q.port = [] ∧ q.owner = none)

theorem atRest_of {s : State} {p : Place} (h : atRestB s p = true) : atRest s p := by
  unfold atRestB at h
  unfold atRest
  split <;> simp_all [Option.any_eq_true]

/-- The conditions of `canLand` where no page has anything at its port and no mtx is in flight. -/
theorem canLand_of {s : State} {c : CopyOp} {g : Gang} {src dst : List Place}
    (h : c ∈ s.copies ∧ (∀ x ∈ s.copies, x.id = c.id → x = c) ∧
      (∀ x ∈ s.copies, x.gang = c.gang → x.squashed = true ∨ c.id ≤ x.id) ∧ c.work = none ∧ c.squashed = false ∧
      c.void = false ∧ s.gang c.gang = some g ∧ g.ref = c.gang ∧ (s.allGangs.map Gang.ref).Nodup ∧
      g.ifc.filter (fun e => e.path == .cp) = [{ path := .cp, id := c.id, done := false }])
    (h' : (∀ x ∈ s.crews, x.state = .running) ∧ (s.crews.map Crew.id).Nodup ∧ memoriesWf s = true ∧ homesWf s = true ∧
      s.mxs = [])
    (hp : ∀ x ∈ s.crews, ∀ p ∈ x.pages, p.port = [])
    (hr : ((src ++ dst).all fun p => atRestB s p) = true) (hb : (src.all fun p => !s.gangBad c.gang.crew 0 false p) = true) :
    canLand s c g src dst := by
  obtain ⟨h1, h2, h3, h4, h5, h6, h7, h8, h9, h10⟩ := h
  obtain ⟨k1, k2, k3, k4, k5⟩ := h'
  refine ⟨h1, h2, h3, h4, h5, h6, h7, h8, h9, ⟨[], h10, by simp⟩, k1, k2, k3, k4, ?_, ?_, ?_, ?_⟩
  · intro x hx p hq o ho
    simp [hp x hx p hq] at ho
  · exact fun p hq => atRest_of (List.all_eq_true.mp hr p hq)
  · exact fun p hq => by simpa using List.all_eq_true.mp hb p hq
  · simp [k5]

/-- Four bytes of G to the storage bank, and to G itself; a run of 8 elements, with a scale, to the last slots of the last
column of the compute bank. -/
def lanesAct (dst : Nat → Place) (s2g : Bool) : CopyAct :=
  .lanes [(0, (List.range 4).map fun i => .phys (0x8000 + i), (List.range 4).map dst)] [0x8000] 4 s2g none

def transposeAct : CopyAct :=
  .transpose [(0, (List.range 8).map fun i => .phys (0x8000 + i), 255, 120, 5)] [0x8000] 8 false true none

theorem witness_CopiesLand :
    (let c := copyOf (lanesAct (fun i => .bank 1 1 i) false)
     canLand (copying c.act) c (copying c.act).g ((List.range 4).map fun i => .phys (0x8000 + i))
       ((List.range 4).map fun i => .bank 1 1 i)) ∧
    (let c := copyOf (lanesAct (fun i => .phys (0x9000 + i)) true)
     canLand (copying c.act) c (copying c.act).g ((List.range 4).map fun i => .phys (0x8000 + i))
       ((List.range 4).map fun i => .phys (0x9000 + i)) ∧ (copying c.act).versionOpen c.gang.crew = false) ∧
    (let c := copyOf transposeAct
     canLand (copying c.act) c (copying c.act).g ((List.range 8).map fun i => .phys (0x8000 + i))
       ((List.range 64).map fun i => .bank 1 0 (32 * (8 * 120 + i) + 255 / 8))) :=
  ⟨canLand_of (by decide +kernel) (by decide +kernel) (by decide +kernel) (by decide +kernel) (by decide +kernel),
    ⟨canLand_of (by decide +kernel) (by decide +kernel) (by decide +kernel) (by decide +kernel) (by decide +kernel),
      by decide +kernel⟩,
    canLand_of (by decide +kernel) (by decide +kernel) (by decide +kernel) (by decide +kernel) (by decide +kernel)⟩

/-- A multicast of the first line of scratch to one receiver of stage 0, or with none left. -/
def castAct (left : List Nat) (data : List Byte) : CopyAct := .multicast 0 128 0x400 none 0 [0] left data []

def casting (left : List Nat) (data : List Byte) (begun : Bool) : State :=
  onCrew (copying (castAct left data)) fun c => { c with begun := begun }

/-- The crew that a multicast of crew x to stage 0 and a rank names. -/
def castTo (s : State) (r : Nat) : List Crew :=
  s.crews.filter fun y => s.crews.all fun x => y.kernel == x.kernel && y.die == x.die && y.cluster == x.cluster &&
    y.stage == 0 && y.rank == r

/-- A multicast with its source at rest and no such receiver, one that has not begun, one that has; one with no receiver
left; an operation of a matrix at the head of its port, its page PINNED or not. -/
theorem witness_MulticastsAndMatrixStart :
    (∀ r ∈ [0, 5], ∀ b ∈ [true, false],
      let s := casting [r] [] b
      let c := copyOf (castAct [r] [])
      canLand s c s.g ((List.range 128).map fun i => .bank 1 (scratchHandle 2 (0 + i)) (scratchByte (0 + i))) []) ∧
    castTo (casting [5] [] true) 5 = [] ∧ (castTo (casting [0] [] true) 0).map Crew.begun = [true] ∧
    (castTo (casting [0] [] false) 0).map Crew.begun = [false] ∧
    (let s := casting [] [1] true
     canLand s (copyOf (castAct [] [1])) s.g [] []) := by
  refine ⟨?_, by decide +kernel, by decide +kernel, by decide +kernel,
    canLand_of (by decide +kernel) (by decide +kernel) (by decide +kernel) (by decide +kernel) (by decide +kernel)⟩
  simp only [List.forall_mem_cons, List.not_mem_nil, false_implies, implies_true, and_true]
  exact ⟨⟨canLand_of (by decide +kernel) (by decide +kernel) (by decide +kernel) (by decide +kernel) (by decide +kernel),
    canLand_of (by decide +kernel) (by decide +kernel) (by decide +kernel) (by decide +kernel) (by decide +kernel)⟩,
    canLand_of (by decide +kernel) (by decide +kernel) (by decide +kernel) (by decide +kernel) (by decide +kernel),
    canLand_of (by decide +kernel) (by decide +kernel) (by decide +kernel) (by decide +kernel) (by decide +kernel)⟩

/-- A matrix operation at the head of the port of bank 0. -/
def mclrOf (started : Bool) : MxOp :=
  { id := 7, gang := base.g.ref, kind := .mclr, block := [], desc := 0, banks := [0], active := [], pages := [(1, 0)],
    started := started }

def portOf (act : BankAct) (started : Bool) : State :=
  { onCrew rich fun c => { c with pages := c.pages.map fun (p : Page) => { p with port := [⟨7, rich.g.ref, act, 0⟩] } } with
    mxs := [mclrOf started] }

theorem witness_MatrixStart :
    findBy (fun (x : MxOp) => x.id == 7) (portOf (.mx 7) false).mxs = some (mclrOf false) ∧ (mclrOf false).started = false ∧
    ((portOf (.mx 7) false).page 1 0).any (fun p => p.port == [⟨7, rich.g.ref, .mx 7, 0⟩] && p.owner == none &&
      p.state == .pinned) = true := by decide +kernel

theorem witness_StoresKeepCanonicalForm : memoriesWf rich = true ∧ homesWf rich = true ∧
    memoriesWf (mem rich 0x9000 [1, 2, 3]) = true ∧ homesWf (mem rich 0x9000 [1, 2, 3]) = true := by
  decide +kernel

theorem witness_StoppedStays : stopped State.reset :=
  ⟨.inl ⟨by decide +kernel, by decide +kernel, by decide +kernel⟩, by unfold empty; decide +kernel, by decide +kernel⟩

theorem witness_ListedStays : listed State.reset := by unfold listed; decide +kernel

/-! ### Witnesses: contexts, queues, crews, tasks -/

/-- A descriptor at 0x12000: ASID 5, compute die 0, one queue, 80 MiB of save area. -/
def descriptor : List Byte := leBytes 128 (5 + 2 ^ 24 + 2 ^ 192 + 0x5000000 * 2 ^ 320)

def described : State := mem base 0x12000 descriptor

def contextOf (st : CtxState) (destroying : Bool) : Ctx :=
  { ctxOf 0x12000 descriptor 0 with state := st, destroying := destroying }

def withContext (st : CtxState) (destroying : Bool) : State :=
  { described with ctxs := described.ctxs ++ [contextOf st destroying] }

def noOwner (o : Option Owner) (asid mine : Nat) : Bool :=
  match o with
  | some (.command a _ _) => decide (mine = asid ↔ a = asid)
  | _ => true

theorem owned_of {s : State} {asid : Nat}
    (h : (s.kernels.map Kernel.serial).Nodup ∧ (s.crews.map Crew.id).Nodup ∧ (s.aggregates.map Aggregate.id).Nodup ∧
      (s.tasks.map Task.serial).Nodup ∧ ∀ x ∈ s.crews, ∃ k ∈ s.kernels, k.serial = x.kernel)
    (hk : (s.kernels.all fun k => noOwner k.owner asid k.asid) = true)
    (ht : (s.tasks.all fun k => noOwner (some k.owner) asid k.asid) = true) : owned s asid := by
  refine ⟨h.1, h.2.1, h.2.2.1, h.2.2.2.1, h.2.2.2.2, fun k hm a q i e => ?_, fun k hm a q i e => ?_⟩
  · have := List.all_eq_true.mp hk k hm
    rw [e] at this
    simpa [noOwner] using this
  · have := List.all_eq_true.mp ht k hm
    rw [e] at this
    simpa [noOwner] using this

theorem quiet_of {s : State} {c : Ctx}
    (h : (s.crews.map Crew.id).Nodup ∧ (c.queues.map Queue.num).Nodup ∧ (s.allGangs.map Gang.ref).Nodup ∧
      (s.rings.map fun r => (r.asid, r.land)).Nodup ∧
      ∀ x ∈ s.crews, s.asidOf x.id = c.asid → (x.state = .starting ∨ x.state = .running) → s.pagesCovered x = true)
    (hi : ∀ x ∈ s.allInsts, (s.task x.task).all (fun k => decide (k.state ≠ .failing ∧ s.canSave x = true)) = true) :
    quiet s c := by
  refine ⟨h.1, h.2.1, h.2.2.1, h.2.2.2.1, h.2.2.2.2, fun x hx _ k e _ => ?_⟩
  have := hi x hx
  rw [e] at this
  simpa using this

/-- The context of `base`, with a save area that covers its crew's pages. -/
def running : State := onCtx rich fun c => { c with dieMask := 1, saveSize := 0x10300000 }

def runningCtx : Ctx := { wordCtx with dieMask := 1, saveSize := 0x10300000 }

/-- CREATE: a bad level, a busy port, a descriptor that cannot be read, a bad one, one whose ASID is in use, a good one;
the other commands without a context there. -/
theorem witness_ContextControl_create :
    (({ base with cp := { base.cp with busy := true } } : State).cp.busy = true ∧ HostLevel.s ≠ .u) ∧
    (ready described .s 0x12000 ∧ described.ctxAt 0x12000 = none ∧ described.cpPhys 0x12000 128 = some descriptor ∧
      goodDesc descriptor ∧ described.ctx (at_ descriptor 0 2) = none) ∧
    (ready described .m 0xFFFFFFFFFFF80 ∧ described.ctxAt 0xFFFFFFFFFFF80 = none ∧
      (described.cpPhys 0xFFFFFFFFFFF80 128).isNone = true) ∧
    (described.cpPhys 0x13000 128 = some (List.replicate 128 0) ∧ ¬goodDesc (List.replicate 128 0) ∧
      goodDesc (leBytes 128 (1 + 2 ^ 24 + 2 ^ 192)) ∧ base.ctx (at_ (leBytes 128 (1 + 2 ^ 24 + 2 ^ 192)) 0 2) ≠ none) ∧
    (0 = (0x10 : Word).toNat % 16 ∧ 15 = (0xF : Word).toNat % 16 ∧ 5 < 15) := by
  unfold goodDesc
  decide +kernel

/-- Each state of a context with each command; refusals with codes 2, 3 and 4; and contexts that pass. -/
theorem witness_ContextControl :
    (∀ st ∈ [CtxState.created, .active, .quiescing, .quiesced, .faulted],
      names (withContext st false) 0x12000 (contextOf st false) ∧ ready (withContext st false) .m 0x12000 ∧
        (contextOf st false).state = st) ∧
    ((withContext .created false).cpPhys 0x12000 128 = some descriptor ∧
      refusal (withContext .created false) (contextOf .created false) descriptor false = none ∧
      refusal (withContext .quiesced false) (contextOf .quiesced false) descriptor true = none ∧
      (withContext .created false).rings = [] ∧ homesWf (withContext .created false) = true) ∧
    [(5, 1, 2 ^ 192, 0x5000000), (6, 1, 2 ^ 192, 0x5000000), (5, 1, 2 ^ 192 + 2 ^ 528, 0x5000000), (5, 1, 2 ^ 192, 0)].map
        (fun x => refusal (withContext .created false) (contextOf .created false)
          (leBytes 128 (x.1 + x.2.1 * 2 ^ 24 + x.2.2.1 + x.2.2.2 * 2 ^ 320)) false) = [none, some 2, some 3, some 4] := by
  decide +kernel

/-- An ACTIVE context with a crew and an instance; contexts with every save done and not. -/
theorem witness_ContextControl_saves :
    (names running 0x10000 runningCtx ∧ ready running .s 0x10000 ∧ runningCtx.state = .active ∧ quiet running runningCtx ∧
      ¬savesDone running 1) ∧
    (∀ st ∈ [CtxState.created, .quiesced, .faulted, .quiescing], ∀ d ∈ [true, false],
      savesDone (withContext st d) 5 ∧ owned (withContext st d) 5 ∧ (withContext st d).ctx 5 = some (contextOf st d) ∧
        (contextOf st d).destroying = d) := by
  refine ⟨⟨by decide +kernel, by decide +kernel, by decide +kernel, quiet_of (by decide +kernel) (by decide +kernel), ?_⟩,
    fun st h d hd => ⟨?_, owned_of ?_ ?_ ?_, ?_⟩⟩
  · unfold savesDone
    decide +kernel
  · unfold savesDone
    revert st d
    decide +kernel
  all_goals
    revert st d
    decide +kernel

/-- A copy under a translation of the page at 0x8000. -/
def copyUnder : CopyOp := { copyOf (lanesAct (fun i => .phys (0x9000 + i)) true) with used := [(0x8000, 4096)] }

def pageTlbi (va : Nat) : Tlbi := { tlbiOf none 16 with all := false, va := va, port := true }

/-- CPTLBI for a context, for none and for ASID 0 of each level; an acknowledgement that may come, one that came, one held
by a copy of that page; an invalidation that times out, one that failed, one with every acknowledgement. -/
theorem witness_TranslationsInvalidated :
    (({ base with cp := { base.cp with tlbiBusy := true } } : State).cp.tlbiBusy = true ∧ base.cp.tlbiBusy = false ∧
      base.ctx 5 = none ∧ base.ctx 1 ≠ none) ∧
    (∀ x ∈ [(pageTlbi 0x9000, 16), (tlbiOf none 3, 16)],
      let s : State := { base with tlbis := [x.1], copies := [copyUnder] }
      findBy (fun (t : Tlbi) => t.id == 7) s.tlbis = some x.1 ∧ x.2 < 17 ∧ x.2 ∉ x.1.acked ∧
        (∀ y ∈ s.tlbis, y.id < x.1.id → x.2 ∈ y.acked) ∧ ∀ c ∈ s.copies, ∀ y ∈ s.crews, y.die ≠ x.2) ∧
    (0 ∈ (pageTlbi 0x8000).acked ∧ copyUnder.used = [(0x8000, 4096)] ∧ base.asidOf copyUnder.gang.crew = 1) ∧
    (let x := tlbiOf none 11
     let s := { awaiting x with cycle := 1000000 }
     findBy (fun (t : Tlbi) => t.id == 7) s.tlbis = some x ∧ (∀ a < 17, (0x1F800 : BitVec 17).getLsbD a = true ↔ a ∉ x.acked) ∧
       x.failed = none ∧ x.acked.length ≠ 17 ∧ x.start + 1000000 ≤ s.cycle ∧ (∃ c ∈ s.ctxs, s.ctx x.asid = some c ∧
         c.state = .active ∧ c.destroying = false) ∧ (s.crews.map Crew.id).Nodup ∧ (s.allGangs.map Gang.ref).Nodup ∧
       x.gang = some s.g.ref ∧ s.gang s.g.ref = some s.g ∧ s.g.wait = some (.tlbi x.id)) ∧
    ((tlbiOf (some 0x1F800) 11).failed ≠ none ∧ (tlbiOf none 17).acked.length = 17 ∧
      ({ base with ctxs := [] } : State).ctxActive 1 = false) := by decide +kernel

/-! ### Queues -/

/-- The smallest legal command of an op. -/
def commandOf (op flags : Nat) : Cmd :=
  { index := 0, bytes := leBytes 64 (op + flags * 2 ^ 8 + if op = 2 then 2 ^ 320 else 0), started := false, suspended := false,
    copied := 0, hurt := false }

def queueOf (kind : Nat) (st : QueueState) (failed : Bool) (cmds : List Cmd) : Queue :=
  { num := 0, ringBase := 0x14000, ringLog2 := 4, kind := kind, prio := 0, widxAddr := 0x15000, ridx := 1, state := st, error := 0,
    errorIdx := 0, cmds := cmds, failed := failed, rung := true }

def queued (q : Queue) : State := onCtx base fun c => { c with queues := [q] }

/-- A doorbell of a queue; the write index of an IDLE queue at the end of the ring, beyond it, behind, and unreadable. -/
theorem witness_QueuesRun_fetch :
    (let q := queueOf 0 .idle false []
     ∃ c, (queued q).ctx (field (0x10000 : Word) 16 12) = some c ∧ (c.state = .active ∧ c.destroying = false ∧
      field (0x10000 : Word) 0 6 < c.queueCount ∧ c.queue 0 = some q ∧ (queued q).ctxActive c.asid = true ∧
      q.state = .idle)) ∧
    (let q := { queueOf 0 .active false [commandOf 1 0] with rung := false }
     q.state ≠ .idle ∧ q.rung = false) ∧
    [(0, 0x15000), (1, 0x15000), (17, 0x15000), (18, 0x15000), (0, 0xFFFFFFFFFFF00)].map (fun x =>
        ((mem (queued (queueOf 0 .idle false [])) 0x15000 (leBytes 8 x.1)).cpPhys x.2 8).map leNat) =
      [some 0, some 1, some 17, some 18, none] ∧
    (homesWf (queued (queueOf 0 .idle false [])) = true ∧ 0x14000 % 64 = 0 ∧ ∀ i < 16, asunder (0x14000 + 64 * i) 64 0 64) ∧
    ((queued (queueOf 0 .idle false [])).ctx 5).isNone = true ∧ 1 ≤ field (1 : Word) 0 6 := by
  refine ⟨some_of _ (by decide +kernel), by decide +kernel, by decide +kernel, by decide +kernel, by decide +kernel⟩

/-- A command of each op that runs; a malformed one; one skipped after a failure, and a SIGNAL that is not. -/
theorem witness_QueuesRun_start :
    (∀ op ∈ [1, 2, 3, 4, 5], let q := queueOf (op - 1) .active true [commandOf op 0]
      (queued q).queue 1 0 = some q ∧ (queued q).arbitrate = some (0, 1 * 64 + 0) ∧ q.startable = some (commandOf op 0) ∧
        (q.cmds.map Cmd.index).Nodup ∧ (commandOf op 0).legal q.kind = true ∧ at_ (commandOf op 0).bytes 0 1 = op ∧
        (at_ (commandOf op 0).bytes 1 1).testBit 1 = false) ∧
    (let q := queueOf 5 .active true [commandOf 1 0]
     (queued q).arbitrate = some (0, 64) ∧ q.startable = some (commandOf 1 0) ∧ (commandOf 1 0).legal q.kind = false) ∧
    (∀ op ∈ [1, 5], let q := queueOf (op - 1) .active true [commandOf op 2]
      q.startable = some (commandOf op 2) ∧ (commandOf op 2).legal q.kind = true ∧
      (at_ (commandOf op 2).bytes 1 1).testBit 1 = true ∧ q.failed = true) := by
  decide +kernel

/-- Two queues of one priority, the second the next in turn. -/
def twoQueues : State :=
  { onCtx base fun c => { c with queueCount := 2, queues := [queueOf 0 .active false [commandOf 1 0],
      { queueOf 0 .active false [commandOf 1 0] with num := 1 }] } with rr := [(0, 64)] }

/-- A COPY of 16 bytes from 0x8000 to 0x9000 that has started. -/
def copyCommand : Cmd :=
  { commandOf 2 0 with bytes := leBytes 64 (2 + 0x8000 * 2 ^ 192 + 0x9000 * 2 ^ 256 + 16 * 2 ^ 320), started := true }

/-- Started WAIT and COPY commands, a COPY of which 4 bytes are done, and the round robin between two queues. -/
theorem witness_QueuesRun :
    twoQueues.arbitrate = some (0, 65) ∧
    (∀ op ∈ [4, 2], let c := { commandOf op 0 with started := true }
      (queued (queueOf 1 .active false [c])).startedCmd 1 0 0 op = some c) ∧
    (let s := queued (queueOf 1 .active false [copyCommand])
     s.startedCmd 1 0 0 2 = some copyCommand ∧ at_ copyCommand.bytes 0x28 8 - copyCommand.copied = 16 ∧
     (match s.resolve harbourAgent 1 0x8000 .read with
      | (.ok x, u) => x.1 == 0x8000 && (match u.resolve harbourAgent 1 0x9000 .write with
        | (.ok y, _) => y.1 == 0x9000
        | _ => false)
      | _ => false) = true) ∧
    (let s := queued (queueOf 1 .active false [{ copyCommand with bytes := leBytes 64 (2 + 0xFFFFFFFFF000 * 2 ^ 192 + 16 * 2 ^ 320) }])
     (s.copyBytes 1 3 0xFFFFFFFFF000 0 16 0 false).1.1.isSome = true) := by
  decide +kernel

/-! ### Saved chunks with matching tags -/

def zeroChunk : List Byte := List.replicate 4096 0

/-- The tag of chunk i of a slot whose chunks are zero, and its byte b (R364). -/
def tagByte (key : BitVec 128) (first i b : Nat) : Byte :=
  BitVec.ofNat 8 ((Config.kmac128 key (leBytes 8 (first + 4096 * i) ++ zeroChunk)).toNat / 256 ^ b)

/-- s with nothing in memory but the tags of zero chunks, as lines of an L2. -/
def tagsOf (s : State) (key : BitVec 128) (first n tags : Nat) : State :=
  { s with dram := [], poison := [], lostLinks := [], l2 := (List.range n).map fun j =>
      { num := tags / 128 + j, dirty := false, poison := [], mism := [],
        data := (List.range 128).map fun i => tagByte key first (8 * j + i / 16) (i % 16) } }

theorem findBy_range {α : Type} (p : α → Bool) (f : Nat → α) (j : Nat) (h : ∀ i, p (f i) = decide (i = j)) (n : Nat) :
    findBy p ((List.range n).map f) = if j < n then some (f j) else none := by
  have key : ∀ l : List Nat, findBy p (l.map f) = if j ∈ l then some (f j) else none := by
    intro l
    induction l with
    | nil => rfl
    | cons a l ih =>
      by_cases e : a = j
      · subst e; simp [findBy, h]
      · have e' : ¬ j = a := fun x => e x.symm
        simp [findBy, h, e, e', ih]
  simp [key]

theorem leNat_map (x : Nat) : ∀ n, leNat ((List.range n).map fun i => BitVec.ofNat 8 (x / 256 ^ i)) = x % 256 ^ n := by
  intro n
  induction n generalizing x with
  | zero => simp [leNat, Nat.mod_one]
  | succ n ih =>
    rw [List.range_succ_eq_map, List.map_cons, List.map_map, leNat]
    have : ((fun i => BitVec.ofNat 8 (x / 256 ^ i)) ∘ Nat.succ) = fun i => BitVec.ofNat 8 (x / 256 / 256 ^ i) := by
      funext i
      simp only [Function.comp, Nat.succ_eq_add_one, Nat.pow_succ, Nat.div_div_eq_div_mul, Nat.mul_comm]
    rw [this, ih]
    have e : x % 256 ^ (n + 1) = x % 256 + 256 * (x / 256 % 256 ^ n) := by rw [Nat.pow_succ, Nat.mul_comm, Nat.mod_mul]
    rw [e, Nat.pow_zero, Nat.div_one, BitVec.toNat_ofNat]

section
variable {s : State} {key : BitVec 128} {first n tags : Nat}

theorem tagsOf_line {a : Nat} (q : Nat) (hq : q < n) (ha : a / 128 = tags / 128 + q) :
    (tagsOf s key first n tags).l2Line a = some
      { num := tags / 128 + q, dirty := false, poison := [], mism := [],
        data := (List.range 128).map fun i => tagByte key first (8 * q + i / 16) (i % 16) } := by
  unfold State.l2Line tagsOf
  rw [findBy_range _ _ q (by intro i; rw [Bool.eq_iff_iff]; simp [ha]), if_pos hq]

theorem tagsOf_none {a : Nat} (ha : a < tags) (ht : tags % 128 = 0) : (tagsOf s key first n tags).l2Line a = none := by
  unfold State.l2Line tagsOf
  have : ∀ l : List Nat, findBy (fun (x : Line) => x.num == a / 128) (l.map fun j => ({
      num := tags / 128 + j, dirty := false, poison := [], mism := [],
      data := (List.range 128).map fun i => tagByte key first (8 * j + i / 16) (i % 16) } : Line)) = none := by
    intro l
    induction l with
    | nil => rfl
    | cons j l ih =>
      have : ¬ tags / 128 + j = a / 128 := by omega
      simp [findBy, this, ih]
  exact this _

theorem tagsOf_zero {a : Nat} (ha : a < tags) (ht : tags % 128 = 0) (hw : inWindow a = false) :
    (tagsOf s key first n tags).homeByte a = 0 := by
  rw [State.homeByte, hw, tagsOf_none ha ht]
  simp only [Bool.false_eq_true, if_false, State.dramByte]
  split <;> rfl

theorem tagsOf_clean {a : Nat} : (tagsOf s key first n tags).homePoison a = false := by
  unfold State.homePoison
  split
  · rfl
  · split
    · rename_i l e
      have : l.poison = [] := by
        unfold State.l2Line tagsOf at e
        have : ∀ (ls : List Nat), findBy (fun (x : Line) => x.num == a / 128) (ls.map fun j => ({
            num := tags / 128 + j, dirty := false, poison := [], mism := [],
            data := (List.range 128).map fun i => tagByte key first (8 * j + i / 16) (i % 16) } : Line)) = some l → l.poison = [] := by
          intro ls
          induction ls with
          | nil => intro h; cases h
          | cons j ls ih =>
            intro h
            simp only [List.map_cons, findBy] at h
            split at h
            · cases h; rfl
            · exact ih h
        exact this _ e
      simp [this]
    · unfold State.dramPoison
      split <;> simp [tagsOf]

/-- n zero chunks below the chunk of their tags, outside the harbour window, are sound (R38, R365). -/
theorem tagsOf_chunksOk (x : Ctx) (hk : x.key = key) (ht : tags % 128 = 0) (hb : first + 4096 * n ≤ tags)
    (hw : tags + 16 * n < 2 ^ 36 - 2 ^ 20) : chunksOk (tagsOf s key first n tags) x first n tags := by
  refine ⟨fun a _ => tagsOf_clean, fun i hi => ⟨fun a _ => tagsOf_clean, ?_⟩⟩
  have zeros : (tagsOf s key first n tags).homeBytes (first + 4096 * i) 4096 = zeroChunk := by
    unfold State.homeBytes zeroChunk
    rw [List.map_eq_replicate_iff.mpr, List.length_range]
    intro b hb'
    rw [List.mem_range] at hb'
    have : first + 4096 * i + b < tags := by nlinarith
    exact tagsOf_zero this ht (by simp [inWindow]; omega)
  unfold tagged
  rw [zeros, hk]
  unfold State.homeVal State.homeBytes
  have bytes : (List.range 16).map (fun b => (tagsOf s key first n tags).homeByte (tags + 16 * i + b))
      = (List.range 16).map fun b => tagByte key first i b := by
    apply List.map_congr_left
    intro b hb'
    rw [List.mem_range] at hb'
    have hq : (tags + 16 * i + b) / 128 = tags / 128 + i / 8 := by omega
    have hm : (tags + 16 * i + b) % 128 = 16 * (i % 8) + b := by omega
    rw [State.homeByte, show inWindow (tags + 16 * i + b) = false by simp [inWindow]; omega,
      tagsOf_line (i / 8) (by omega) hq]
    simp only [Bool.false_eq_true, if_false, hm]
    have h1 : 16 * (i % 8) + b < 128 := by omega
    rw [List.getD_eq_getElem?_getD, List.getElem?_map, List.getElem?_range h1]
    simp only [Option.map_some, Option.getD_some]
    have e1 : 8 * (i / 8) + (16 * (i % 8) + b) / 16 = i := by omega
    have e2 : (16 * (i % 8) + b) % 16 = b := by omega
    rw [e1, e2]
  rw [bytes]
  unfold tagByte
  generalize Config.kmac128 key (leBytes 8 (first + 4096 * i) ++ zeroChunk) = t
  rw [leNat_map t.toNat 16]
  exact Nat.mod_eq_of_lt (lt_of_lt_of_eq t.isLt (by norm_num))
end

/-! ### Crews and tasks -/

/-- A second crew, of the same kernel, in the queue of core 0. -/
def arriving (st : CrewState) : Crew := { (base.crews.headD (wordCrew)) with id := 2, state := st, prio := 3 }

def queueing (st : CrewState) (units : Nat) : State :=
  { base with
    crews := base.crews ++ [arriving st]
    kernels := base.kernels.map fun (k : Kernel) => { k with desc := { k.desc with prologue := units } }
    cores := [{ coreOf [] with queue := [2], gated := [], stuckSince := none }]
    ctxs := base.ctxs.map fun (c : Ctx) => { c with saveSize := 0x5000000 } }

/-- `rich` with the crew's pages in a state and the crew in a state. -/
def crewIn (st : CrewState) (ps : PageState) : State :=
  onCrew rich fun c => { c with state := st, pages := c.pages.map fun (p : Page) => { p with state := ps } }

theorem stores_of {s : State} {pa n : Nat} (h : s.rgn.active = [wordRegion]) (hb : pa + n ≤ 2 ^ 21) : stores s pa n := by
  intro i hi
  have size : rgnBytes wordRegion = 2 ^ 21 := by decide +kernel
  have e : rgnCovers wordRegion (pa + i) = true := by
    rw [rgnCovers, size]
    simp [wordRegion]
    omega
  exact ⟨by simp [State.regionOf, h, findBy, e], by simp [inWindow]; omega⟩

/-- A STARTING crew that has begun, or has not. -/
def starts (b : Bool) : Bool :=
  ((onCrew (queueing .starting 8) fun c => { c with begun := b }).crew 2).any fun c => c.state == .starting && c.begun == b

/-- `merging` once the time of its aggregate is over, with the aggregate closed. -/
def closing : State := { merging with cycle := 2000, aggregates := [] }

def closes (a : Aggregate) : Bool :=
  merging.ctxActive a.asid && !a.children.isEmpty && decide (a.opened + 2000 ≤ closing.cycle) &&
    (closing.checkChildren a.asid a.raw a.children).1.all fun x => x.2.isNone

/-- An aggregate whose time is over, its children sound. -/
theorem witness_CrewsComeAndGo_close : merging.aggregates.map closes = [true] := by decide +kernel

/-- A head that is admitted, and one that does not pass; a crew woken for the first time and again. -/
theorem witness_CrewsComeAndGo_admit :
    (let s := queueing .waiting 8
     s.headOf 0 = some (arriving .waiting) ∧ s.crew 2 = some (arriving .waiting) ∧ (s.kernel 1).isSome = true ∧
      (s.ctx 1).isSome = true ∧ (s.dealSlots 0 [] false 1 (s.core 0).rot []).isSome = true ∧
      s.passes (arriving .waiting) [] = true ∧ s.distributorReady 0 = true ∧ ∀ g ∈ s.g :: s.gangs, g.ref.crew ≠ 2) ∧
    (queueing .waiting 250).passes (arriving .waiting) [] = false ∧ starts true = true ∧ starts false = true := by
  decide +kernel

/-- A head that pre-empts one crew; a drained crew; one in the shadow bank, of an ACTIVE and of a QUIESCING context; one
whose copies are squashed; pages that unpin. -/
theorem witness_CrewsComeAndGo_save :
    (let s := queueing .waiting 250
     s.headOf 0 = some (arriving .waiting) ∧ (s.crews.map Crew.id).Nodup ∧ (s.allGangs.map Gang.ref).Nodup ∧
      s.passes (arriving .waiting) [] = false ∧ s.candidates (arriving .waiting) = [1] ∧
      s.passes (arriving .waiting) [1] = true) ∧
    (let s : State := { crewIn .stopping .pinned with cycle := 96 }
     ∃ c, s.crew 1 = some c ∧ (c.state = .stopping ∧ c.stopAt + 96 ≤ s.cycle ∧ s.lanesQuiet c = true ∧
      s.shadowRoom c.core c.id = true ∧ c.drainAt ≤ s.cycle ∧ (∀ x ∈ s.crews, x.id = c.id ∧ x.state ≠ .failing) ∧
      (s.crews.map Crew.id).Nodup)) ∧
    (∀ st ∈ [CtxState.active, .quiescing], let s : State := onCtx { crewIn .saved .unpinning with
        cores := [{ coreOf [] with shadowBank := [1] }] } fun c => { c with state := st }
     (s.crew 1).isSome = true ∧ 1 ∈ (s.core 0).shadowBank ∧
      (s.ctx (s.asidOf 1)).any (fun x => decide (x.state = st ∧ x.destroying = false ∧ x.regSlot 0 = 0)) = true) ∧
    stores rich 0 (80 * 4096) ∧
    ∃ p, (crewIn .saved .unpinning).page 1 0 = some p ∧ (p.state = .unpinning ∧ p.backing = 0x180000) :=
  ⟨by decide +kernel, some_of _ (by decide +kernel), by decide +kernel, stores_of (by decide +kernel) (by decide),
    some_of _ (by decide +kernel)⟩

theorem stores_page : stores (crewIn .saved .unpinning) 0x180000 (44 * 1024) := stores_of (by decide +kernel) (by decide)

/-- A SAVED crew at the head of its core's queue, its register slot at 0 with matching tags. -/
def restoring : State :=
  tagsOf { crewIn .saved .backed with cores := [{ coreOf [] with queue := [1], gated := [] }] } 0 0 79 (79 * 4096)

/-- A page being refilled, the tags of its periphery matching. -/
def refilling : State := tagsOf (crewIn .running .refilling) 0 0x188000 2 0x18A000

theorem witness_CrewsComeAndGo :
    (∃ c, restoring.crew 1 = some c ∧ (c.id = 1 ∧ c.state = .saved ∧ c.core = 0 ∧ c.saveBad = none ∧
      (restoring.core 0).queue.head? = some 1 ∧ 1 ∉ (restoring.core 0).shadowBank ∧ (∀ p ∈ c.pages, p.state = .backed) ∧
      restoring.passes c [] = true ∧ restoring.distributorReady 0 = true ∧
      (restoring.allGangs.map Gang.ref).Nodup ∧ (restoring.crews.map Crew.id).Nodup)) ∧
    restoring.ctx (restoring.asidOf 1) = some wordCtx ∧ wordCtx.state = .active ∧
    chunksOk restoring wordCtx (wordCtx.regSlot 0) 79 (wordCtx.regSlot 0 + 79 * 4096) ∧
    (∃ p, refilling.page 1 0 = some p ∧ (p.state = .refilling ∧ p.backing = 0x180000 ∧ memoriesWf refilling = true)) ∧
    chunksOk refilling wordCtx (0x180000 + 32 * 1024) 2 (0x180000 + 40 * 1024) := by
  refine ⟨some_of _ (by decide +kernel), by decide +kernel, by decide +kernel, ?_, some_of _ (by decide +kernel), ?_⟩
  · have e : wordCtx.regSlot 0 = 0 := by decide +kernel
    rw [e]
    exact tagsOf_chunksOk wordCtx rfl (by norm_num) (by norm_num) (by norm_num)
  · exact tagsOf_chunksOk wordCtx rfl (by norm_num) (by norm_num) (by norm_num)

/-- A squashed multicast of that crew, issued again. -/
theorem witness_CrewsComeAndGo_replay :
    ∃ o u, o = { copyOf (castAct [0] []) with squashed := true } ∧ o.gang.crew = 1 ∧
      restoring.replayAct 0 1 o.act = (.ok (castAct [0] [], []), u) := ⟨_, _, rfl, by decide, rfl⟩

/-- A task in a state, with a waiting instance of priority 3 on core 0 of die 0. -/
def tasked (st : TaskState) (running : Bool) : State :=
  { onI base fun i => { i with state := if running then .running else .ended } with
    tasks := base.tasks.map fun (t : Task) => { t with state := st }
    insts := [{ base.inst with state := .queued, prio := 3, order := 1 }], stackCycle := 1 }

/-- A task flushing, finishing, failing in an earlier stack cycle and in this one; a core with an instance to start, sound or
not, and with none; one that is pre-empted; and one whose task owner is a gang. -/
theorem witness_StackTasksProgress :
    (∀ st ∈ [TaskState.flushing, .finishing, .failing], ∃ k, (tasked st true).task 1 = some k ∧
      (k.serial = 1 ∧ k.state = st ∧ k.failAt < (tasked st true).stackCycle ∧ homesWf (tasked st true) = true ∧
        memoriesWf (tasked st true) = true)) ∧
    (∀ ue ∈ [true, false], let s : State := { tasked .running false with insts := (tasked .running false).insts.map fun (x : Instance) =>
        { x with saveUe := ue } }
      ∃ x ∈ s.insts, s.nextInst 0 0 = some x ∧ s.resumeBad x = ue ∧ (s.task x.task).isSome = true ∧
        ∀ y ∈ s.allInsts, y.die = 0 → y.core = 0 → y.state ≠ .running) ∧
    (tasked .running false).nextInst 1 0 = none ∧
    (∃ x, (tasked .running true).runningOn 0 0 = some x ∧ ((tasked .running true).canSave x = true ∧
      (tasked .running true).taskFailing x.task = false ∧
      ∃ y ∈ (tasked .running true).insts, (tasked .running true).nextInst 0 0 = some y ∧ x.prio < y.prio)) := by
  refine ⟨fun st h => ?_, by decide +kernel, by decide +kernel, some_of _ (by decide +kernel)⟩
  simp only [List.mem_cons, List.not_mem_nil, or_false] at h
  obtain rfl | rfl | rfl := h <;> exact some_of _ (by decide +kernel)

/-! ### Witnesses: debug port, Causeway, host cores, management, the step -/

/-- The gang of `base` selected and halted, or running; none selected. -/
def debugging (st : GangStatus) (sel : Word) : State :=
  { onG base fun g => { g with status := st } with dbg := { base.dbg with sel := sel } }

def undoEntryOf (fence lane : Bool) : UndoEntry :=
  { fence := fence, lane := lane, pc := 0x7FFC, index := 4, slot := lane, k := [(31, 5)], v := [(0, 31, 7)], q := [(7, 1)],
    sr := [(0x063, 0x40)], segs := none, lptBase := none, period := none, dbg := none, wb := none, mem := [] }

def undoing (l : List UndoEntry) : State := onG (debugging .halted 0) fun g => { g with undo := l }

/-- The gang halted in step mode of bank 0, an operation at its head with steps left. -/
def stepping : State :=
  let s := porting [opOf (.bv .mul (7 * 2 ^ 34) 0)] (some { crew := 1, idx := 0 }) rich
  { onG s fun g => { g with status := .halted } with dbg := { s.dbg with sel := 0 } }

theorem witness_DebugCommands :
    (({ base with dbg := { base.dbg with busy := true } } : State).dbg.busy = true) ∧
    ((debugging .run 7).selected = [] ∧ (debugging .run 7).dbg.busy = false) ∧
    ((debugging .halted 0).selected ≠ [] ∧ (∀ g ∈ (debugging .halted 0).selected, g.status = .halted) ∧
      (debugging .halted 0x10000).selected ≠ [] ∧ ((debugging .halted 0).allGangs.map Gang.ref).Nodup) ∧
    (∃ g ∈ (debugging .run 0).selected, g.status ≠ .halted) ∧ 9 < (10 : BitVec 4).toNat ∧
    (∀ lane ∈ [true, false], (undoing [undoEntryOf false lane]).selected = [(undoing [undoEntryOf false lane]).g] ∧
      (undoing [undoEntryOf false lane]).g.undo = [undoEntryOf false lane] ∧ memoriesWf (undoing []) = true ∧
      homesWf (undoing []) = true) ∧
    ((undoing []).selected.all (fun g => g.undo.isEmpty) = true ∧
      (undoing [undoEntryOf true false]).selected.all (fun g => g.undo.any UndoEntry.fence) = true) ∧
    (stepping.selected = [stepping.g] ∧ field stepping.dbg.data 0 4 = 0 ∧
      (stepping.page 1 0).any (fun p => decide (p.owner = some stepping.g.ref ∧ (p.port.all fun o =>
        decide (o.steps + 1 < o.act.stepCount)) = true)) = true) := by decide +kernel

/-- Halted at a trap with a handler, whose RESUME enters K; a gang whose lanes have issued what is not yet written; and
registers that a selector names or not. -/
theorem witness_DebugCommands_resume :
    (let s := onG (debugging .halted 0) fun g => { g with haltTrap := true, trapCause := 1, trapVec := 0x9000 }
     ∀ g ∈ s.selected, g.haltTrap = true ∧ g.trapCause.toNat % 256 ≠ 0 ∧ g.trapVec ≠ 0 ∧ g.level = .u ∧ g.k.length = 32 ∧
       g.kAlt.length = 8 ∧ ∀ c ∈ s.crews, c.version.versioned = false) ∧
    (let s := onG (debugging .run 0) fun g => { g with pend := [replyOf .smm], ust := 1 }
     s.selected ≠ [] ∧ ∀ g ∈ s.selected, g.pend ≠ [] ∧ g.haltDue = false) ∧
    (let s := debugging .halted 0
     [0x001F, 0x4060, 0x43FF, 0x9F3F, 0x8000, 0xC007].map (fun x => (regValue s s.g x).isSome) =
       [true, true, false, true, true, true]) := by decide +kernel

/-! ### Causeway -/

/-- `base` with port 0 in a state. -/
def ported (st : PortState) : State :=
  { base with ports := base.ports.map fun (p : CwPort) => if p.num = 0 then { p with state := st } else p }

def portIn (st : PortState) : CwPort := { CwPort.reset 0 with state := st }

theorem witness_PortsAndLinks_states :
    (∀ st ∈ [PortState.down, .training, .up, .retrain, .fenced], (ported st).port 0 = some (portIn st) ∧ (portIn st).state = st ∧
      (portIn st).fence = false) ∧
    (ported .up).ports.map CwPort.num = List.range 36 ∧
    ((ported .training).cycle < (portIn .training).since + 10000000 ∧
      (portIn .training).since + 10000000 ≤ ({ ported .training with cycle := 10000000 } : State).cycle) ∧
    ((ported .retrain).cycle ≤ (portIn .retrain).since + 50000 ∧
      (portIn .retrain).since + 50000 ≤ ({ ported .retrain with cycle := 50000 } : State).cycle) ∧
    [(1 : BitVec 4), 3, 15].map (fun l => ((List.range 4).filter fun i => l.getLsbD i).length) = [1, 2, 4] ∧
    base.port 36 = none := by decide +kernel

def flitKind (n kind : Nat) (seq : Half) : Flit :=
  { flow := 4095, kind := kind, poison := false, nocheck := false, last := true, seq := seq, c0 := 0, c1 := 0,
    dtype := if kind = 1 then 4 else 0, ack := 0, payload := List.replicate n 0 }

/-- Flow 4095 of group 0 at sequence number 10, 12 received. -/
def flowAt (refused : Option Half) : Flow :=
  { Flow.fresh 0 4095 (some 0) with expect := 10, window := [flitKind 32 0 12], inbox := [flitKind 32 1 9], refused := refused }

/-- Flits of each kind and size; sequence numbers in order, in the window, already there, old, far ahead, and of the
chunk that is to come again. -/
theorem witness_PortsAndLinks_flits :
    (∀ x ∈ [flitKind 32 0 10, flitKind 224 1 10, flitKind 32 2 10, flitKind 32 3 10, flitKind 32 4 10],
      Machine.flitOf (Machine.Flit.image x) = some x) ∧
    Machine.flitOf (List.replicate 256 1) = none ∧
    [(10 : Half), 11, 12, 9, 4105, 4106].map (fun q => (decide ((q - (flowAt none).expect).toNat < 4096),
        (flowAt none).window.any fun y => y.seq == q, decide (2 ^ 31 ≤ (q - (flowAt none).expect).toNat))) =
      [(true, false, false), (true, false, false), (true, true, false), (false, false, true), (true, false, false),
       (false, false, false)] ∧
    (flowAt (some 9)).refused = some 9 ∧
    (let s : State := { ported .up with flows := [flowAt none] }
     s.flow 0 4095 = some (flowAt none) ∧ (ported .up).flow 0 4095 = none ∧ (s.port 0).map CwPort.state = some .up ∧
       (s.port 1).map CwPort.state = some .down) := by decide +kernel

/-- A stalled group, and links that keep running or lose their last module. -/
theorem witness_PortsAndLinks :
    (let s : State := { base with stalls := [(0, 0)], cycle := 1000000 }
     findBy (fun (x : Nat × Nat) => x.1 == 0) s.stalls = some (0, 0) ∧ 0 + 1000000 ≤ s.cycle ∧ lowestPort s 0 = none ∧
       s.ports.map CwPort.num = List.range 36) ∧
    (∀ l ∈ [UcieLink.ring 0, .ring 1, .base 7, .landing 3, .harbour 0],
      let s : State := { base with lostModules := (List.range (l.modules - 1)).map fun m => (l, m) }
      l.modules - 1 < l.modules ∧ (l, l.modules - 1) ∉ s.lostModules ∧
        ((s.lostModules ++ [(l, l.modules - 1)]).filter fun x => x.1 == l).length = l.modules) ∧
    ((1 : Nat) < (UcieLink.base 7).modules ∧ (UcieLink.base 7, 1) ∉ base.lostModules ∧ (UcieLink.harbour 8).modules = 0) ∧
    (base.onDie 0 = [1] ∧ base.onDie 1 = [] ∧ base.errlog.recs.length < 4096) := by decide +kernel

/-- The smallest descriptor of an op for landing die 0, group 0, or a malformed one. -/
def descOf (op size : Nat) (started : Bool) : Cmd :=
  { index := 0, bytes := leBytes 64 (op + (if op = 3 then 2 ^ 8 else 0) + size * 2 ^ 192), started := started,
    suspended := false, copied := 0, hurt := false }

def ringOf (c : Cmd) : Ring := { asid := 1, land := 0, entry := 0x16000, q := queueOf 0 .active false [c] }

/-- A ring with one descriptor, a usable port, and the flow of the descriptor with flits in its inbox. -/
def ringed (c : Cmd) (home : Option Nat) (flits : List Flit) : State :=
  { ported .up with rings := [ringOf c], flows := [{ Flow.fresh 0 0 home with inbox := flits }] }

theorem goes_of {s : State} {asid land : Nat} {c : Cmd} {f : Flow}
    (hr : (s.rings.all fun r => r.land != land || r.asid == asid) = true)
    (hf : (withFlow s (at_ c.bytes 2 1) (at_ c.bytes 4 2)).flow (at_ c.bytes 2 1) (at_ c.bytes 4 2) = some f)
    (h : ¬if at_ c.bytes 0 1 = 1 then f.home = none ∨ 4096 ≤ f.unacked.length else f.inbox = [] ∨ f.refused ≠ none) :
    ¬waits s asid land c := by
  rintro ⟨-, -, ⟨r, hm, hl, ha, -⟩ | h'⟩
  · simpa [hl, ha] using List.all_eq_true.mp hr r hm
  · exact h (h' f hf)

theorem waits_of {s : State} {asid land : Nat} {c : Cmd} {f : Flow} (hg : goodDescriptor c.bytes land)
    (hc : ¬lacksColl s asid c.bytes)
    (hf : (withFlow s (at_ c.bytes 2 1) (at_ c.bytes 4 2)).flow (at_ c.bytes 2 1) (at_ c.bytes 4 2) = some f)
    (h : if at_ c.bytes 0 1 = 1 then f.home = none ∨ 4096 ≤ f.unacked.length else f.inbox = [] ∨ f.refused ≠ none) :
    waits s asid land c := by
  refine ⟨hg, hc, .inr fun g hg' => ?_⟩
  rw [hf] at hg'
  cases hg'
  exact h

/-- A SEND with a port and one without, a RECV with a flit and one without. -/
theorem witness_RingsMoveData_goes :
    (¬waits (ringed (descOf 1 32 true) (some 0) []) 1 0 (descOf 1 32 true) ∧
      waits (ringed (descOf 1 32 true) none []) 1 0 (descOf 1 32 true)) ∧
    ¬waits (ringed (descOf 2 32 true) (some 0) [flitKind 32 0 0]) 1 0 (descOf 2 32 true) ∧
      waits (ringed (descOf 2 32 true) (some 0) []) 1 0 (descOf 2 32 true) := by
  refine ⟨⟨goes_of (by decide +kernel) (f := Flow.fresh 0 0 (some 0)) (by decide +kernel) (by decide +kernel),
    waits_of ?_ ?_ (f := Flow.fresh 0 0 none) (by decide +kernel) (by decide +kernel)⟩,
    goes_of (by decide +kernel) (f := { Flow.fresh 0 0 (some 0) with inbox := [flitKind 32 0 0] }) (by decide +kernel)
      (by decide +kernel),
    waits_of ?_ ?_ (f := Flow.fresh 0 0 (some 0)) (by decide +kernel) (by decide +kernel)⟩
  all_goals
    first
      | unfold goodDescriptor; decide +kernel
      | unfold lacksColl; decide +kernel

/-- Started descriptors that are good, and a malformed one. -/
theorem witness_RingsMoveData_descriptors :
    (∀ op ∈ [1, 2, 3], goodDescriptor (descOf op 32 true).bytes 0 ∧ at_ (descOf op 32 true).bytes 0 1 = op) ∧
    ¬goodDescriptor (descOf 1 31 true).bytes 0 := by
  unfold goodDescriptor
  decide +kernel

/-- CWRING writes of no context and of one; rings with a started descriptor; one whose context lacks COLL; one that the
arbiter may start. -/
theorem witness_RingsMoveData :
    (base.ctx 5).isNone = true ∧ ((base.ctx 1).isSome = true ∧ base.ctxActive 1 = true ∧
      (0x0010000000016001 : Word).toNat / 2 ^ 52 = 1 ∧ (0x0010000000016001 : Word).toNat % 4 = 1 ∧
      (0x0010000000016001 : Word).toNat / 64 % 2 ^ 46 * 64 = 0x16000) ∧
    (∀ op ∈ [1, 2, 3], (ringed (descOf op 32 true) (some 0) []).ring 1 0 = some (ringOf (descOf op 32 true)) ∧
      (ringOf (descOf op 32 true)).q.state = .active) ∧
    ({ ringed (descOf 3 32 true) (some 0) [] with ctxs := [{ wordCtx with featEn := [0, 0, 0, 0] }] } : State).feature 1 14 =
      false ∧
    ((ringed (descOf 1 32 false) (some 0) []).arbitrateRings 0 = some (256, 1) ∧
      (ringed (descOf 1 32 true) (some 0) []).arbitrateRings 0 = none) := by
  decide +kernel

/-! ### Host cores and management -/

/-- Accesses inside a region, at the last address of the space below 2^52, across the end of a region, of bad shape, to the
control block and beyond it; a reservation held. -/
theorem witness_HostAccesses :
    ((0x9000 : Word).toNat < 2 ^ 52 ∧ (∀ i < 8, base.covered ((0x9000 : Word).toNat + i) = true) ∧
      (∀ i < 8, base.homePoison ((0x9000 + i) / 32 * 32) = false ∧ base.checkFails ((0x9000 + i) / 32 * 32) = false) ∧
      (0x9000 : Word).toNat % 8 = 0 ∧ (0x9001 : Word).toNat % 4 ≠ 0) ∧
    (¬(∀ i < 8, base.covered ((0x1FFFFC : Word).toNat + i) = true) ∧ ¬(∀ i < 1, base.covered (2 ^ 52 - 1 + i) = true)) ∧
    (let s := mem base 0x9000 [1]
     let u : State := { s with l2 := s.l2.map fun (l : Line) => { l with poison := [0] } }
     u.homePoison 0x9000 = true) ∧
    (∃ h ∈ ({ base with hosts := base.hosts.map fun (h : HostCore) => { h with reserved := some (0x9000 / 8) } } : State).hosts,
      h.num = 15 ∧ h.reserved = some (0x9000 / 8)) ∧ (∀ h ∈ base.hosts, h.num = 15 → h.reserved ≠ some (0x9000 / 8)) ∧
    ((0x0080000000020000 : Word).toNat % 8 = 0 ∧ 0x2FFF8 < 0x30000 ∧ State.reset.errlog.recs = [] ∧ HostLevel.m ≠ .u) := by
  decide +kernel

/-- Which level reaches an offset of the block, at both ends of each row; offsets that no row lists. -/
theorem witness_HostAccesses_block :
    (reaches .s 0 true ∧ ¬reaches .u 0 false ∧ reaches .s 0xFFF8 true ∧ ¬reaches .s 0x10000 false ∧ reaches .m 0x1FFF8 true ∧
      reaches .s 0x20000 false ∧ ¬reaches .s 0x20000 true ∧ reaches .m 0x2FFF8 true ∧ ¬reaches .m 0x30000 true) ∧
    (unlisted 0x38 ∧ ¬unlisted 0x30 ∧ unlisted 0x2FFF8 ∧ ¬unlisted 0x8238 ∧ unlisted 0x8240 ∧ ¬unlisted 0x30000) := by
  simp [reaches, unlisted]

/-- Each array of R375 with room in the log; throttling due; a trip; a bundle that does not verify; a heartbeat due; region
tables that are good, bad and refused. -/
theorem witness_ErrorsBootAndManagement :
    ([ErrorSite.laneReg { crew := 1, idx := 0 } 511 31, .kReg { crew := 1, idx := 0 } 31, .specialReg { crew := 1, idx := 0 } 0x60,
        .l1 0 0, .l2 0x8000, .bankRow 0 0 1023, .column 0 0 255, .dram 0x8000, .baseSram 0 0 131071, .saveArea 1 0,
        .checkValue 0x8000 1].map arrayOf =
      [some 0, some 1, some 1, some 2, some 3, some 4, some 5, some 6, some 7, some 8, none]) ∧
    State.reset.errlog.recs.length < 4096 ∧
    ({ State.reset with pwr := { State.reset.pwr with nextAdjust := 0 } } : State).pwr.nextAdjust ≤ State.reset.cycle ∧
    115 ≤ ({ State.reset with pwr := { State.reset.pwr with tmax := 115 } } : State).pwr.tmax ∧
    ({ base with nextTick := 0 } : State).nextTick ≤ base.cycle ∧ base.cycle < base.nextTick ∧
    (base.rgn.busy = false ∧ firstBad base.rgn.stage = none ∧ (∃ c ∈ base.ctxs, c.state = .active) ∧
      firstBad [RgnEntry.unused, { RgnEntry.unused with mode := 3, size := 0 }] = some 1) ∧
    (∀ c ∈ ({ base with ctxs := [] } : State).ctxs, c.state ≠ .active) ∧
    ({ base with rgn := { base.rgn with busy := true } } : State).rgn.busy = true := by decide +kernel

/-- The empty bundle is bad at 0, and one whose images all have valid signatures is good. -/
theorem witness_ErrorsBootAndManagement_boot (i : Image)
    (h : Config.signatureValid (Config.sha3 i.bytes) i.signature = true) :
    badImage State.reset Bundle.empty 0 ∧ ∀ n, ¬badImage State.reset { Bundle.empty with images := [i] } n := by
  refine ⟨.inl ⟨rfl, rfl⟩, fun n => ?_⟩
  rintro (⟨e, -⟩ | ⟨⟨x, hx, hb⟩, -⟩)
  · cases e
  · rcases n with - | n
    · simp only [List.getElem?_cons_zero, Option.some.injEq] at hx
      subst hx
      simp [h, State.reset] at hb
    · simp at hx

theorem witness_DecodeEncode : (Instr.kadd 31 31 31).stream? = some .scalar ∧ (Instr.kadd 31 31 31).wellFormed = true ∧
    ([0xF8, 0xFF, 0x64, 0x08] : List Byte).length = Stream.scalar.wordBytes ∧
    decode .scalar [0xF8, 0xFF, 0x64, 0x08] = .ok (.kaddi 3 4 0xFFF8) := by decide +kernel

/-- The state in which a turn of a gang is taken. -/
def turnAt (s : State) : State := ((({ s.prepare with agenda := [] } : State).pass 0).bring { crew := 1, idx := 0 }).takeUp

def fetches (r : Except FetchFault Nat) (w : Nat) : Bool :=
  match r with
  | .ok x => x == w
  | .error _ => false

/-- Packages at a scalar word that is legal, one that is not, and a fence that does not issue while a store is out. -/
theorem witness_StepRunsDecoded :
    (∀ w ∈ [0x58000000, 0x00000001],
      let s := State.reset.withFetchWord 32 w
      let u := turnAt s
      s.boot = .booted ∧ s.cycle < s.nextTick ∧ s.pwr.tmax < 115 ∧ s.agenda = [.scalar 0 { crew := 1, idx := 0 }] ∧
        u.waitEnded = false ∧ (∀ h ∈ u.byAge false, h.scalarAge ≤ u.cycle) ∧ u.byAge false = [u.g] ∧
        (u.bring u.g.ref).takeUp.scalarReady = true ∧ fetches u.fetchScalar.1 w = true) ∧
    (let u := turnAt (onG (State.reset.withFetchWord 32 0x5C600002) fun g => { g with ust := 1 })
     u.waitEnded = false ∧ u.scalarReady = true ∧ ∀ x ∈ u.byAge false, ((u.bring x.ref).scalarTry).isNone = true) := by
  decide +kernel

/-- A lane word, a stack word, a pc that cannot be fetched, and a device turn. -/
theorem witness_StepRunsDecoded_streams :
    (let s := State.reset.withFetchWord 96 0x100800000000000000000000
     let u := (({ s.prepare with agenda := [] } : State).pass 0).bring { crew := 1, idx := 0 }
     s.agenda = [.lane 0 { crew := 1, idx := 0 }] ∧ u.blockReady = false ∧ u.laneRuns = true ∧ u.byAge true = [u.g] ∧
      (∀ h ∈ u.byAge true, h.laneAge ≤ u.cycle) ∧ u.chained = none ∧ u.g.lane.s0.runs = true ∧ u.g.lane.s1.runs = false ∧
      fetches u.fetchLane.1 0x100800000000000000000000 = true) ∧
    (let s := State.reset.withFetchWord 64 0
     let u := (({ s.prepare with agenda := [] } : State).pass 0).bringInst 0 0
     s.agenda = [.stack 0 0 0] ∧ u.stackReady 0 0 = true ∧ (u.task u.inst.task).all (fun k => k.state != .failing) = true ∧
      fetches u.fetchStack.1 0 = true) ∧
    (let u := turnAt (onG (State.reset.withFetchWord 32 0) fun g => { g with pc := 0x8002 })
     u.scalarReady = true ∧ (match u.fetchScalar.1 with
      | .ok _ => false
      | .error e => e == .align 0x8002) = true) ∧
    Instr.isEvent .heartbeatTick = true := by decide +kernel

/-! ### Single steps: the spec's worked examples -/

/-- k[n] after an instruction. -/
def kOut (n : Nat) : Out → Option Word
  | .next t => t.g.k[n]?
  | _ => none

/-- v[n] of a lane after an instruction. -/
def vOut (n i : Nat) : Out → Option Half
  | .next t => (t.g.regs[n]?).bind fun row => row[i]?
  | _ => none

/-- `laneRich` with registers set, the same in every lane. -/
def withV (l : List (Nat × Half)) : State :=
  onG laneRich fun g => { g with regs := l.foldl (fun r x => r.set x.1 (List.replicate 32 x.2)) g.regs }

/-- Lanes 0 to 3 active, with the values of v3 given. -/
def fourLanes (l : List Half) : State := onG laneRich fun g =>
  { g with regs := g.regs.set 3 (l ++ List.replicate 28 0), lane := { g.lane with s0 := { g.lane.s0 with mask := 0xF } } }

def w3 (ty : Ty) (dst sa sb sc : BitVec 8) : LaneF := { LaneF.zero with ty := ty, dst := dst, sa := sa, sb := sb, sc := sc }

/-- R157: kins k3, k4, 8, 4. -/
theorem test_kins : kOut 3 (exec (.kins 3 4 3 8) (withK base [(3, 0xFFFFFFFFFFFFFFFF), (4, 0x5)])) = some 0xFFFFFFFFFFFFF5FF := by
  decide +kernel

/-- R158: kld.g.s32 k3, k4, 16 of the bytes FE FF FF FF, and without the sign. -/
theorem test_kld :
    kOut 3 (exec (.kld 3 4 0 5 16) (withK (mem base 0x9010 [0xFE, 0xFF, 0xFF, 0xFF]) [(4, 0x9000)])) = some 0xFFFFFFFFFFFFFFFE ∧
    kOut 3 (exec (.kld 3 4 0 4 16) (withK (mem base 0x9010 [0xFE, 0xFF, 0xFF, 0xFF]) [(4, 0x9000)])) = some 0xFFFFFFFE := by
  decide +kernel

/-- R130, R154: division by zero and of the most negative number by −1; R154: the high half of a product. -/
theorem test_kdiv :
    kOut 3 (exec (.kdiv 3 4 0) (withK base [(4, 7)])) = some 0xFFFFFFFFFFFFFFFF ∧
    kOut 3 (exec (.kdiv 3 4 5) (withK base [(4, 0x8000000000000000), (5, 0xFFFFFFFFFFFFFFFF)])) = some 0x8000000000000000 ∧
    kOut 3 (exec (.krem 3 4 5) (withK base [(4, 0xFFFFFFFFFFFFFFF9), (5, 2)])) = some 0xFFFFFFFFFFFFFFFF ∧
    kOut 3 (exec (.kmulh 3 4 4) (withK base [(4, 0xFFFFFFFFFFFFFFFF)])) = some 0 := by decide +kernel

/-- R163: csrw of CYCLE raises ILL, of TRAP_VEC at U PRIV. -/
theorem test_csrw :
    (match exec (.csrw 7 0x020) (withTrapVec base) with
      | .next t => t.g.trapCause.toNat % 32
      | _ => 99) = Cause.ill.code ∧
    (match exec (.csrw 7 0x063) (withTrapVec base) with
      | .next t => (t.g.trapCause.toNat % 32, t.g.trapVec)
      | _ => (99, 0)) = (Cause.priv.code, 0x9000) := by decide +kernel

/-- R97, R98: a kcall within the allotment raises WIN to 16 and links. -/
theorem test_kcall : (match exec (.kcall 2 4) (onG base fun g =>
    { g with allot := 10, units := List.replicate 10 0, regs := List.replicate 80 (List.replicate 32 0) }) with
  | .next t => (t.g.win, t.g.res, t.g.k.getD 31 0, t.g.pc)
  | _ => (0, 9, 0, 0)) = (16, 0, 0x8004, 0x8010) := by decide +kernel

/-- R182: iadd.s8x4 with and without saturation. -/
theorem test_iadd_s8x4 :
    vOut 2 7 (exec (.iadd { w3 .s8x4 2 3 4 0 with md := 8 }) (withV [(3, 0x7F800105), (4, 0x0180FF05)])) = some 0x7F80000A ∧
    vOut 2 7 (exec (.iadd (w3 .s8x4 2 3 4 0)) (withV [(3, 0x7F800105), (4, 0x0180FF05)])) = some 0x8000000A := by
  decide +kernel

/-- R183: (a AND b) OR c as a truth table. -/
theorem test_lop3 : vOut 1 31 (exec (.lop3 { w3 .b32 1 2 3 4 with imm := 0xF8 }) (withV [(2, 0xF0), (3, 0xCC), (4, 3)])) =
    some 0xC3 := by decide +kernel

/-- R184: prmt with two inverted bytes. -/
theorem test_prmt : vOut 1 0 (exec (.prmt { w3 .b32 1 2 3 0 with imm := 0x8C40 }) (withV [(2, 0x44332211), (3, 0x88776655)])) =
    some 0xEEAA5511 := by decide +kernel

/-- R187: movi.n64 of k3 from the snapshot of the block. -/
theorem test_movi : (fun o => (vOut 6 0 o, vOut 7 0 o)) (exec (.movi { w3 .n64 6 0x83 0 0 with imm := 0x80000000 })
    (onG laneRich fun g => { g with lane := { g.lane with snap := g.lane.snap.set 3 0x7F } })) = (some 0x80000000, some 0x7F) := by
  decide +kernel

/-- R203: lstat in a slot with four lanes on. -/
theorem test_lstat : (fun o => (vOut 9 12 o, vOut 9 4 o, vOut 9 6 o)) (exec (.lstat { w3 .b32 9 0 0 0 with gp := 3 })
    (onG laneRich fun g => { g with q := g.q.set 3 0x3030, lane := { g.lane with s0 := { g.lane.s0 with mask := 0xF0F0 } } })) =
    (some 0x82, some 0x80, some 0) := by decide +kernel

/-- R211: cvt.pk.e4m3x4 of 300.0 and −0.1. -/
theorem test_cvtPk : vOut 4 0 (exec (.cvtPk (w3 .e4m3x4 4 5 6 0)) (withV [(5, 0x43960000), (6, 0xBDCCCCCD)])) = some 0x9D79 := by
  decide +kernel

/-- R206: fadd.f32 of 2^24 and 1, a tie to even, rounded to nearest, and up. -/
theorem test_fadd :
    vOut 1 0 (exec (.fadd (w3 .f32 1 2 3 0)) (withV [(2, 0x4B800000), (3, 0x3F800000)])) = some 0x4B800000 ∧
    vOut 1 0 (exec (.fadd { w3 .f32 1 2 3 0 with md := 0b0110000 }) (withV [(2, 0x4B800000), (3, 0x3F800000)])) =
      some 0x4B800001 := by decide +kernel

/-- R217: match.eq and match.cnt over four lanes. -/
theorem test_match :
    (fun o => (vOut 2 0 o, vOut 2 1 o, vOut 2 3 o)) (exec (.xmatch (w3 .b32 2 3 0 0)) (fourLanes [7, 9, 7, 7])) =
      (some 0xD, some 2, some 0xD) ∧
    (fun o => (vOut 2 0 o, vOut 2 1 o)) (exec (.xmatch { w3 .b32 2 3 0 0 with md := 2 }) (fourLanes [7, 9, 7, 7])) =
      (some 3, some 1) := by decide +kernel

/-- R219: redux.add.f32 in groups of two, and over the gang, by the tree. -/
theorem test_redux :
    (fun o => (vOut 2 0 o, vOut 2 3 o)) (exec (.redux { w3 .f32 2 3 0 0 with imm := 1 })
      (fourLanes [0x4B800000, 0x3F800000, 0x3F800000, 0x3F800000])) = (some 0x4B800000, some 0x40000000) ∧
    vOut 2 0 (exec (.redux (w3 .f32 2 3 0 0)) (fourLanes [0x4B800000, 0x3F800000, 0x3F800000, 0x3F800000])) =
      some 0x4B800001 := by decide +kernel

/-- R142: adding 2^-40 to 1.0 in the extended format keeps 1.0; twice 2^-40 first gives the next number. -/
theorem test_accAdd :
    accAdd (accAdd 0 (Fmt.f32.value 0x3F800000)) (Fmt.f32.value 0x2B800000) = accAdd 0 (Fmt.f32.value 0x3F800000) ∧
    accAdd (accAdd (accAdd 0 (Fmt.f32.value 0x2B800000)) (Fmt.f32.value 0x2B800000)) (Fmt.f32.value 0x3F800000) ≠
      accAdd 0 (Fmt.f32.value 0x3F800000) := by decide +kernel

/-- R255: the superblock of the worked example packs to one line. -/
theorem test_woad : (fun r : List Byte × Nat => ((r.1.take 67).drop 64, r.1.getD 0 0, r.1.getD 16 0, r.1.getD 63 0, r.2))
    (woadPack ((List.range 512).map fun i => if i = 0 then 0x12 else if i = 130 then 0x34 else if i = 511 then 0x56 else 0)) =
    ([0x12, 0x34, 0x56], 0x01, 0x04, 0x80, 1) := by decide +kernel

/-- R165, R353: a trap exchanges k24 to k31, and keret exchanges them back. -/
theorem test_trap_and_return :
    (match exec .kbrk (withTrapVec (withK base [(24, 5)])) with
     | .next t => (t.g.pc, t.g.k.getD 24 9, t.g.kAlt.getD 0 9, kOut 24 (exec .keret t))
     | _ => (0, 0, 0, none)) = (0x9000, 0, 5, some 5) := by decide +kernel

/-- R340, R342: slhi joins halves; sblt is signed. -/
theorem test_stack :
    (match exec (.slhi 5 0x12345678) (onI base fun i => { i with a := i.a.set 5 0xFFFFFFFF9ABCDEF0 }) with
     | .next t => t.inst.a.getD 5 0
     | _ => 0) = 0x123456789ABCDEF0 ∧
    (match exec (.sblt 5 0 16) (onI base fun i => { i with a := i.a.set 5 0xFFFFFFFFFFFFFFFF }) with
     | .next t => t.inst.pc
     | _ => 0) = 0x8010 := by decide +kernel

/-- R407: a limit below its range is raised to 600 W. -/
theorem test_pwrctl : (match exec (.pwrctlWrite (.host .m) 100) State.reset with
  | .next t => t.pwr.limit
  | _ => 0) = 600 := by decide +kernel

/-- R403: a package with no bundle stops with BOOTFAIL at its first step. -/
theorem test_boot : (match step State.reset with
  | .next t => t.boot
  | _ => .off) = .fail 0 := by decide +kernel

end Sys2Proof.Tests
end

section
/-! What the searches, updates and insertions of lists by key do. -/

namespace Sys2Proof.Machine

open Sys2Proof

theorem findBy_eq_find? {α : Type} (p : α → Bool) : ∀ l : List α, findBy p l = l.find? p
  | [] => rfl
  | y :: rest => by cases hy : p y <;> simp [findBy, hy, findBy_eq_find? p rest]

theorem findBy_mem {α : Type} {p : α → Bool} {l : List α} {x : α} (h : findBy p l = some x) : x ∈ l ∧ p x = true := by
  rw [findBy_eq_find?] at h
  exact ⟨List.mem_of_find?_eq_some h, List.find?_some h⟩

theorem findBy_isSome {α : Type} {p : α → Bool} {l : List α} : (findBy p l).isSome = true ↔ ∃ x ∈ l, p x = true := by
  rw [findBy_eq_find?, List.find?_isSome]

theorem findBy_eq_none {α : Type} {p : α → Bool} {l : List α} : findBy p l = none ↔ ∀ x ∈ l, p x = false := by
  simp [findBy_eq_find?]

/-- An entry of an updated list is one of the list, or the first that the update found, updated. -/
theorem mem_updBy {α : Type} {p : α → Bool} {f : α → α} {x : α} :
    ∀ {l : List α}, x ∈ updBy p f l → x ∈ l ∨ ∃ y, findBy p l = some y ∧ x = f y
  | y :: rest, h => by
    by_cases hy : p y = true
    · simp only [updBy, hy, if_true, List.mem_cons] at h
      obtain h | h := h
      · exact .inr ⟨y, by simp [findBy, hy], h⟩
      · exact .inl (List.mem_cons_of_mem _ h)
    · simp only [updBy, hy, Bool.false_eq_true, if_false, List.mem_cons] at h
      obtain h | h := h
      · exact .inl (h ▸ List.mem_cons_self)
      · obtain h | ⟨z, hz, hx⟩ := mem_updBy h
        · exact .inl (List.mem_cons_of_mem _ h)
        · exact .inr ⟨z, by simpa [findBy, hy] using hz, hx⟩

theorem map_updBy {α β : Type} {p : α → Bool} {f : α → α} {key : α → β} (hf : ∀ x, key (f x) = key x) :
    ∀ l : List α, (updBy p f l).map key = l.map key
  | [] => rfl
  | y :: rest => by
    by_cases hy : p y = true
    · simp [updBy, hy, hf]
    · simp [updBy, hy, map_updBy hf rest]

theorem dropBy_eq_eraseP {α : Type} (p : α → Bool) : ∀ l : List α, dropBy p l = l.eraseP p
  | [] => rfl
  | y :: rest => by cases hy : p y <;> simp [dropBy, hy, dropBy_eq_eraseP p rest]

theorem dropBy_sublist {α : Type} {p : α → Bool} (l : List α) : (dropBy p l).Sublist l :=
  dropBy_eq_eraseP p l ▸ List.eraseP_sublist

theorem mem_insertBy {α : Type} {key : α → Nat} {x z : α} : ∀ {l : List α}, z ∈ insertBy key x l ↔ z = x ∨ z ∈ l
  | [] => by simp [insertBy]
  | y :: rest => by
    unfold insertBy
    split
    · simp
    · simp only [List.mem_cons, mem_insertBy (l := rest)]
      exact or_left_comm

/-- Insertion of a new key keeps a list strictly ascending. -/
theorem insertBy_ascending {α : Type} {key : α → Nat} {x : α} : ∀ {l : List α},
    l.Pairwise (fun a b => key a < key b) → (∀ y ∈ l, key y ≠ key x) →
    (insertBy key x l).Pairwise fun a b => key a < key b
  | [], _, _ => by simp [insertBy]
  | y :: rest, h, hx => by
    obtain ⟨hy, hrest⟩ := List.pairwise_cons.mp h
    unfold insertBy
    split
    next hlt =>
      exact List.pairwise_cons.mpr ⟨List.forall_mem_cons.mpr ⟨hlt, fun z hz => lt_trans hlt (hy z hz)⟩, h⟩
    next hge =>
      have hyx : key y < key x := lt_of_le_of_ne (not_lt.mp hge) (hx y List.mem_cons_self)
      refine List.pairwise_cons.mpr ⟨fun z hz => ?_,
        insertBy_ascending hrest fun z hz => hx z (List.mem_cons_of_mem _ hz)⟩
      obtain rfl | hz := mem_insertBy.mp hz
      · exact hyx
      · exact hy z hz

end Sys2Proof.Machine
end

section
/-! Every store of the package keeps its memories in canonical form, and the lines of the L2 whole (R5, R225). -/

namespace Sys2Proof.Machine

open Sys2Proof
open Sys2Proof.Safety

/-! ### What writes at their homes leave alone -/

/-- Writes, one after another, that each leave all but the homes of memory, leave all but those. -/
theorem foldl_homed {α : Type} {f : State → α → State} (hf : ∀ s x, f s x = homed s (f s x)) :
    ∀ (l : List α) (s : State), l.foldl f s = homed s (l.foldl f s)
  | [], _ => rfl
  | x :: rest, s => by
    rw [List.foldl_cons, foldl_homed hf rest (f s x), hf s x]
    rfl

theorem putHome_homed (s : State) (pa : Nat) (b : Byte) : s.putHome pa b = homed s (s.putHome pa b) := by
  unfold State.putHome
  split
  · rfl
  · split
    · rfl
    · split <;> rfl

theorem markPoison_homed (s : State) (pa : Nat) (on : Bool) : s.markPoison pa on = homed s (s.markPoison pa on) := by
  unfold State.markPoison
  split
  · rfl
  · split
    · rfl
    · split <;> rfl

theorem clearCheck_homed (s : State) (pa : Nat) : s.clearCheck pa = homed s (s.clearCheck pa) := by
  unfold State.clearCheck
  split <;> rfl

theorem logError_homed (s : State) (kind unit die asid addr crew : Nat) :
    s.logError kind unit die asid addr crew = homed s (s.logError kind unit die asid addr crew) := by
  unfold State.logError
  dsimp only
  split <;> rfl

theorem homed_trans {s t u : State} (h : t = homed s t) (h' : u = homed t u) : u = homed s u := by
  rw [h', h]
  rfl

theorem beforeWrite_homed (s : State) (addrs : List Nat) : s.beforeWrite addrs = homed s (s.beforeWrite addrs) := by
  unfold State.beforeWrite
  refine foldl_homed (fun s sec => ?_) _ s
  dsimp only
  split
  · refine homed_trans (t := if s.homePoison (sec * 32) then s.markPoison (sec * 32) false else s) ?_
      (clearCheck_homed ..)
    split
    · exact markPoison_homed ..
    · rfl
  · split
    · exact homed_trans (homed_trans (homed_trans (markPoison_homed ..) (clearCheck_homed ..)) (logError_homed ..))
        (logError_homed ..)
    · exact clearCheck_homed ..

/-- A write of bytes at their homes leaves all else (R225, R376). -/
theorem writeHome_homed (s : State) (cells : List (Nat × Byte)) : s.writeHome cells = homed s (s.writeHome cells) := by
  unfold State.writeHome
  refine homed_trans ?_ (foldl_homed (fun s c => putHome_homed s c.1 c.2) cells _)
  split
  · rfl
  · exact beforeWrite_homed ..

/-- Before a stack core writes DRAM, marks and check values alone change (R376, R377). -/
theorem stackMarks_homed (s : State) (pas : List Nat) : s.stackMarks pas = homed s (s.stackMarks pas) := by
  unfold State.stackMarks
  refine foldl_homed (fun s sec => ?_) _ s
  split
  · rfl
  · split
    · rfl
    · split
      · exact homed_trans rfl (foldl_homed (fun t kind => logError_homed t kind ..) _ _)
      · rfl

/-! ### What the stores of gangs and of the device are made of -/

theorem ite_keeps {P : State → Prop} {c : Prop} [Decidable c] {s t : State} (hs : P s) (ht : P t) :
    P (if c then s else t) := by
  split <;> assumption

/-- One byte of a write to bank places. -/
def State.storeBank (s : State) (x : Place × Byte) : State :=
  match x.1 with
  | .bank c h y => s.updPage c h fun p => p.setByte y x.2
  | .phys _ => s

/-- A write to bank places stores bytes in pages and clears marks of rows, no more (R376). -/
theorem writeBank_keeps {P : State → Prop}
    (store : ∀ {s : State} (c h y : Nat) (b : Byte), P s → P (s.updPage c h fun p => p.setByte y b))
    (clear : ∀ {s : State} (c h : Nat) (keep : Nat → Bool),
      P s → P (s.updPage c h fun p => { p with poison := p.poison.filter keep }))
    {s : State} (cells : List (Place × Byte)) (hs : P s) : P (s.writeBank cells) := by
  have stored : P (cells.foldl State.storeBank s) :=
    List.foldlRecOn (motive := P) _ _ hs fun t ht x _ => by
      unfold State.storeBank
      split
      · exact store _ _ _ _ ht
      · exact ht
  unfold State.writeBank
  refine ite_keeps stored (List.foldlRecOn (motive := P) _ _ stored fun t ht x _ => ?_)
  split
  · exact ite_keeps (clear _ _ _ ht) ht
  · exact ht

/-- A property of states that the parts of a store keep: bytes held in an open version (R366), put into an L1 line
(R228), written at their homes (R225), a line written back (R229), bytes written to a bank (R273), to a local SRAM and by
a stack core to DRAM, marks before it (R271, R337). -/
structure KeptByStores (P : State → Prop) : Prop where
  hold : ∀ {s : State} (crew : Nat) (direct : Bool) (cells : List (Nat × Byte)), P s → s.versionOpen crew = true →
    P (s.hold crew direct cells)
  l1Store : ∀ {s : State} (core : Nat) (cells : List (Nat × Byte)), P s → P (s.l1Store core cells)
  writeHome : ∀ {s : State} (cells : List (Nat × Byte)), P s → P (s.writeHome cells)
  writeBack : ∀ {s : State} (num : Nat), P s → P (s.writeBack num)
  writeBank : ∀ {s : State} (cells : List (Place × Byte)), P s → P (s.writeBank cells)
  sram : ∀ {s : State} (cells : List (Nat × Byte)) (bad : List Nat), P s →
    P { s with inst := { s.inst with sram := cells.foldl (fun m c => m.write c.1 c.2) s.inst.sram, poison := bad } }
  stackMarks : ∀ {s : State} (pas : List Nat), P s → P (s.stackMarks pas)
  stackWrite : ∀ {s : State} (cells : List (Nat × Byte)), P s → P (s.stackWrite cells)

section

variable {P : State → Prop} (k : KeptByStores P) {s : State}
include k

theorem KeptByStores.uncache (lines : List Nat) (hs : P s) : P (s.uncache lines) :=
  List.foldlRecOn (motive := P) _ _ hs fun _ ht n _ => k.writeBack n ht

theorem KeptByStores.writePlaces (cells : List (Place × Byte)) (hs : P s) : P (s.writePlaces cells) :=
  have homes := ite_keeps (c := (physCells cells).isEmpty) hs (k.writeHome (physCells cells) hs)
  ite_keeps homes (k.writeBank cells homes)

theorem KeptByStores.gangWrite (crew core : Nat) (held : Bool) (mt : Nat) (cells : List (Place × Byte)) (hs : P s) :
    P (s.gangWrite crew core held mt cells) := by
  unfold State.gangWrite
  split
  next h => exact k.hold _ _ _ hs (Bool.and_eq_true_iff.mp h).2
  next =>
    have homes := ite_keeps (c := (physCells cells).isEmpty) hs
      (k.writeHome (physCells cells) (k.l1Store core (physCells cells) hs))
    have uncached := ite_keeps (c := mt == 2) (k.uncache (heldLines (physCells cells)) homes) homes
    exact ite_keeps uncached (k.writeBank cells uncached)

theorem KeptByStores.stackStore (l : List (SPlace × List Byte)) (hs : P s) : P (s.stackStore l) := by
  unfold State.stackStore
  have sram := ite_keeps (c := (sramCells l).isEmpty) hs
    (k.sram (sramCells l) (sramMarks s.inst.poison ((sramCells l).map (·.1))) hs)
  exact ite_keeps sram (k.stackWrite (physStackCells l) (ite_keeps sram (k.stackMarks _ sram)))

end

/-! ### The memories in canonical form -/

/-- A crew whose pages are in canonical form, and that holds writes only in an open version (R366). -/
def crewWf (c : Crew) : Bool := (c.version.opened || c.version.held.isEmpty) && c.pages.all fun p => p.cells.wf

theorem memoriesWf_iff {s : State} : memoriesWf s = true ↔
    s.dram.wf = true ∧ (∀ c ∈ s.crews, crewWf c = true) ∧ s.inst.sram.wf = true ∧ ∀ x ∈ s.insts, x.sram.wf = true := by
  simp [memoriesWf, crewWf, and_assoc]

/-- What leaves all but the homes of memory keeps the canonical form: those are L2 lines, not memories. -/
theorem memoriesWf_homed {s t : State} (h : t = homed s t) (hs : memoriesWf s = true) : memoriesWf t = true := by
  rw [h]
  exact hs

theorem memoriesWf_updCrew {s : State} {id : Nat} {f : Crew → Crew} (hs : memoriesWf s = true)
    (hf : ∀ c, s.crew id = some c → crewWf c = true → crewWf (f c) = true) : memoriesWf (s.updCrew id f) = true := by
  obtain ⟨hd, hc, hi, hx⟩ := memoriesWf_iff.mp hs
  refine memoriesWf_iff.mpr ⟨hd, fun c hm => ?_, hi, hx⟩
  obtain hm | ⟨y, hy, rfl⟩ := mem_updBy hm
  · exact hc c hm
  · exact hf y hy (hc y (findBy_mem hy).1)

theorem memoriesWf_updPage {s : State} {crew h : Nat} {f : Page → Page} (hs : memoriesWf s = true)
    (hf : ∀ p : Page, p.cells.wf = true → (f p).cells.wf = true) : memoriesWf (s.updPage crew h f) = true := by
  refine memoriesWf_updCrew hs fun c _ hc => ?_
  cases hp : c.page h with
  | none => exact hc
  | some p =>
    simp only [crewWf, Bool.and_eq_true, List.all_eq_true] at hc ⊢
    refine ⟨hc.1, fun q hq => ?_⟩
    obtain hq | rfl := List.mem_or_eq_of_mem_set hq
    · exact hc.2 q hq
    · exact hf p (hc.2 p (List.mem_of_getElem? hp))

theorem memoriesWf_writeHome {s : State} (cells : List (Nat × Byte)) (hs : memoriesWf s = true) :
    memoriesWf (s.writeHome cells) = true :=
  memoriesWf_homed (writeHome_homed s cells) hs

theorem memoriesWf_writeBank {s : State} (cells : List (Place × Byte)) (hs : memoriesWf s = true) :
    memoriesWf (s.writeBank cells) = true :=
  writeBank_keeps (P := fun t => memoriesWf t = true)
    (fun _ _ _ _ => (memoriesWf_updPage · fun _ => Page.wf_setByte _ _))
    (fun _ _ _ => (memoriesWf_updPage · fun _ hp => hp)) cells hs

theorem keepInputs_tasks (s : State) (own : Option Nat) (pas : List Nat) :
    s.keepInputs own pas = { s with tasks := (s.keepInputs own pas).tasks } := by
  unfold State.keepInputs
  split <;> rfl

theorem memoriesWf_keepInputs {s : State} (own : Option Nat) (pas : List Nat) (hs : memoriesWf s = true) :
    memoriesWf (s.keepInputs own pas) = true := by
  rw [keepInputs_tasks]
  exact hs

/-- A write-back stores a line in DRAM, in canonical form as every store there (R231, R376). -/
theorem memoriesWf_writeBack {s : State} (num : Nat) (hs : memoriesWf s = true) :
    memoriesWf (s.writeBack num) = true := by
  unfold State.writeBack
  split
  · exact hs
  next l _ =>
    have dropped : memoriesWf (s.dropLine num) = true := hs
    dsimp only
    split
    · have kept := memoriesWf_keepInputs none ((List.range 128).map fun i => num * 128 + i) dropped
      split
      next p _ => exact memoriesWf_dram kept (Memory.wf_writeBytes l.data p (memoriesWf_iff.mp kept).1)
      next => exact kept
    · exact dropped

/-- A write put into the lines of an L1 leaves all but the cores (R228). -/
theorem l1Store_cores (s : State) (core : Nat) (cells : List (Nat × Byte)) :
    s.l1Store core cells = { s with cores := (s.l1Store core cells).cores } := by
  unfold State.l1Store
  dsimp only
  split <;> rfl

theorem memoriesWf_l1Store {s : State} (core : Nat) (cells : List (Nat × Byte)) (hs : memoriesWf s = true) :
    memoriesWf (s.l1Store core cells) = true := by
  rw [l1Store_cores]
  exact hs

/-- Writes are held in a version that is open, and no page changes (R366). -/
theorem memoriesWf_hold {s : State} {crew : Nat} (direct : Bool) (cells : List (Nat × Byte)) (hs : memoriesWf s = true)
    (hopen : s.versionOpen crew = true) : memoriesWf (s.hold crew direct cells) = true := by
  refine memoriesWf_updCrew hs fun c hc hw => ?_
  have opened : c.version.opened = true := by simpa [State.versionOpen, hc] using hopen
  simp only [crewWf, Bool.and_eq_true] at hw ⊢
  exact ⟨by simp [opened], hw.2⟩

/-- Stores of a stack core go to its local SRAM and to DRAM (R337). -/
theorem memoriesWf_stackWrite {s : State} (cells : List (Nat × Byte)) (hs : memoriesWf s = true) :
    memoriesWf (s.stackWrite cells) = true := by
  unfold State.stackWrite
  refine List.foldlRecOn (motive := fun t : State => memoriesWf t = true) _ _
    (memoriesWf_keepInputs _ _ (memoriesWf_homed (foldl_homed (fun t num => ?_) _ s) hs)) fun t ht c _ => ?_
  · split <;> rfl
  · split
    · exact ht
    · split
      next p _ => exact memoriesWf_dram ht (Memory.wf_write p c.2 (memoriesWf_iff.mp ht).1)
      next => exact ht

/-- Bytes written to the local SRAM of the stack core whose turn it is. -/
theorem memoriesWf_sram {s : State} (cells : List (Nat × Byte)) (bad : List Nat) (hs : memoriesWf s = true) :
    memoriesWf { s with inst := { s.inst with
      sram := cells.foldl (fun m c => m.write c.1 c.2) s.inst.sram, poison := bad } } = true := by
  obtain ⟨hd, hc, hi, hx⟩ := memoriesWf_iff.mp hs
  exact memoriesWf_iff.mpr ⟨hd, hc, Memory.wf_stores cells hi, hx⟩

theorem memoriesWf_keptByStores : KeptByStores fun s => memoriesWf s = true where
  hold _ direct cells hs hopen := memoriesWf_hold direct cells hs hopen
  l1Store core cells hs := memoriesWf_l1Store core cells hs
  writeHome cells hs := memoriesWf_writeHome cells hs
  writeBack num hs := memoriesWf_writeBack num hs
  writeBank cells hs := memoriesWf_writeBank cells hs
  sram cells bad hs := memoriesWf_sram cells bad hs
  stackMarks pas hs := memoriesWf_homed (stackMarks_homed _ pas) hs
  stackWrite cells hs := memoriesWf_stackWrite cells hs

/-! ### The lines of the L2 -/

/-- A whole line whose address has a home (R225). -/
def lineWf (s : State) (l : Line) : Prop :=
  l.data.length = 128 ∧ (s.regionOf (l.num * 128)).isSome = true ∧ inWindow (l.num * 128) = false

theorem linesFrom_iff : ∀ {n : Nat} {ls : List Line}, linesFrom n ls = true ↔
    ls.Pairwise (fun a b => a.num < b.num) ∧ ∀ l ∈ ls, n ≤ l.num ∧ l.data.length = 128
  | _, [] => by simp [linesFrom]
  | n, l :: rest => by
    simp only [linesFrom, Bool.and_eq_true, decide_eq_true_eq, beq_iff_eq, linesFrom_iff (ls := rest),
      List.pairwise_cons, List.forall_mem_cons]
    constructor
    · rintro ⟨⟨hn, hlen⟩, hp, hr⟩
      exact ⟨⟨fun x hx => (hr x hx).1, hp⟩, ⟨hn, hlen⟩, fun x hx => ⟨by have := (hr x hx).1; omega, (hr x hx).2⟩⟩
    · rintro ⟨⟨hl, hp⟩, ⟨hn, hlen⟩, hr⟩
      exact ⟨⟨hn, hlen⟩, hp, fun x hx => ⟨hl x hx, (hr x hx).2⟩⟩

theorem homesWf_iff {s : State} : homesWf s = true ↔
    firstBad s.rgn.active = none ∧ s.l2.Pairwise (fun a b => a.num < b.num) ∧ ∀ l ∈ s.l2, lineWf s l := by
  simp only [homesWf, Bool.and_eq_true, Option.isNone_iff_eq_none, linesFrom_iff, List.all_eq_true, Bool.not_eq_true',
    lineWf, Nat.zero_le, true_and]
  constructor
  · rintro ⟨⟨hb, hp, hlen⟩, hr⟩
    exact ⟨hb, hp, fun l hl => ⟨hlen l hl, hr l hl⟩⟩
  · rintro ⟨hb, hp, hl⟩
    exact ⟨⟨hb, hp, fun l h => (hl l h).1⟩, fun l h => (hl l h).2⟩

/-- Lines given up, or none. -/
theorem homesWf_sublist {s t : State} (hr : t.rgn = s.rgn) (hl : t.l2.Sublist s.l2) (hs : homesWf s = true) :
    homesWf t = true := by
  obtain ⟨hb, hp, hw⟩ := homesWf_iff.mp hs
  refine homesWf_iff.mpr ⟨hr ▸ hb, hp.sublist hl, fun l hm => ?_⟩
  simpa only [lineWf, State.regionOf, hr] using hw l (hl.subset hm)

/-- A line changed in place that keeps its number and its length. -/
theorem homesWf_updLine {s : State} {p : Line → Bool} {f : Line → Line} (hnum : ∀ l, (f l).num = l.num)
    (hlen : ∀ l : Line, l.data.length = 128 → (f l).data.length = 128) (hs : homesWf s = true) :
    homesWf { s with l2 := updBy p f s.l2 } = true := by
  obtain ⟨hb, hp, hw⟩ := homesWf_iff.mp hs
  refine homesWf_iff.mpr ⟨hb, ?_, fun l hm => ?_⟩
  · rw [← List.pairwise_map (f := Line.num) (R := (· < ·))] at hp ⊢
    rwa [map_updBy hnum]
  · obtain hm | ⟨y, hy, rfl⟩ := mem_updBy hm
    · exact hw l hm
    · obtain ⟨hl, hr⟩ := hw y (findBy_mem hy).1
      exact ⟨hlen y hl, (hnum y).symm ▸ hr⟩

/-- A line listed where none with its number is. -/
theorem homesWf_insertLine {s : State} {l : Line} (hnew : s.l2Line (l.num * 128) = none) (hl : lineWf s l)
    (hs : homesWf s = true) : homesWf { s with l2 := insertBy Line.num l s.l2 } = true := by
  obtain ⟨hb, hp, hw⟩ := homesWf_iff.mp hs
  refine homesWf_iff.mpr ⟨hb, insertBy_ascending hp fun y hy => ?_, fun x hx => ?_⟩
  · simpa using findBy_eq_none.mp hnew y hy
  · obtain rfl | hx := mem_insertBy.mp hx
    · exact hl
    · exact hw x hx

/-! ### Regions are made of whole lines (R223) -/

theorem entryOk_of_firstBad {t : List RgnEntry} (h : firstBad t = none) {i : Nat} (hi : i < t.length) :
    entryOk t i = true := by
  simpa using findBy_eq_none.mp h i (List.mem_range.mpr hi)

/-- An entry in use of a valid table begins and ends with a line. -/
theorem rgnLegal_lines {e : RgnEntry} (h : rgnLegal e = true) : e.base.toNat % 128 = 0 ∧ rgnBytes e % 128 = 0 := by
  simp only [rgnLegal, Bool.and_eq_true, beq_iff_eq] at h
  obtain ⟨⟨⟨⟨⟨⟨⟨hbase, _⟩, _⟩, _⟩, _⟩, _⟩, _⟩, _⟩ := h
  refine ⟨?_, by unfold rgnBytes; omega⟩
  split at hbase <;> simp only [Nat.reducePow] at hbase <;> omega

theorem rgnCovers_line {e : RgnEntry} (h : rgnLegal e = true) (pa : Nat) :
    rgnCovers e (pa / 128 * 128) = rgnCovers e pa := by
  obtain ⟨hb, hn⟩ := rgnLegal_lines h
  have : (e.base.toNat ≤ pa / 128 * 128 ∧ pa / 128 * 128 < e.base.toNat + rgnBytes e) ↔
      (e.base.toNat ≤ pa ∧ pa < e.base.toNat + rgnBytes e) := by omega
  simp only [rgnCovers, this]

/-- The line of an address in a region lies in that region. -/
theorem regionOf_line {s : State} {pa : Nat} (hb : firstBad s.rgn.active = none) (h : (s.regionOf pa).isSome = true) :
    (s.regionOf (pa / 128 * 128)).isSome = true := by
  obtain ⟨e, he, hc⟩ := findBy_isSome.mp h
  obtain ⟨i, hi, rfl⟩ := List.getElem_of_mem he
  have ok := entryOk_of_firstBad hb hi
  have used : rgnUsed s.rgn.active[i] = true := (Bool.and_eq_true_iff.mp hc).1
  have legal : rgnLegal s.rgn.active[i] = true := by
    simp only [entryOk, List.getElem?_eq_getElem hi, used, Bool.not_true, Bool.false_or, Bool.and_eq_true] at ok
    obtain ⟨⟨legal, -⟩, -⟩ := ok
    exact legal
  exact findBy_isSome.mpr ⟨_, he, (rgnCovers_line legal pa).trans hc⟩

theorem inWindow_line {pa : Nat} (h : inWindow pa = false) : inWindow (pa / 128 * 128) = false := by
  simp only [inWindow, decide_eq_false_iff_not] at h ⊢
  omega

/-! ### The homes of memory -/

theorem dramLine_length (s : State) (num : Nat) : (s.dramLine num).data.length = 128 := by
  simp [State.dramLine]

theorem setAt_length {l : List Byte} (i : Nat) (x : Byte) (h : l.length = 128) : (setAt l i x).length = 128 := by
  simp [setAt, h]

theorem homesWf_putHome {s : State} (pa : Nat) (b : Byte) (hs : homesWf s = true) :
    homesWf (s.putHome pa b) = true := by
  unfold State.putHome
  split
  · exact hs
  next hwin =>
    split
    · exact homesWf_updLine (fun _ => rfl) (fun _ h => setAt_length _ _ h) hs
    next hnew =>
      split
      next hr =>
        refine homesWf_insertLine (l := { s.dramLine (pa / 128) with data := _, dirty := true }) ?_ ⟨?_, ?_, ?_⟩ hs
        · simpa [State.l2Line, State.dramLine] using hnew
        · exact setAt_length _ _ (dramLine_length s _)
        · exact regionOf_line (homesWf_iff.mp hs).1 hr
        · exact inWindow_line (by simpa using hwin)
      next => exact hs

theorem homesWf_markPoison {s : State} (pa : Nat) (on : Bool) (hs : homesWf s = true) :
    homesWf (s.markPoison pa on) = true := by
  unfold State.markPoison
  split
  · exact hs
  · split
    · exact homesWf_updLine (fun _ => rfl) (fun _ h => h) hs
    · split <;> exact hs

theorem homesWf_clearCheck {s : State} (pa : Nat) (hs : homesWf s = true) : homesWf (s.clearCheck pa) = true := by
  unfold State.clearCheck
  split <;> exact hs

theorem homesWf_logError {s : State} (kind unit die asid addr crew : Nat) (hs : homesWf s = true) :
    homesWf (s.logError kind unit die asid addr crew) = true := by
  unfold State.logError
  dsimp only
  split <;> exact hs

theorem homesWf_beforeWrite {s : State} (addrs : List Nat) (hs : homesWf s = true) :
    homesWf (s.beforeWrite addrs) = true := by
  unfold State.beforeWrite
  refine List.foldlRecOn (motive := fun t : State => homesWf t = true) _ _ hs fun t ht sec _ => ?_
  dsimp only
  split
  · exact homesWf_clearCheck _ (ite_keeps (P := fun t => homesWf t = true) (homesWf_markPoison _ _ ht) ht)
  · split
    · exact homesWf_logError _ _ _ _ _ _ (homesWf_logError _ _ _ _ _ _
        (homesWf_clearCheck _ (homesWf_markPoison _ _ ht)))
    · exact homesWf_clearCheck _ ht

theorem homesWf_writeHome {s : State} (cells : List (Nat × Byte)) (hs : homesWf s = true) :
    homesWf (s.writeHome cells) = true :=
  List.foldlRecOn (motive := fun t : State => homesWf t = true) _ _
    (ite_keeps (P := fun t => homesWf t = true) hs (homesWf_beforeWrite _ hs))
    fun _ ht c _ => homesWf_putHome c.1 c.2 ht

theorem homesWf_keepInputs {s : State} (own : Option Nat) (pas : List Nat) (hs : homesWf s = true) :
    homesWf (s.keepInputs own pas) = true := by
  rw [keepInputs_tasks]
  exact hs

/-- A line that is written back is no longer listed, and no other line changes. -/
theorem homesWf_writeBack {s : State} (num : Nat) (hs : homesWf s = true) : homesWf (s.writeBack num) = true := by
  unfold State.writeBack
  split
  · exact hs
  · have dropped : homesWf (s.dropLine num) = true := homesWf_sublist (s := s) rfl (dropBy_sublist s.l2) hs
    dsimp only
    split
    · split <;> exact homesWf_keepInputs _ _ dropped
    · exact dropped

theorem homesWf_stackMarks {s : State} (pas : List Nat) (hs : homesWf s = true) :
    homesWf (s.stackMarks pas) = true := by
  unfold State.stackMarks
  refine List.foldlRecOn (motive := fun t : State => homesWf t = true) _ _ hs fun t ht sec _ => ?_
  split
  · exact ht
  · split
    · exact ht
    · split
      · exact homesWf_logError _ _ _ _ _ _ (homesWf_logError _ _ _ _ _ _ ht)
      · exact ht

/-- A stack core writes DRAM; a line of it that an L2 goes on holding is listed whole (R271). -/
theorem homesWf_stackWrite {s : State} (cells : List (Nat × Byte)) (hs : homesWf s = true) :
    homesWf (s.stackWrite cells) = true := by
  unfold State.stackWrite
  refine List.foldlRecOn (motive := fun t : State => homesWf t = true) _ _
    (homesWf_keepInputs _ _ ?_) fun t ht c _ => ?_
  · refine List.foldlRecOn (motive := fun t : State => homesWf t = true) _ _ hs fun t ht num _ => ?_
    split
    next h =>
      simp only [Bool.and_eq_true, Bool.not_eq_true', Option.isNone_iff_eq_none] at h
      obtain ⟨⟨⟨hwin, hnew⟩, hr⟩, _⟩ := h
      exact homesWf_insertLine hnew ⟨dramLine_length t num, hr, hwin⟩ ht
    next => exact ht
  · split
    · exact ht
    · split <;> exact ht

theorem homesWf_keptByStores : KeptByStores fun s => homesWf s = true where
  hold _ _ _ hs _ := hs
  l1Store core cells hs := by
    rw [l1Store_cores]
    exact hs
  writeHome cells hs := homesWf_writeHome cells hs
  writeBack num hs := homesWf_writeBack num hs
  writeBank cells hs := writeBank_keeps (P := fun t => homesWf t = true) (fun _ _ _ _ => id) (fun _ _ _ => id) cells hs
  sram _ _ hs := hs
  stackMarks pas hs := homesWf_stackMarks pas hs
  stackWrite cells hs := homesWf_stackWrite cells hs

/-! ### Every store of the package -/

/-- Settles O56: each store is made of parts that keep the canonical form of the memories, and those that reach the L2
keep its lines (R223). -/
theorem storesKeepCanonicalForm : Obligations.StoresKeepCanonicalForm := fun _ hs =>
  have memories := memoriesWf_keptByStores
  have homes := homesWf_keptByStores
  ⟨fun crew core held mt cells => memories.gangWrite crew core held mt cells hs,
    fun cells => memories.writePlaces cells hs, fun cells => memories.writeHome cells hs,
    fun l => memories.stackStore l hs, fun num => memories.writeBack num hs,
    fun _ _ r on x => memoriesWf_updPage hs fun _ => Page.wf_putRow r on x,
    fun hh => ⟨fun crew core held mt cells => homes.gangWrite crew core held mt cells hh,
      fun cells => homes.writePlaces cells hh, fun cells => homes.writeHome cells hh,
      fun l => homes.stackStore l hh, fun num => homes.writeBack num hh⟩⟩

end Sys2Proof.Machine
end

section
/-! Every instruction and every step of the device answers a next state, by the shared operation that gives its answer. -/

namespace Sys2Proof.Machine

open Sys2Proof

/-- A stack-core instruction's answer is a next state, whether it completes, traps or waits. -/
theorem SAct.stack_next (a : SAct) : ∃ t, a.stack = .next t := by
  cases a <;> exact ⟨_, rfl⟩

/-- A choice between two answers that are next states is one. -/
theorem ite_next {p : Prop} [Decidable p] {x y : Out} (hx : ∃ t, x = .next t) (hy : ∃ t, y = .next t) :
    ∃ t, (if p then x else y) = .next t := by
  split <;> assumption

/-- exec answers a next state: the instructions by what gives their answer. -/
theorem exec_next (i : Instr) (s : State) : ∃ t, exec i s = .next t := by
  cases i with
  -- Scalar instructions: the answer of an `Act`.
  | kadd | ksub | kand | kor | kxor | kshl | kshr | ksra | kmul | kmulh | kmulhn | kdiv | kdivn | krem | kremn |
    kmin | kmax | kminn | kmaxn | kslt | ksltn | kseq | kclz | kpopc | kaddi | kandi | kori | kxori | kshli | kshri
    | ksrai | kslti | ksltni | kld | kst | kjalr | kcall | kret | lbk | lget | csrr | csrw | ktrap | sgld | ktlbi |
    fence | fenceAcq | fenceRel | fenceSc | fencex | pwait | cbwait | cseal | srec | cpm | barinit | barr | barw |
    barrw | barx | rgrow | rshrk | racq | bmodeStor | bmodeComp | bstepOff | bstepOn | bstepStep | bquery | bsync |
    bvAdd | bvSub | bvMul | bvNeg | bvAddk | bvAnd | bvOr | bvXor | bvNot | bvCpy | bvSet | bvShl | bvShr | bvCmpeq
    | bvCmplt | bvCmpltn | bvSel | bvPld | bvPst | mtx | mclr | mdrain | klaunch | bdsub | vbeg | vcom | lsync |
    keret | kend =>
    exact Act.scalar_next _ _
  -- Two of them that choose between two such answers.
  | kins | kbr =>
    exact ite_next (Act.scalar_next _ _) (Act.scalar_next _ _)
  -- Lane instructions: the frame of R119.
  | iadd | isub | imul | imulh | imad | iabs | ineg | imin | imax | iaddc | isad | idp4 | lAnd | lOr | lXor | lNot |
    andn | lop3 | shl | shr | sra | rotl | popc | clz | brev | bfe | bfi | prmt | icmp | pand | por | pxor | pnot |
    mov | movi | sel | getsr | cvt | cvtPk | cvtQ8 | fadd | fsub | fmul | ffma | fmin | fmax | fabs | fneg | fscale
    | fcmp | fclass | frcp | frsq | fsqrt | fdiv | fexp2 | flog2 | fsin | fcos | smm8 | smm8Tb | shfl | vote |
    ballot | redux | xmatch | scan | ld | ldRec | st | atomAdd | atomMin | atomMax | atomMinn | atomMaxn | atomAnd |
    atomOr | atomXor | atomExch | atomCas | atomFadd | cpa | cpt | bra | cpr | cpw | xfmTr | xfmQ | xfmDq | xfmX4 |
    xfmZc | xfmZd | lnop | lstat | lclock | join | lend =>
    exact State.lane_next _ _ _ _
  -- Stack-core instructions that may trap or wait: the answer of a `SAct`.
  | sld | sst | sbeq | sbne | sblt | sbge | sjal | sjr | vld | vst | vlds | vsts | vadd | vsub | vmul | vfma | vmin
    | vmax | vcvt | msend | mrecv | mwait | mpoll | sflag | scsrr | scsrw =>
    exact SAct.stack_next _
  -- The traps of a fetch, in each stream: none where nothing runs.
  | instructionFetchFault st | illegalInstruction st =>
    cases st <;> exact ite_next ⟨_, rfl⟩ ⟨_, rfl⟩
  -- Instructions that check nothing, and the device's steps: a next state as they stand.
  | klui | kjal | lslots | knop | kbrk | kyield | sadd | ssub | sand | sor | sxor | sshl | sshr | ssra | smul | sslt
    | ssltn | saddi | sli | slhi | vsplat | vbaccF32 | vbaccMulF32 | vbaccMulBf16 | vbrd | vbclr | vhsum | sfence |
    shalt | syield | packageReset | create | enable | quiesce | quiesceDone | resume | destroy | cpctlBadop |
    cptlbiPage | cptlbiAll | tlbiAck | tlbiTimeout | doorbell | widxPoll | launch | copy | copyCommandDone |
    stacktask | wait | waitEval | signal | aggregateClose | crewAdmit | crewWakeDone | preempt | shadowSwapDone |
    saveEngineWrite | copyDrainLimit | pageWritebackDone | crewRestore | pageRefillDone | grant | deadlock |
    regbankPowerGate | chainBreak | kyieldExpire | laneBlockStart | waitEnd | loadReturn | storeAck | copyLand |
    multicastDelivery | bankOpComplete | mxStart | mxComplete | smmComplete | xfmReply | heartbeatTick |
    regionCommit | regionCommitDone | debugHalt | debugResume | debugStep | debugBack | debugCquiesce | debugArmbrk
    | debugDisarmbrk | debugRead | debugWrite | debugBadop | stackFlushDone | stackInstanceStart | stackPreempt |
    stackTaskFinish | cwpctlEnable | cwpctlFence | portTrainingDone | portTrainingTimeout | retrainTrigger |
    retrainDone | retrainTimeout | flitReceive | ackReceive | nakReceive | groupStallTimeout | cwringWrite |
    cwRingPoll | send | recv | recvadd | ucieRepair | ucieModuleLoss | softError | errlogPop | pwrctlWrite |
    throttleAdjust | thermalTrip | attestationRequest | firmwareStage | mgmtRead | hostAccess | registerWrite =>
    exact ⟨_, rfl⟩

/-- Settles O52, by the instruction: each answers through an operation whose every answer is a next state. -/
theorem execAlwaysAnswers : Obligations.ExecAlwaysAnswers := exec_next

end Sys2Proof.Machine
end

section
/-! What a byte at its home reads as after a write, and what lines given up leave (R225, R231). -/

namespace Sys2Proof.Machine

open Sys2Proof
open Sys2Proof.Safety

/-! ### The entry of a key -/

theorem findBy_updBy {α : Type} {key : α → Nat} {f : α → α} (hf : ∀ x, key (f x) = key x) (m n : Nat) :
    ∀ l : List α, findBy (fun x => key x == n) (updBy (fun x => key x == m) f l) =
      if n = m then (findBy (fun x => key x == m) l).map f else findBy (fun x => key x == n) l
  | [] => by simp [updBy, findBy]
  | y :: rest => by
    have ih := findBy_updBy hf m n rest
    by_cases hy : key y = m
    · by_cases hn : n = m
      · simp [updBy, findBy, hy, hf, hn]
      · simp [updBy, findBy, hy, hf, hn, Ne.symm hn]
    · by_cases hn : n = m
      · subst hn
        simpa [updBy, findBy, hy] using ih
      · by_cases hyn : key y = n
        · simp [updBy, findBy, hn, hyn]
        · simpa [updBy, findBy, hy, hn, hyn] using ih

theorem findBy_insertBy {α : Type} {key : α → Nat} {x : α} (n : Nat) : ∀ {l : List α},
    findBy (fun y => key y == key x) l = none →
    findBy (fun y => key y == n) (insertBy key x l) = if n = key x then some x else findBy (fun y => key y == n) l
  | [], _ => by
    by_cases hn : key x = n
    · simp [insertBy, findBy, hn]
    · simp [insertBy, findBy, hn, Ne.symm hn]
  | y :: rest, h => by
    obtain ⟨hy, hrest⟩ : key y ≠ key x ∧ findBy (fun y => key y == key x) rest = none := by
      by_cases hy : key y = key x <;> simp_all [findBy]
    unfold insertBy
    split
    · by_cases hn : n = key x
      · simp [findBy, hn]
      · simp [findBy, hn, Ne.symm hn]
    · have ih := findBy_insertBy n hrest
      by_cases hyn : key y = n
      · have hn : n ≠ key x := hyn ▸ hy
        simp [findBy, hyn, hn]
      · simp [findBy, hyn, ih]

/-! ### What a byte at its home reads as after a write -/

/-- A byte at its home, by the L2 line that holds it, if any. -/
theorem homeByte_eq (s : State) (a : Nat) : s.homeByte a =
    if inWindow a then s.windowByte a else (s.l2Line a).elim (s.dramByte a) fun l => l.data.getD (a % 128) 0 := by
  unfold State.homeByte
  cases s.l2Line a <;> rfl

/-- What leaves all but the homes of memory, and the bytes of the line of an address, leaves the byte there. -/
theorem homeByte_of_line {s t : State} {a : Nat} (h : t = homed s t)
    (hl : (t.l2Line a).map Line.data = (s.l2Line a).map Line.data) : t.homeByte a = s.homeByte a := by
  have window : t.windowByte a = s.windowByte a := by rw [h]; rfl
  have dram : t.dramByte a = s.dramByte a := by rw [h]; rfl
  rw [homeByte_eq, homeByte_eq, window, dram]
  revert hl
  cases t.l2Line a <;> cases s.l2Line a <;> simp +contextual

theorem homeByte_markPoison (s : State) (pa : Nat) (on : Bool) (a : Nat) :
    (s.markPoison pa on).homeByte a = s.homeByte a := by
  refine homeByte_of_line (markPoison_homed s pa on) ?_
  unfold State.markPoison
  split
  · rfl
  · split
    · simp only [State.l2Line]
      rw [findBy_updBy (key := Line.num)]
      · split
        next h =>
          rw [h]
          cases findBy (fun l : Line => l.num == pa / 128) s.l2 <;> rfl
        next => rfl
      · exact fun _ => rfl
    · split <;> rfl

theorem homeByte_clearCheck (s : State) (pa a : Nat) : (s.clearCheck pa).homeByte a = s.homeByte a :=
  homeByte_of_line (clearCheck_homed s pa) (by unfold State.clearCheck; split <;> rfl)

theorem homeByte_logError (s : State) (kind unit die asid addr crew a : Nat) :
    (s.logError kind unit die asid addr crew).homeByte a = s.homeByte a :=
  homeByte_of_line (logError_homed ..) (by unfold State.logError; dsimp only; split <;> rfl)

/-- Before a write, marks and check values alone change (R376, R377). -/
theorem homeByte_beforeWrite (s : State) (addrs : List Nat) (a : Nat) :
    (s.beforeWrite addrs).homeByte a = s.homeByte a := by
  unfold State.beforeWrite
  refine List.foldlRecOn (motive := fun t : State => t.homeByte a = s.homeByte a) _ _ rfl fun t ht sec _ => ?_
  dsimp only
  rw [← ht]
  split
  · rw [homeByte_clearCheck]
    split
    · exact homeByte_markPoison ..
    · rfl
  · split
    · simp only [State.logSector, homeByte_logError, homeByte_clearCheck, homeByte_markPoison]
    · exact homeByte_clearCheck ..

theorem setAt_getD {l : List Byte} {i : Nat} (hi : i < 128) (x : Byte) (j : Nat) :
    (setAt l i x).getD j 0 = if j = i then x else l.getD j 0 := by
  unfold setAt
  have len : i < (l ++ List.replicate (128 - l.length) 0).length := by
    simp only [List.length_append, List.length_replicate]; omega
  by_cases h : j = i
  · subst h
    rw [List.getD_eq_getElem?_getD, List.getElem?_set_self len]
    simp
  · simp only [List.getD_eq_getElem?_getD, List.getElem?_set_ne (Ne.symm h), h, if_false, List.getElem?_append]
    split
    · rfl
    · rw [List.getElem?_eq_none (by omega : l.length ≤ j), List.getElem?_replicate]
      split <;> rfl

theorem l2Line_putHome (s : State) (pa : Nat) (b : Byte) (hw : inWindow pa = false)
    (hr : (s.regionOf pa).isSome = true ∨ (s.l2Line pa).isSome = true) (a : Nat) :
    ((s.putHome pa b).l2Line a).map Line.data =
      if a / 128 = pa / 128 then some (setAt (((s.l2Line pa).getD (s.dramLine (pa / 128))).data) (pa % 128) b)
      else (s.l2Line a).map Line.data := by
  unfold State.putHome
  rw [if_neg (by simp [hw])]
  split
  next l hl =>
    simp only [State.l2Line] at hl ⊢
    rw [findBy_updBy (key := Line.num), hl]
    · split <;> rfl
    · exact fun _ => rfl
  next hl =>
    rw [if_pos (by simpa [hl] using hr), hl]
    simp only [State.l2Line] at hl ⊢
    rw [findBy_insertBy (key := Line.num) (x := { s.dramLine (pa / 128) with data := _, dirty := true }) _ hl]
    change Option.map _ (if a / 128 = pa / 128 then _ else _) = _
    split <;> rfl

/-- A byte stored at its home leaves every other byte (R225). -/
theorem homeByte_putHome_ne {s : State} {pa a : Nat} (b : Byte) (h : a ≠ pa) :
    (s.putHome pa b).homeByte a = s.homeByte a := by
  by_cases reached : inWindow pa = false ∧ ((s.regionOf pa).isSome = true ∨ (s.l2Line pa).isSome = true)
  · obtain ⟨hw, hr⟩ := reached
    have line := l2Line_putHome s pa b hw hr a
    by_cases hl : a / 128 = pa / 128
    · rw [if_pos hl] at line
      obtain ⟨l, found, data⟩ := Option.map_eq_some_iff.mp line
      have apart : a % 128 ≠ pa % 128 := by omega
      have homed := putHome_homed s pa b
      have window : (s.putHome pa b).windowByte a = s.windowByte a := by rw [homed]; rfl
      have same : s.l2Line a = s.l2Line pa := by simp only [State.l2Line, hl]
      rw [homeByte_eq, homeByte_eq, window, found, same]
      simp only [Option.elim_some, data, setAt_getD (Nat.mod_lt pa (by decide : 0 < 128)), if_neg apart]
      split
      · rfl
      · cases hold : s.l2Line pa with
        | some l => rfl
        | none =>
          simp only [Option.getD_none, Option.elim_none, State.dramLine]
          rw [List.getD_eq_getElem?_getD, List.getElem?_map, List.getElem?_range (Nat.mod_lt a (by decide))]
          simp only [Option.map_some, Option.getD_some]
          rw [← hl, Nat.mul_comm, Nat.div_add_mod]
    · exact homeByte_of_line (putHome_homed s pa b) (line.trans (if_neg hl))
  · have still : s.putHome pa b = s := by
      unfold State.putHome
      simp only [not_and_or, not_or, Bool.not_eq_false, Bool.not_eq_true, Option.isSome_eq_false_iff,
        Option.isNone_iff_eq_none] at reached
      obtain hw | ⟨hr, hl⟩ := reached
      · rw [if_pos hw]
      · rw [hl]
        simp [hr]
    rw [still]

/-- A byte stored at an address in a region reads back. -/
theorem homeByte_putHome {s : State} {pa : Nat} (b : Byte) (hw : inWindow pa = false)
    (hr : (s.regionOf pa).isSome = true) : (s.putHome pa b).homeByte pa = b := by
  have line := l2Line_putHome s pa b hw (.inl hr) pa
  rw [if_pos rfl] at line
  obtain ⟨l, found, data⟩ := Option.map_eq_some_iff.mp line
  rw [homeByte_eq, found, hw, Option.elim_some, data, setAt_getD (Nat.mod_lt pa (by decide : 0 < 128))]
  simp

theorem regionOf_homed {s t : State} (h : t = homed s t) (a : Nat) : t.regionOf a = s.regionOf a := by
  rw [h]
  rfl

theorem homeByte_putAll_ne {a : Nat} : ∀ (cells : List (Nat × Byte)) (s : State), (∀ c ∈ cells, c.1 ≠ a) →
    (cells.foldl (fun s c => s.putHome c.1 c.2) s).homeByte a = s.homeByte a
  | [], _, _ => rfl
  | c :: rest, s, h => by
    obtain ⟨hc, hrest⟩ := List.forall_mem_cons.mp h
    rw [List.foldl_cons, homeByte_putAll_ne rest _ hrest, homeByte_putHome_ne _ hc.symm]

theorem mem_cellsFrom : ∀ {bs : List Byte} {pa : Nat} {c : Nat × Byte}, c ∈ cellsFrom pa bs →
    pa ≤ c.1 ∧ c.1 < pa + bs.length
  | b :: rest, pa, c, h => by
    simp only [cellsFrom, List.mem_cons, List.length_cons] at h ⊢
    obtain rfl | h := h
    · exact ⟨le_rfl, by dsimp only; omega⟩
    · have := mem_cellsFrom h
      omega

theorem homeByte_putFrom {bs : List Byte} {s : State} {pa i : Nat} (hi : i < bs.length) (h : stores s pa bs.length) :
    ((cellsFrom pa bs).foldl (fun s c => s.putHome c.1 c.2) s).homeByte (pa + i) = bs.getD i 0 := by
  induction bs generalizing s pa i with
  | nil => simp at hi
  | cons b rest ih =>
    rw [cellsFrom, List.foldl_cons]
    cases i with
    | zero =>
      obtain ⟨hr, hw⟩ := h 0 (by simp)
      rw [homeByte_putAll_ne _ _ fun c hc => by have := mem_cellsFrom hc; omega]
      exact homeByte_putHome b hw hr
    | succ i =>
      have reached : stores (s.putHome pa b) (pa + 1) rest.length := fun j hj => by
        rw [regionOf_homed (putHome_homed s pa b), Nat.add_assoc, Nat.add_comm 1 j]
        exact h (j + 1) (by simpa using hj)
      rw [Nat.add_comm i 1, ← Nat.add_assoc, ih (by simpa using hi) reached, Nat.add_comm 1 i, List.getD_cons_succ]

/-- What a write of bytes starts from once marks and check values are settled: the same bytes (R376, R377). -/
theorem writeHome_from (s : State) (cells : List (Nat × Byte)) : ∃ t, t = homed s t ∧
    (∀ a, t.homeByte a = s.homeByte a) ∧ s.writeHome cells = cells.foldl (fun s c => s.putHome c.1 c.2) t := by
  unfold State.writeHome
  split
  · exact ⟨s, rfl, fun _ => rfl, rfl⟩
  · exact ⟨_, beforeWrite_homed .., homeByte_beforeWrite s _, rfl⟩

theorem homeByte_writeHomeBytes_outside (s : State) {pa a : Nat} (bs : List Byte) (h : a < pa ∨ pa + bs.length ≤ a) :
    (s.writeHomeBytes pa bs).homeByte a = s.homeByte a := by
  obtain ⟨t, -, same, written⟩ := writeHome_from s (cellsFrom pa bs)
  rw [State.writeHomeBytes, written, homeByte_putAll_ne _ _ fun c hc => by have := mem_cellsFrom hc; omega, same]

theorem homeBytes_writeHomeBytes {s : State} {pa : Nat} {bs : List Byte} (h : stores s pa bs.length) :
    (s.writeHomeBytes pa bs).homeBytes pa bs.length = bs := by
  obtain ⟨t, homed, -, written⟩ := writeHome_from s (cellsFrom pa bs)
  have reached : stores t pa bs.length := fun i hi => by
    rw [regionOf_homed homed]
    exact h i hi
  refine List.ext_getElem (by simp [State.homeBytes]) fun i hi _ => ?_
  have below : i < bs.length := by simpa [State.homeBytes] using hi
  simp only [State.homeBytes, List.getElem_map, List.getElem_range, State.writeHomeBytes, written]
  rw [homeByte_putFrom below reached, List.getD_eq_getElem _ _ below]

/-! ### Lines given up before an access -/

/-- What a drop takes from a list is the entry that a search finds. -/
theorem findBy_of_dropped {α : Type} {p : α → Bool} {x : α} : ∀ {l : List α},
    x ∈ l → x ∉ dropBy p l → findBy p l = some x
  | y :: rest, hx, hd => by
    by_cases hy : p y = true
    · simp only [dropBy, hy, if_true] at hd
      obtain rfl | hx := List.mem_cons.mp hx
      · simp [findBy, hy]
      · exact absurd hx hd
    · simp only [dropBy, hy, Bool.false_eq_true, if_false, List.mem_cons, not_or] at hd
      obtain rfl | hx := List.mem_cons.mp hx
      · exact absurd rfl hd.1
      · simpa [findBy, hy] using findBy_of_dropped hx hd.2

/-- t is s with some clean lines that DRAM differs from given up (R231). -/
def gaveUp (s t : State) : Prop :=
  t = { s with l2 := t.l2 } ∧ t.l2.Sublist s.l2 ∧
    ∀ l ∈ s.l2, l ∉ t.l2 → l.dirty = false ∧ l.data ≠ (s.dramLine l.num).data

theorem gaveUp_refl (s : State) : gaveUp s s := ⟨rfl, List.Sublist.refl _, fun _ h h' => absurd h h'⟩

theorem gaveUp_trans {s t u : State} (h : gaveUp s t) (h' : gaveUp t u) : gaveUp s u := by
  obtain ⟨ht, hsub, hleft⟩ := h
  obtain ⟨hu, hsub', hleft'⟩ := h'
  have dram (n : Nat) : t.dramLine n = s.dramLine n := by rw [ht]; rfl
  refine ⟨by rw [hu, ht], hsub'.trans hsub, fun l hl hn => ?_⟩
  by_cases hm : l ∈ t.l2
  · exact dram l.num ▸ hleft' l hm hn
  · exact hleft l hl hm

theorem gaveUp_settleLine (s : State) (pa : Nat) : gaveUp s (s.settleLine pa) := by
  unfold State.settleLine
  split
  next l found =>
    split
    next h =>
      simp only [Bool.and_eq_true, Bool.not_eq_true', bne_iff_ne] at h
      obtain ⟨⟨clean, differs⟩, _⟩ := h
      refine ⟨rfl, dropBy_sublist _, fun m hm hn => ?_⟩
      have first : (fun x : Line => x.num == l.num) = fun x => x.num == pa / 128 := by
        have := (findBy_mem found).2
        rw [beq_iff_eq] at this
        rw [this]
      have gone : s.l2Line pa = some m := by
        have := findBy_of_dropped hm hn
        rwa [first] at this
      obtain rfl : l = m := Option.some.inj (found.symm.trans gone)
      exact ⟨clean, differs⟩
    next => exact gaveUp_refl s
  next => exact gaveUp_refl s

theorem gaveUp_settleLines (s : State) (pa n : Nat) : gaveUp s (s.settleLines pa n) :=
  List.foldlRecOn (motive := fun t => gaveUp s t) _ _ (gaveUp_refl s)
    fun _ h _ _ => gaveUp_trans h (gaveUp_settleLine _ _)

/-- A line of a list in strict order is the one found by its number. -/
theorem findBy_num {l : Line} {ls : List Line} (hp : ls.Pairwise fun a b => a.num < b.num) (hl : l ∈ ls) :
    findBy (fun x => x.num == l.num) ls = some l := by
  induction ls with
  | nil => simp at hl
  | cons y rest ih =>
    obtain ⟨hy, hrest⟩ := List.pairwise_cons.mp hp
    obtain rfl | hl := List.mem_cons.mp hl
    · simp [findBy]
    · simpa [findBy, (hy l hl).ne] using ih hrest hl

/-- Lines given up are a matter of the caches alone. -/
theorem onlyCaches_of_gaveUp {s t : State} (h : gaveUp s t) : onlyCaches s t := by
  obtain ⟨ht, hsub, hleft⟩ := h
  have core (n : Nat) : t.core n = s.core n := by rw [ht]; rfl
  refine ⟨by rw [ht], fun n => by rw [core n], fun l hl => hsub.subset hl, fun hs => ⟨hleft, fun a => ?_⟩⟩
  obtain ⟨_, ordered, _⟩ := homesWf_iff.mp hs
  have window : t.windowByte a = s.windowByte a := by rw [ht]; rfl
  have dram : t.dramByte a = s.dramByte a := by rw [ht]; rfl
  have homes := homeByte_eq t a
  rw [window, dram] at homes
  cases found : s.l2Line a with
  | none =>
    have gone : t.l2Line a = none := findBy_eq_none.mpr fun l hl => findBy_eq_none.mp found l (hsub.subset hl)
    left
    rw [homes, homeByte_eq, found, gone]
  | some l =>
    obtain ⟨hl, hnum⟩ := findBy_mem found
    rw [beq_iff_eq] at hnum
    by_cases kept : l ∈ t.l2
    · have still : t.l2Line a = some l := by
        have := findBy_num (ordered.sublist hsub) kept
        rwa [hnum] at this
      left
      rw [homes, homeByte_eq, found, still]
    · have gone : t.l2Line a = none := findBy_eq_none.mpr fun m hm => by
        by_contra hne
        have same : m.num = l.num := by simpa [hnum] using hne
        have := findBy_num ordered (hsub.subset hm)
        rw [same, findBy_num ordered hl] at this
        exact kept (Option.some.inj this ▸ hm)
      by_cases hw : inWindow a = true
      · left
        rw [homes, homeByte_eq, if_pos hw, if_pos hw]
      · right
        rw [homes, if_neg hw, gone]
        exact ⟨rfl, l, hl, kept, hnum, (hleft l hl kept).1⟩

theorem settleLine_hosts (s : State) (hosts : List HostCore) (pa : Nat) :
    ({ s with hosts := hosts } : State).settleLine pa = { s.settleLine pa with hosts := hosts } := by
  have line : ({ s with hosts := hosts } : State).l2Line pa = s.l2Line pa := rfl
  unfold State.settleLine
  rw [line]
  cases s.l2Line pa with
  | none => rfl
  | some l =>
    exact (apply_ite (fun t : State => ({ t with hosts := hosts } : State))
      ((!l.dirty && l.data != (s.dramLine l.num).data && s.choose 1 l.num) = true) (s.dropLine l.num) s).symm

theorem settleLines_hosts (s : State) (hosts : List HostCore) (pa n : Nat) :
    ({ s with hosts := hosts } : State).settleLines pa n = { s.settleLines pa n with hosts := hosts } :=
  (List.foldl_hom (fun t : State => ({ t with hosts := hosts } : State)) fun t l =>
    (settleLine_hosts t hosts (l * 128)))

/-! ### Settling once -/

theorem distinct_replicate (x : Nat) : ∀ n : Nat, distinct (List.replicate (n + 1) x) = [x]
  | 0 => rfl
  | n + 1 => by
    rw [List.replicate_succ, distinct, if_pos (by simp), distinct_replicate x n]

/-- An aligned access of 4 or 8 bytes touches one line. -/
theorem settleLines_whole (s : State) {pa n : Nat} (hn : n = 4 ∨ n = 8) (ha : pa % n = 0) :
    s.settleLines pa n = s.settleLine (pa / 128 * 128) := by
  have line : (List.range n).map (fun i => (pa + i) / 128) = List.replicate n (pa / 128) := by
    refine List.eq_replicate_iff.mpr ⟨by simp, fun b hb => ?_⟩
    obtain ⟨i, hi, rfl⟩ := List.mem_map.mp hb
    have := List.mem_range.mp hi
    obtain rfl | rfl := hn <;> omega
  unfold State.settleLines
  obtain rfl | rfl := hn <;> rw [line, distinct_replicate] <;> rfl

/-- A line dropped by its number leaves none of that number. -/
theorem not_num_of_dropped {n : Nat} {m : Line} {ls : List Line} (hp : ls.Pairwise fun a b => a.num < b.num)
    (hm : m ∈ dropBy (fun x => x.num == n) ls) : m.num ≠ n := by
  induction ls with
  | nil => simp [dropBy] at hm
  | cons y rest ih =>
    obtain ⟨hy, hrest⟩ := List.pairwise_cons.mp hp
    by_cases first : y.num = n
    · rw [dropBy, if_pos (by simpa using first)] at hm
      exact first ▸ (hy m hm).ne'
    · rw [dropBy, if_neg (by simpa using first)] at hm
      obtain rfl | hm := List.mem_cons.mp hm
      · exact first
      · exact ih hrest hm

theorem settleLine_none {s : State} {pa : Nat} (h : s.l2Line pa = none) : s.settleLine pa = s := by
  rw [State.settleLine, h]

/-- Where the lines of the L2 are listed once each, settling a line once settles it. -/
theorem settleLine_settleLine {s : State} (hs : homesWf s = true) (pa : Nat) :
    (s.settleLine pa).settleLine pa = s.settleLine pa := by
  obtain ⟨_, ordered, _⟩ := homesWf_iff.mp hs
  by_cases same : s.settleLine pa = s
  · rw [same, same]
  · have gone : (s.settleLine pa).l2Line pa = none := by
      revert same
      unfold State.settleLine
      split
      next l found =>
        split
        · intro _
          obtain ⟨hl, hnum⟩ := findBy_mem found
          rw [beq_iff_eq] at hnum
          refine findBy_eq_none.mpr fun m hm => ?_
          by_contra hne
          have num : m.num = l.num := by simpa [hnum] using hne
          exact absurd num (not_num_of_dropped ordered hm)
        · exact fun h => absurd rfl h
      next => exact fun h => absurd rfl h
    exact settleLine_none gone

end Sys2Proof.Machine
end

section
/-! The harbour control block: its reads, its writes, ERRLOG_POP and PWRCTL (R402, R405, R407). -/

namespace Sys2Proof.Machine

open Sys2Proof
open Sys2Proof.Safety

/-! ### The harbour control block -/

theorem field_eq_mod {w : Nat} (x : BitVec w) (n : Nat) : field x 0 n = x.toNat % 2 ^ n := by
  simp [field, BitVec.extractLsb'_toNat]

theorem portAllows_iff (lvl : HostLevel) (o : Nat) (write : Bool) :
    (o < harbourSize ∧ portAllows lvl o write = true) ↔ reaches lvl o write := by
  unfold portAllows reaches harbourSize
  by_cases low : o < 0x10000
  · simp [low, show ¬0x10000 ≤ o by omega, show ¬0x20000 ≤ o by omega, show o < 0x30000 by omega]
  · by_cases mid : o < 0x20000
    · simp [low, mid, show ¬0x20000 ≤ o by omega, show o < 0x30000 by omega, show 0x10000 ≤ o by omega]
    · simp [low, mid, show 0x20000 ≤ o by omega]

/-- What a host store or load of the block asks before it touches a register. -/
theorem refused_iff (lvl : HostLevel) (a : Nat) (write : Bool) :
    (decide (a < harbourBase ∨ harbourSize ≤ a - harbourBase) || a % 8 != 0 ||
      !portAllows lvl (a - harbourBase) write) = true ↔
      ¬(harbourBase ≤ a ∧ a % 8 = 0 ∧ reaches lvl (a - harbourBase) write) := by
  rw [← portAllows_iff]
  generalize harbourBase = base
  generalize harbourSize = size
  simp only [Bool.or_eq_true, decide_eq_true_eq, bne_iff_ne, Bool.not_eq_true', ← Bool.not_eq_true, ← not_lt]
  tauto

theorem blockStore_fault {s : State} {lvl : HostLevel} {a : Nat} {x : Word}
    (h : ¬(harbourBase ≤ a ∧ a % 8 = 0 ∧ reaches lvl (a - harbourBase) true)) :
    s.blockStore lvl a x = { s with reply := .fault } :=
  if_pos ((refused_iff ..).mpr h)

theorem blockStore_write {s : State} {lvl : HostLevel} {a : Nat} {x : Word} (ha : harbourBase ≤ a) (h8 : a % 8 = 0)
    (h : reaches lvl (a - harbourBase) true) :
    s.blockStore lvl a x = { s.portWrite lvl (a - harbourBase) x with reply := .none } :=
  if_neg fun no => (refused_iff ..).mp no ⟨ha, h8, h⟩

theorem blockLoad_fault {s : State} {lvl : HostLevel} {a : Nat}
    (h : ¬(harbourBase ≤ a ∧ a % 8 = 0 ∧ reaches lvl (a - harbourBase) false)) :
    s.blockLoad lvl a = { s with reply := .fault } :=
  if_pos ((refused_iff ..).mpr h)

theorem blockLoad_read {s : State} {lvl : HostLevel} {a : Nat} (ha : harbourBase ≤ a) (h8 : a % 8 = 0)
    (h : reaches lvl (a - harbourBase) false) :
    s.blockLoad lvl a =
      { (s.portRead (a - harbourBase)).2 with reply := .value (s.portRead (a - harbourBase)).1 } :=
  if_neg fun no => (refused_iff ..).mp no ⟨ha, h8, h⟩

theorem flag_mul (b : Bool) (n : Nat) : (if b then 2 ^ n else 0) = flag b * 2 ^ n := by
  cases b <;> simp [flag]

/-- The fields of a register, each shifted to its place. -/
theorem word_two (a b j k : Nat) : word [(a, j), (b, k)] = BitVec.ofNat 64 (a * 2 ^ j + b * 2 ^ k) := by
  simp [word, sumNat]

theorem word_three (a b c j k : Nat) :
    word [(a, 0), (b, j), (c, k)] = BitVec.ofNat 64 (a + 2 ^ j * b + 2 ^ k * c) := by
  simp [word, sumNat, Nat.mul_comm]

theorem word_four (a b c d i j k l : Nat) :
    word [(a, i), (b, j), (c, k), (d, l)] = BitVec.ofNat 64 (a * 2 ^ i + b * 2 ^ j + 2 ^ k * c + 2 ^ l * d) := by
  simp [word, sumNat, Nat.mul_comm]

theorem word_flagged (a b k : Nat) : word [(a, 0), (b, k)] = BitVec.ofNat 64 (a + b * 2 ^ k) := by
  simp [word, sumNat]

theorem word_status (a b j k : Nat) : word [(a, j), (b, k)] = BitVec.ofNat 64 (a * 2 ^ j + 2 ^ k * b) := by
  simp [word, sumNat, Nat.mul_comm]

theorem portRead_port {s : State} {o : Nat} {p : CwPort} (hp : s.port p.num = some p) (ho : o = 0x8000 + 16 * p.num)
    (hn : p.num < 36) : s.portRead o = (BitVec.ofNat 64 (flag p.enable * 2 ^ 0 + flag p.fence * 2 ^ 1), s) := by
  have num : (o - 0x8000) / 16 = p.num := by omega
  have even : (o / 8 % 2 == 1) = false := by rw [beq_eq_false_iff_ne]; omega
  have inside : 0x8000 ≤ o ∧ o < 0x8240 := by omega
  clear ho
  unfold State.portRead
  repeat rw [if_neg (by (try simp only [beq_iff_eq]); omega)]
  rw [if_pos inside, num, hp, even]
  exact congrArg (·, s) (word_two ..)

theorem portRead_of_unlisted (s : State) {o : Nat} (h : unlisted o) : s.portRead o = (0, s) := by
  unfold unlisted at h
  unfold State.portRead
  repeat rw [if_neg (by (try simp only [beq_iff_eq]); omega)]

/-- A register far down the list is read past those that stand before it. -/
theorem portRead_of_blockReads {s : State} {o : Nat} {x : Word} (h : blockReads s o x) : s.portRead o = (x, s) := by
  unfold blockReads at h
  simp only [flag_mul] at h
  obtain ⟨ho, -, -, rfl⟩ | ⟨ho, rfl⟩ | ⟨ho, rfl⟩ | ⟨ho, rfl⟩ | ⟨ho, rfl⟩ | ⟨ho, rfl, -⟩ | ⟨ho, rfl⟩ | ⟨ho, rfl⟩ |
    ⟨p, hp, ho, hn, rfl⟩ | ⟨ho, rfl⟩ | ⟨ho, -, -, -, rfl⟩ | ⟨ho, -, -, -, rfl⟩ | ⟨hu, -, rfl⟩ := h
  case inr.inr.inr.inr.inr.inr.inr.inr.inl => exact portRead_port hp ho hn
  case inr.inr.inr.inr.inr.inr.inr.inr.inr.inr.inr.inr => exact portRead_of_unlisted s hu
  all_goals
    unfold State.portRead
    repeat rw [if_neg (by (try simp only [beq_iff_eq]); omega)]
    rw [if_pos (by simp only [beq_iff_eq, ho])]
  · exact congrArg (·, s) (word_four ..)
  · exact congrArg (·, s) (word_flagged ..)
  · exact congrArg (·, s) (word_status ..)
  · exact congrArg (·, s) (word_three ..)
  · exact congrArg (·, s) (word_three ..)

/-- A write of the staged region table, past the ports that stand before it (R226). -/
theorem portWrite_stage (s : State) (lvl : HostLevel) {o : Nat} (x : Word) (low : 0x11000 ≤ o) (high : o < 0x11400)
    {e : RgnEntry} (he : s.rgn.stage[(o - 0x11000) / 16]? = some e) : s.portWrite lvl o x =
      { s with rgn := { s.rgn with
        stage := s.rgn.stage.set ((o - 0x11000) / 16) (rgnPut e (o / 8 % 2 == 1) x) } } := by
  unfold State.portWrite
  repeat rw [if_neg (by (try simp only [beq_iff_eq]); omega)]
  rw [if_pos ⟨low, high⟩, setNth, he]

/-- A read-only register, or an offset that is not listed. -/
def readOnly (o : Nat) : Prop :=
  o = 0x4010 ∨ o = 0x20008 ∨ o = 0x20010 ∨ o = 0x20018 ∨ (0x12000 ≤ o ∧ o < 0x12400) ∨
    (0x8000 ≤ o ∧ o < 0x8240 ∧ o % 16 = 8) ∨ unlisted o

theorem portWrite_readOnly (s : State) (lvl : HostLevel) {o : Nat} (x : Word) (h8 : o % 8 = 0) (h : readOnly o) :
    s.portWrite lvl o x = s := by
  unfold readOnly unlisted at h
  unfold State.portWrite
  by_cases port : 0x8000 ≤ o ∧ o < 0x8240
  · repeat rw [if_neg (by (try simp only [beq_iff_eq]); omega)]
    rw [if_pos port, if_neg (by simp only [beq_iff_eq]; omega)]
  · rw [if_neg port]
    repeat rw [if_neg (by (try simp only [beq_iff_eq]); omega)]

theorem rgnPut_eq (e : RgnEntry) {o : Nat} (h8 : o % 8 = 0) (x : Word) : rgnPut e (o / 8 % 2 == 1) x =
    if o % 16 = 0 then { e with base := x }
    else { e with size := x.setWidth 32, pcOff := x.extractLsb' 32 16, mode := x.extractLsb' 48 8,
                  stack := x.extractLsb' 56 8 } := by
  by_cases h : o % 16 = 0
  · have : (o / 8 % 2 == 1) = false := by rw [beq_eq_false_iff_ne]; omega
    simp [rgnPut, this, h]
  · have : (o / 8 % 2 == 1) = true := by rw [beq_iff_eq]; omega
    simp [rgnPut, this, h, field, -BitVec.extractLsb'_toNat]

theorem reaches_low {lvl : HostLevel} {o : Nat} {write : Bool} (h : reaches lvl o write) (low : o < 0x10000) :
    lvl ≠ .u := by
  unfold reaches at h
  obtain ⟨-, h⟩ | ⟨h, -⟩ | ⟨h, -⟩ := h
  · exact h
  · omega
  · omega

theorem reaches_mid {lvl : HostLevel} {write : Bool} (h : reaches lvl 0x10000 write) : lvl = .m := by
  simpa [reaches] using h

/-- The registers that take a field of their own. -/
theorem portWrite_fields (s : State) (lvl : HostLevel) (x : Word) :
    s.portWrite lvl 0x08 x = { s with cp := { s.cp with overrun := s.cp.overrun && !x.getLsbD 1 } } ∧
    s.portWrite lvl 0x18 x = { s with cp := { s.cp with drain := max 1000 (min 1000000 (x.toNat % 2 ^ 32)) } } ∧
    s.portWrite lvl 0x20 x = { s with cp := { s.cp with tlbiVa := BitVec.ofNat 64 (x.toNat % 2 ^ 57) } } ∧
    s.portWrite lvl 0x30 x = { s with cp := { s.cp with tlbiOverrun := s.cp.tlbiOverrun && !x.getLsbD 17 } } ∧
    s.portWrite lvl 0x4000 x = { s with dbg := { s.dbg with sel := BitVec.ofNat 64 (x.toNat % 2 ^ 17) } } ∧
    s.portWrite lvl 0x4018 x = { s with dbg := { s.dbg with data := x } } ∧
    s.portWrite lvl 0x20000 x =
      { s with pwr := { s.pwr with limit := max 600 (min 1800 (x.toNat % 4096)) } } := by
  refine ⟨?_, ?_, ?_, ?_, ?_, ?_, ?_⟩
  · cases h : x.getLsbD 1 <;> simp [State.portWrite, h, -BitVec.getLsbD_eq_getElem]
  · simp [State.portWrite, field_eq_mod]
  · simp [State.portWrite, field_eq_mod]
  · cases h : x.getLsbD 17 <;> simp [State.portWrite, h, -BitVec.getLsbD_eq_getElem]
  · simp [State.portWrite, field_eq_mod]
  · simp [State.portWrite]
  · simp [State.portWrite, State.setLimit, field_eq_mod]


theorem portWrite_command (s : State) (lvl : HostLevel) (x : Word) :
    ∀ op ∈ [(1, Instr.create), (2, .enable), (3, .quiesce), (4, .resume), (5, .destroy)], x.toNat % 16 = op.1 →
      exec (op.2 lvl x) s = .next (s.portWrite lvl 0 x) := by
  intro op hop hx
  have ran : s.portWrite lvl 0 x = s.cpctl lvl x op.1 := by
    rw [← (field_eq_mod x 4).trans hx]
    rfl
  rw [ran]
  simp only [List.mem_cons, List.not_mem_nil, or_false] at hop
  obtain rfl | rfl | rfl | rfl | rfl := hop <;> rfl

theorem portWrite_commit (s : State) (lvl : HostLevel) (x : Word) :
    s.portWrite lvl 0x10000 x = if x.getLsbD 1 then s.rgnCommit else s := by
  simp [State.portWrite, -BitVec.getLsbD_eq_getElem]

theorem portWrite_queues (s : State) {lvl : HostLevel} (hl : lvl ≠ .u) (x : Word) :
    ∀ e ∈ [(0x10, Instr.doorbell lvl x), (0x8400, .cwringWrite lvl x)], exec e.2 s = .next (s.portWrite lvl e.1 x) := by
  have port (t : State) : s.hostPort lvl t = t := if_neg (by simpa using hl)
  have bell : exec (.doorbell lvl x) s = .next (s.hostPort lvl (s.doorbell x)) := rfl
  have ring : exec (.cwringWrite lvl x) s = .next (s.hostPort lvl (s.cwringSet x)) := rfl
  intro e he
  simp only [List.mem_cons, List.not_mem_nil, or_false] at he
  obtain rfl | rfl := he
  · simp [bell, port, State.portWrite]
  · simp [ring, port, State.portWrite]

/-- A write of the control block is refused, or is that of its port (R402). -/
theorem registerWrite_block (lvl : HostLevel) (o : Nat) (x : Word) (s : State) (ho : o < 2 ^ 55) :
    let put (t : State) : Prop :=
      exec (.registerWrite lvl (BitVec.ofNat 64 (0x0080000000000000 + o)) x) s = .next { t with reply := .none }
    ((o % 8 ≠ 0 ∨ ¬reaches lvl o true) →
      exec (.registerWrite lvl (BitVec.ofNat 64 (0x0080000000000000 + o)) x) s = .next { s with reply := .fault }) ∧
    (o % 8 = 0 → reaches lvl o true → put (s.portWrite lvl o x)) := by
  have addr : (BitVec.ofNat 64 (0x0080000000000000 + o)).toNat = harbourBase + o := by
    rw [BitVec.toNat_ofNat, Nat.mod_eq_of_lt (by omega)]
    rfl
  have aligned : (harbourBase + o) % 8 = o % 8 := by
    unfold harbourBase
    omega
  have ran : exec (.registerWrite lvl (BitVec.ofNat 64 (0x0080000000000000 + o)) x) s =
      .next (s.blockStore lvl (harbourBase + o) x) := by
    rw [← addr]
    rfl
  intro put
  refine ⟨fun h => ?_, fun h8 hr => ?_⟩
  · rw [ran, blockStore_fault]
    rw [Nat.add_sub_cancel_left, aligned]
    tauto
  · simp only [put]
    rw [ran, blockStore_write (Nat.le_add_right ..) (aligned.trans h8) (by rwa [Nat.add_sub_cancel_left]),
      Nat.add_sub_cancel_left]

/-- The clause of `HostAccesses` on writes of the control block: a lemma of each port, joined to the command. -/
theorem registerWrite_acts (lvl : HostLevel) (o : Nat) (x : Word) (s : State) (ho : o < 2 ^ 55) :
    let put (t : State) : Prop :=
      exec (.registerWrite lvl (BitVec.ofNat 64 (0x0080000000000000 + o)) x) s = .next { t with reply := .none }
    ((o % 8 ≠ 0 ∨ ¬reaches lvl o true) →
      exec (.registerWrite lvl (BitVec.ofNat 64 (0x0080000000000000 + o)) x) s = .next { s with reply := .fault }) ∧
    (o % 8 = 0 → reaches lvl o true →
      (o = 0x08 → put { s with cp := { s.cp with overrun := s.cp.overrun && !x.getLsbD 1 } }) ∧
      (o = 0x18 → put { s with cp := { s.cp with drain := max 1000 (min 1000000 (x.toNat % 2 ^ 32)) } }) ∧
      (o = 0x20 → put { s with cp := { s.cp with tlbiVa := BitVec.ofNat 64 (x.toNat % 2 ^ 57) } }) ∧
      (o = 0x30 → put { s with cp := { s.cp with tlbiOverrun := s.cp.tlbiOverrun && !x.getLsbD 17 } }) ∧
      (o = 0x4000 → put { s with dbg := { s.dbg with sel := BitVec.ofNat 64 (x.toNat % 2 ^ 17) } }) ∧
      (o = 0x4018 → put { s with dbg := { s.dbg with data := x } }) ∧
      (0x11000 ≤ o → o < 0x11400 → ∀ e, s.rgn.stage[(o - 0x11000) / 16]? = some e →
        put { s with rgn := { s.rgn with
          stage := s.rgn.stage.set ((o - 0x11000) / 16) (if o % 16 = 0 then { e with base := x }
           else { e with size := x.setWidth 32, pcOff := x.extractLsb' 32 16, mode := x.extractLsb' 48 8,
                         stack := x.extractLsb' 56 8 }) } }) ∧
      (o = 0x20000 → put { s with pwr := { s.pwr with limit := max 600 (min 1800 (x.toNat % 4096)) } }) ∧
      (∀ e ∈ [(0x10, Instr.doorbell lvl x), (0x8400, .cwringWrite lvl x)], o = e.1 →
        ∃ t, exec e.2 s = .next t ∧ put t) ∧
      (o = 0x10000 → (x.getLsbD 1 = true → ∃ t, exec (.regionCommit lvl) s = .next t ∧ put t) ∧
        (x.getLsbD 1 = false → put s)) ∧
      (∀ op ∈ [(1, Instr.create), (2, .enable), (3, .quiesce), (4, .resume), (5, .destroy)], o = 0 → x.toNat % 16 = op.1 →
        ∃ t, exec (op.2 lvl x) s = .next t ∧ put t) ∧
      ((o = 0x4010 ∨ o = 0x20008 ∨ o = 0x20010 ∨ o = 0x20018 ∨ (0x12000 ≤ o ∧ o < 0x12400) ∨
          (0x8000 ≤ o ∧ o < 0x8240 ∧ o % 16 = 8) ∨ unlisted o) → put s)) := by
  obtain ⟨refused, written⟩ := registerWrite_block lvl o x s ho
  intro put
  refine ⟨refused, fun h8 hr => ?_⟩
  have key {t : State} (e : s.portWrite lvl o x = t) : put t := e ▸ written h8 hr
  obtain ⟨f08, f18, f20, f30, f4000, f4018, f20000⟩ := portWrite_fields s lvl x
  refine ⟨?_, ?_, ?_, ?_, ?_, ?_, fun low high e he => ?_, ?_, fun e he at_ => ?_, fun at_ => ?_,
    fun op hop at_ hx => ?_, fun h => key (portWrite_readOnly s lvl x h8 h)⟩
  · exact fun at_ => key (at_ ▸ f08)
  · exact fun at_ => key (at_ ▸ f18)
  · exact fun at_ => key (at_ ▸ f20)
  · exact fun at_ => key (at_ ▸ f30)
  · exact fun at_ => key (at_ ▸ f4000)
  · exact fun at_ => key (at_ ▸ f4018)
  · exact key (by rw [portWrite_stage s lvl x low high he, rgnPut_eq e h8])
  · exact fun at_ => key (at_ ▸ f20000)
  · have low : o < 0x10000 := by
      simp only [List.mem_cons, List.not_mem_nil, or_false] at he
      obtain rfl | rfl := he <;> omega
    exact ⟨_, portWrite_queues s (reaches_low hr low) x e he, at_ ▸ key rfl⟩
  · subst at_
    obtain rfl := reaches_mid hr
    have commit := portWrite_commit s .m x
    exact ⟨fun hx => ⟨_, rfl, key (by rw [commit, hx]; rfl)⟩, fun hx => key (by rw [commit, hx]; rfl)⟩
  · exact ⟨_, portWrite_command s lvl x op hop hx, at_ ▸ key rfl⟩

theorem word_record (a b c d i j k : Nat) :
    word [(a, 0), (b, i), (c, j), (d, k)] = BitVec.ofNat 64 (a + 2 ^ i * b + 2 ^ j * c + 2 ^ k * d) := by
  simp [word, sumNat, Nat.mul_comm]

/-- The first word of a record that a read of ERRLOG_POP gives (R405). -/
theorem errorRecord_word_zero (r : ErrorRecord) :
    r.word 0 = BitVec.ofNat 64 (r.kind + 2 ^ 8 * r.unit + 2 ^ 16 * r.die + 2 ^ 32 * r.asid) := by
  rw [ErrorRecord.word, word_record]

theorem portRead_pop (s : State) : s.portRead 0x20018 = s.popLog := by
  simp [State.portRead]

theorem exec_errlogPop (s : State) (lvl : HostLevel) (h : lvl ≠ .u) :
    exec (.errlogPop lvl) s = .next { s.popLog.2 with reply := .value s.popLog.1 } := by
  have reached : reaches lvl (harbourBase + 0x20018 - harbourBase) false := by
    rw [Nat.add_sub_cancel_left]
    cases lvl <;> simp [reaches] at h ⊢
  have ran : exec (.errlogPop lvl) s = .next (s.blockLoad lvl (harbourBase + 0x20018)) := rfl
  rw [ran, blockLoad_read (Nat.le_add_right ..) (by decide) reached, Nat.add_sub_cancel_left, portRead_pop]

/-- The clause of `HostAccesses` on ERRLOG_POP. -/
theorem errlogPop_acts (s : State) : exec (.errlogPop .u) s = .next { s with reply := .fault } ∧ ∀ lvl, lvl ≠ .u →
    (s.errlog.recs = [] → exec (.errlogPop lvl) s = .next { s with reply := .value 0 }) ∧
    ∀ r rest, s.errlog.recs = r :: rest →
      let part : Word := match s.errlog.reads with
        | 0 => BitVec.ofNat 64 (r.kind + 2 ^ 8 * r.unit + 2 ^ 16 * r.die + 2 ^ 32 * r.asid)
        | 1 => r.addr
        | 2 => r.crew.setWidth 64
        | _ => r.tick
      r.kind < 256 → r.unit < 256 → r.die < 256 → r.asid < 65536 → exec (.errlogPop lvl) s = .next { s with
        reply := .value part,
        errlog := if s.errlog.reads < 3 then { s.errlog with reads := s.errlog.reads + 1 }
          else { s.errlog with recs := rest, head := (s.errlog.head + 1) % 4096, reads := 0 } } := by
  refine ⟨?_, fun lvl hl => ⟨fun none => ?_, fun r rest some => ?_⟩⟩
  · have ran : exec (.errlogPop .u) s = .next (s.blockLoad .u (harbourBase + 0x20018)) := rfl
    rw [ran, blockLoad_fault]
    rintro ⟨-, -, may⟩
    rw [Nat.add_sub_cancel_left] at may
    simp [reaches] at may
  · rw [exec_errlogPop s lvl hl]
    simp [State.popLog, none]
  · intro part _ _ _ _
    have word : r.word s.errlog.reads = part := by
      simp only [part]
      split
      next first => rw [first, errorRecord_word_zero]
      next second => rw [second, ErrorRecord.word]
      next third => rw [third, ErrorRecord.word]
      next first second third => exact ErrorRecord.word.eq_4 r _ first second third
    rw [exec_errlogPop s lvl hl, ← word]
    simp only [State.popLog, some]
    split <;> rfl

/-- The clause of `HostAccesses` on PWRCTL. -/
theorem pwrctlWrite_acts (value : Word) (s : State) :
    (∀ lvl, lvl ≠ .m → exec (.pwrctlWrite (.host lvl) value) s = .next { s with reply := .fault }) ∧
    ∀ src ∈ [PwrSource.host .m, .port], exec (.pwrctlWrite src value) s =
      .next { s with pwr := { s.pwr with limit := max 600 (min 1800 (value.toNat % 4096)) }, reply := .none } := by
  have ran (lvl : HostLevel) : exec (.pwrctlWrite (.host lvl) value) s =
    .next (s.blockStore lvl (harbourBase + 0x20000) value) := rfl
  refine ⟨fun lvl hl => ?_, fun src hsrc => ?_⟩
  · rw [ran, blockStore_fault]
    rintro ⟨-, -, may⟩
    rw [Nat.add_sub_cancel_left] at may
    exact hl (by simpa [reaches] using may)
  · simp only [List.mem_cons, List.not_mem_nil, or_false] at hsrc
    obtain rfl | rfl := hsrc
    · rw [ran, blockStore_write (Nat.le_add_right ..) (by decide) (by simp [reaches]), Nat.add_sub_cancel_left]
      obtain ⟨-, -, -, -, -, -, limit⟩ := portWrite_fields s .m value
      rw [limit]
    · have port : exec (.pwrctlWrite .port value) s = .next { s.setLimit value with reply := .none } := rfl
      rw [port]
      simp [State.setLimit, field_eq_mod]

end Sys2Proof.Machine
end

section
/-! What an access of package memory by a host core does (R401). -/

namespace Sys2Proof.Machine

open Sys2Proof
open Sys2Proof.Safety

/-! ### The values of host cores -/

theorem leNat_lt : ∀ bs : List Byte, leNat bs < 2 ^ (8 * bs.length)
  | [] => by simp [leNat]
  | b :: rest => by
    have := leNat_lt rest
    have := b.isLt
    rw [leNat, List.length_cons, Nat.mul_add, Nat.pow_add]
    omega

theorem hostExtend_signed {n x : Nat} (hn : 0 < n) (h8 : n ≤ 8) (hx : x < 2 ^ (8 * n)) :
    hostExtend true n x = (BitVec.ofNat (8 * n) x).signExtend 64 := by
  have wide : 2 ^ (8 * n) ≤ 2 ^ 64 := Nat.pow_le_pow_right (by decide) (by omega)
  have msb : (BitVec.ofNat (8 * n) x).msb = x.testBit (8 * n - 1) := by
    rw [BitVec.msb_eq_getLsbD_last, BitVec.getLsbD_ofNat]
    simp [show 0 < 8 * n by omega]
  refine BitVec.eq_of_toNat_eq ?_
  rw [BitVec.toNat_signExtend, msb, BitVec.toNat_setWidth, BitVec.toNat_ofNat, Nat.mod_eq_of_lt hx,
    Nat.mod_eq_of_lt (hx.trans_le wide)]
  unfold hostExtend
  cases top : x.testBit (8 * n - 1) with
  | false =>
    simp only [Bool.and_false, Bool.false_eq_true, if_false, BitVec.toNat_ofNat, Nat.add_zero]
    exact Nat.mod_eq_of_lt (hx.trans_le wide)
  | true =>
    simp only [Bool.and_self, if_true, BitVec.toNat_ofNat]
    rw [Nat.mod_eq_of_lt (by omega)]
    omega

theorem hostApply_eq (op : HostAmo) {n y : Nat} (hn : n = 4 ∨ n = 8) (hy : y < 2 ^ (8 * n)) (x : Word) :
    HostAmo.apply op n (BitVec.ofNat 64 y) x = amoResult op n ((BitVec.ofNat (8 * n) y).signExtend 64) x := by
  have wide : 2 ^ (8 * n) ≤ 2 ^ 64 := Nat.pow_le_pow_right (by decide) (by omega)
  have old : hostExtend true n ((BitVec.ofNat 64 y).toNat % 2 ^ (8 * n)) = (BitVec.ofNat (8 * n) y).signExtend 64 := by
    rw [BitVec.toNat_ofNat, Nat.mod_eq_of_lt (hy.trans_le wide), Nat.mod_eq_of_lt hy,
      hostExtend_signed (by omega) (by omega) hy]
  have data : hostExtend true n (x.toNat % 2 ^ (8 * n)) =
      if n = 4 then (x.setWidth 32).signExtend 64 else x := by
    rw [hostExtend_signed (by omega) (by omega) (Nat.mod_lt _ (Nat.two_pow_pos _))]
    obtain rfl | rfl := hn
    · rw [if_pos rfl]
      congr 1
      exact BitVec.eq_of_toNat_eq (by simp)
    · rw [if_neg (by decide)]
      rw [show 8 * 8 = 64 from rfl, BitVec.signExtend_eq, Nat.mod_eq_of_lt x.isLt, BitVec.ofNat_toNat,
        BitVec.setWidth_eq]
  unfold HostAmo.apply amoResult
  rw [old, data]
  cases op <;> simp only [BitVec.slt, BitVec.ult, decide_eq_true_eq]

/-! ### What a host core takes and stores -/

theorem setNth_const {α : Type} (l : List α) (i : Nat) (v : α) : setNth l i (fun _ => v) = l.set i v := by
  unfold setNth
  split
  next => rfl
  next h => exact (List.set_eq_of_length_le (List.getElem?_eq_none_iff.mp h)).symm

theorem hostReturn_eq (s : State) (a : HostAcc) (v : Word) : s.hostReturn a.core a.reg v = hostTook s a v := by
  simp only [State.hostReturn, State.updHost, hostTook, setNth_const, beq_iff_eq]

theorem leBytes_length : ∀ n x : Nat, (leBytes n x).length = n
  | 0, _ => rfl
  | n + 1, x => congrArg (· + 1) (leBytes_length n (x / 256))

/-- The reservations that a store breaks, and nothing else but its bytes. -/
theorem homed_breakHosts {s t : State} (h : t = homed s t) (core pa n : Nat) :
    ({ t.breakHosts core pa n with reply := .none } : State) =
      { homed s ({ t.breakHosts core pa n with reply := .none } : State) with
        hosts := (t.breakHosts core pa n).hosts, reply := .none } := by
  rw [h]
  rfl

theorem hosts_breakHosts (s : State) (core pa n : Nat) : (s.breakHosts core pa n).hosts = s.hosts.map (fun h =>
    if h.num ≠ core ∧ ∃ d, h.reserved = some d ∧ pa < 8 * d + 8 ∧ 8 * d < pa + n then { h with reserved := none }
    else h) := by
  refine List.map_congr_left fun h _ => if_congr ?_ rfl rfl
  simp only [Bool.and_eq_true, bne_iff_ne, Option.any_eq_true, decide_eq_true_eq]

theorem hostPut_stored (s : State) (a : HostAcc) (x : Word) :
    hostPut s { (s.writeHomeBytes a.addr.toNat (leBytes a.size x.toNat)).breakHosts a.core a.addr.toNat a.size with
      reply := .none } a x := by
  have len := leBytes_length a.size x.toNat
  have homed := writeHome_homed s (cellsFrom a.addr.toNat (leBytes a.size x.toNat))
  have hosts : (s.writeHomeBytes a.addr.toNat (leBytes a.size x.toNat)).hosts = s.hosts := by
    rw [State.writeHomeBytes, homed]
    rfl
  refine ⟨homed_breakHosts homed .., (hosts_breakHosts ..).trans (by rw [hosts]), fun reached => ?_, fun b hb => ?_⟩
  · have read := homeBytes_writeHomeBytes (bs := leBytes a.size x.toNat) (len.symm ▸ reached)
    rw [len] at read
    exact read
  · exact homeByte_writeHomeBytes_outside s _ (len.symm ▸ hb)

/-! ### Accesses of package memory -/

/-- A sector of the access that is poisoned or fails its check. -/
def badData (v : State) (pa n : Nat) : Prop :=
  ∃ i < n, v.homePoison ((pa + i) / 32 * 32) = true ∨ v.checkFails ((pa + i) / 32 * 32) = true

theorem badSector_eq_none (v : State) {pa n : Nat} (hn : 0 < n) :
    v.badSector true pa n = none ↔ ¬badData v pa n := by
  have touched (sec : Nat) : sec ∈ sectors pa n ↔ ∃ i < n, (pa + i) / 32 * 32 = sec := by
    simp only [sectors, List.mem_map, List.mem_range]
    constructor
    · rintro ⟨j, hj, rfl⟩
      exact ⟨(pa / 32 + j) * 32 - pa, by omega, by omega⟩
    · rintro ⟨i, hi, rfl⟩
      exact ⟨(pa + i) / 32 - pa / 32, by omega, by omega⟩
  simp only [State.badSector, findBy_eq_none, touched, badData, Bool.true_and, Bool.or_eq_false_iff, not_exists, not_and,
    not_or, Bool.not_eq_true, forall_exists_index, and_imp, forall_apply_eq_imp_iff₂]

theorem hostLoad_faults {s : State} {pa n : Nat} (hn : 0 < n) (there : s.hostCovers pa n = true)
    (bad : badData (s.settleLines pa n) pa n) : ∃ t, s.hostLoad pa n = (none, t) ∧ t.reply = .fault ∧
      t = { s.settleLines pa n with errlog := t.errlog, reply := t.reply } := by
  unfold State.hostLoad
  rw [if_pos there]
  cases found : (s.settleLines pa n).badSector true pa n with
  | none => exact absurd bad ((badSector_eq_none _ hn).mp found)
  | some sec =>
    simp only [found]
    refine ⟨_, rfl, rfl, ?_⟩
    simp only [State.logSector, State.logError]
    split <;> rfl

theorem hostLoad_reads {s : State} {pa n : Nat} (hn : 0 < n) (there : s.hostCovers pa n = true)
    (good : ¬badData (s.settleLines pa n) pa n) :
    s.hostLoad pa n = (some (leNat ((s.settleLines pa n).homeBytes pa n)), s.settleLines pa n) := by
  unfold State.hostLoad
  rw [if_pos there]
  simp only [(badSector_eq_none _ hn).mpr good]
  rfl

theorem hostStore_stores {s : State} (a : HostAcc) (x : Word) (there : s.hostCovers a.addr.toNat a.size = true) :
    hostPut (s.settleLines a.addr.toNat a.size) (s.hostStore a.core a.addr.toNat a.size x) a x ∧
      (s.hostStore a.core a.addr.toNat a.size x).reply = .none := by
  unfold State.hostStore
  rw [if_pos there]
  exact ⟨hostPut_stored .., rfl⟩

theorem hostCovers_iff (s : State) (pa n : Nat) : s.hostCovers pa n = true ↔ ∀ i < n, s.covered (pa + i) = true := by
  simp [State.hostCovers]

theorem hostCovers_gaveUp {s t : State} (h : gaveUp s t) (pa n : Nat) : t.hostCovers pa n = s.hostCovers pa n := by
  obtain ⟨ht, -⟩ := h
  rw [ht]
  rfl

/-- The state in which a host core makes an access: it runs, at the level named. -/
def accessing (a : HostAcc) (s : State) : State :=
  { s with hosts := updBy (fun (h : HostCore) => h.num == a.core) (fun h =>
      { h with running := true, level := a.lvl }) s.hosts }

theorem exec_hostAccess (a : HostAcc) (s : State) : exec (.hostAccess a) s = .next
    (if decide (16 ≤ a.core) || !(a.size == 1 || a.size == 2 || a.size == 4 || a.size == 8) then
      { accessing a s with reply := .fault }
    else if a.addr.toNat < 2 ^ 52 then (accessing a s).hostMemory a else (accessing a s).hostBlock a) :=
  rfl

theorem homeBytes_lt (v : State) (pa n : Nat) : leNat (v.homeBytes pa n) < 2 ^ (8 * n) := by
  have := leNat_lt (v.homeBytes pa n)
  rwa [show (v.homeBytes pa n).length = n by simp [State.homeBytes]] at this

/-! ### The operations of a host core -/

section
variable {s : State} {a : HostAcc}

theorem hostMemory_unaligned (hl : ∀ sg, a.op ≠ .load sg) (hs : ∀ x, a.op ≠ .store x)
    (h : ¬((a.size = 4 ∨ a.size = 8) ∧ a.addr.toNat % a.size = 0)) : s.hostMemory a = { s with reply := .fault } := by
  have part : ((a.size == 4 || a.size == 8) && a.addr.toNat % a.size == 0) = false := by
    rw [← Bool.not_eq_true]
    simpa only [Bool.and_eq_true, Bool.or_eq_true, beq_iff_eq] using h
  unfold State.hostMemory
  cases op : a.op with
  | load sg => exact absurd op (hl sg)
  | store x => exact absurd op (hs x)
  | amo _ _ => simp [part]
  | reserve => simp [part]
  | conditional x => simp [part]

theorem hostMemory_uncovered (h : s.hostCovers a.addr.toNat a.size = false) :
    s.hostMemory a = { s with reply := .fault } := by
  unfold State.hostMemory
  cases a.op <;> simp [State.hostLoad, State.hostStore, h]

/-- The value an access reads, extended with its sign. -/
def signedValue (v : State) (a : HostAcc) : Word :=
  (BitVec.ofNat (8 * a.size) (leNat (v.homeBytes a.addr.toNat a.size))).signExtend 64

/-- An aligned access of 4 or 8 bytes. -/
def aligned (a : HostAcc) : Prop := (a.size = 4 ∨ a.size = 8) ∧ a.addr.toNat % a.size = 0

theorem aligned_iff : ((a.size == 4 || a.size == 8) && a.addr.toNat % a.size == 0) = true ↔ aligned a := by
  simp only [Bool.and_eq_true, Bool.or_eq_true, beq_iff_eq, aligned]

theorem hostExtend_value (v : State) (pos : 0 < a.size) (small : a.size ≤ 8) (sg : Bool) :
    hostExtend sg a.size (leNat (v.homeBytes a.addr.toNat a.size)) =
      if sg then signedValue v a else BitVec.ofNat 64 (leNat (v.homeBytes a.addr.toNat a.size)) := by
  cases sg with
  | false => simp only [hostExtend, Bool.false_and, Bool.false_eq_true, if_false]
  | true => exact hostExtend_signed pos small (homeBytes_lt ..)

/-- Where its load faults, a load, an atomic or a load-reserve ends there. -/
theorem hostMemory_of_fault {t : State} (load : s.hostLoad a.addr.toNat a.size = (none, t))
    (hs : ∀ x, a.op ≠ .store x) (hc : ∀ x, a.op ≠ .conditional x) (hw : (∃ sg, a.op = .load sg) ∨ aligned a) :
    s.hostMemory a = t := by
  unfold State.hostMemory
  cases op : a.op with
  | load sg => simp only [load]
  | store x => exact absurd op (hs x)
  | conditional x => exact absurd op (hc x)
  | amo _ _ | reserve =>
    have whole := aligned_iff.mpr (hw.resolve_left (by simp [op]))
    simp only [whole, load, Bool.not_true, Bool.false_eq_true, if_false]

theorem hostMemory_bad (there : s.hostCovers a.addr.toNat a.size = true) (pos : 0 < a.size)
    (hs : ∀ x, a.op ≠ .store x) (hc : ∀ x, a.op ≠ .conditional x) (hw : (∃ sg, a.op = .load sg) ∨ aligned a)
    (bad : badData (s.settleLines a.addr.toNat a.size) a.addr.toNat a.size) :
    ∃ t, s.hostMemory a = t ∧ t.reply = .fault ∧
      t = { s.settleLines a.addr.toNat a.size with errlog := t.errlog, reply := t.reply } := by
  obtain ⟨t, load, fault, same⟩ := hostLoad_faults pos there bad
  exact ⟨t, hostMemory_of_fault load hs hc hw, fault, same⟩

theorem hostMemory_load {sg : Bool} (op : a.op = .load sg) (there : s.hostCovers a.addr.toNat a.size = true)
    (pos : 0 < a.size) (small : a.size ≤ 8)
    (good : ¬badData (s.settleLines a.addr.toNat a.size) a.addr.toNat a.size) :
    s.hostMemory a = hostTook (s.settleLines a.addr.toNat a.size) a
      (if sg then signedValue (s.settleLines a.addr.toNat a.size) a
       else BitVec.ofNat 64 (leNat ((s.settleLines a.addr.toNat a.size).homeBytes a.addr.toNat a.size))) := by
  rw [← hostExtend_value _ pos small, ← hostReturn_eq]
  simp only [State.hostMemory, op, hostLoad_reads pos there good]

theorem hostMemory_store {x : Word} (op : a.op = .store x) :
    s.hostMemory a = s.hostStore a.core a.addr.toNat a.size x := by
  simp only [State.hostMemory, op]

theorem hostMemory_reserve (op : a.op = .reserve) (there : s.hostCovers a.addr.toNat a.size = true)
    (whole : aligned a) (good : ¬badData (s.settleLines a.addr.toNat a.size) a.addr.toNat a.size) :
    s.hostMemory a = hostTook { s.settleLines a.addr.toNat a.size with
      hosts := updBy (fun (h : HostCore) => h.num == a.core) (fun h => { h with reserved := some (a.addr.toNat / 8) })
        (s.settleLines a.addr.toNat a.size).hosts } a (signedValue (s.settleLines a.addr.toNat a.size) a) := by
  obtain ⟨size, -⟩ := id whole
  have value := hostExtend_value (a := a) (s.settleLines a.addr.toNat a.size) (by omega) (by omega) true
  rw [if_pos rfl] at value
  rw [← value, ← hostReturn_eq]
  simp only [State.hostMemory, op, aligned_iff.mpr whole, hostLoad_reads (by omega) there good]
  rfl

/-- Where settling the lines of the access once settles them, an atomic stores over what it has read. -/
theorem hostMemory_amo {o : HostAmo} {x : Word} (op : a.op = .amo o x)
    (there : s.hostCovers a.addr.toNat a.size = true) (whole : aligned a)
    (once : (s.settleLines a.addr.toNat a.size).settleLines a.addr.toNat a.size = s.settleLines a.addr.toNat a.size)
    (good : ¬badData (s.settleLines a.addr.toNat a.size) a.addr.toNat a.size) :
    ∃ u, hostPut (s.settleLines a.addr.toNat a.size) u a
        (amoResult o a.size (signedValue (s.settleLines a.addr.toNat a.size) a) x) ∧
      s.hostMemory a = hostTook u a (signedValue (s.settleLines a.addr.toNat a.size) a) := by
  obtain ⟨size, -⟩ := id whole
  have value := hostExtend_value (a := a) (s.settleLines a.addr.toNat a.size) (by omega) (by omega) true
  rw [if_pos rfl] at value
  have covered : (s.settleLines a.addr.toNat a.size).hostCovers a.addr.toNat a.size = true := by
    rw [hostCovers_gaveUp (gaveUp_settleLines ..), there]
  obtain ⟨put, -⟩ := hostStore_stores a
    (amoResult o a.size (signedValue (s.settleLines a.addr.toNat a.size) a) x) covered
  rw [once] at put
  refine ⟨_, put, ?_⟩
  rw [signedValue, ← hostApply_eq o size (homeBytes_lt ..), ← signedValue, ← hostReturn_eq, ← value]
  simp only [State.hostMemory, op, aligned_iff.mpr whole, hostLoad_reads (by omega) there good]
  rfl

/-- The hosts once a core has given its reservation up. -/
def released (a : HostAcc) (s : State) : State :=
  { s with hosts := updBy (fun (h : HostCore) => h.num == a.core) (fun h => { h with reserved := none }) s.hosts }

/-- A store-conditional finds its reservation in the hosts it starts from, and clears it. -/
theorem hostMemory_conditional {x : Word} (op : a.op = .conditional x)
    (there : s.hostCovers a.addr.toNat a.size = true) (whole : aligned a) :
    s.hostMemory a = if s.hosts.any (fun h => h.num == a.core && h.reserved == some (a.addr.toNat / 8)) then
        hostTook ((released a s).hostStore a.core a.addr.toNat a.size x) a 0
      else hostTook (released a s) a 1 := by
  simp only [← hostReturn_eq, State.hostMemory, op, aligned_iff.mpr whole, there]
  rfl

theorem settleLines_released (a : HostAcc) (s : State) (pa n : Nat) :
    (released a s).settleLines pa n = released a (s.settleLines pa n) := by
  obtain ⟨same, -⟩ := gaveUp_settleLines s pa n
  have hosts : (s.settleLines pa n).hosts = s.hosts := by rw [same]
  rw [released, settleLines_hosts, released, hosts]

theorem hostMemory_held {x : Word} (op : a.op = .conditional x) (there : s.hostCovers a.addr.toNat a.size = true)
    (whole : aligned a) (held : ∃ h ∈ s.hosts, h.num = a.core ∧ h.reserved = some (a.addr.toNat / 8)) :
    ∃ u, hostPut (released a (s.settleLines a.addr.toNat a.size)) u a x ∧ s.hostMemory a = hostTook u a 0 := by
  have went := hostMemory_conditional op there whole
  rw [if_pos (by simpa using held)] at went
  have covered : (released a s).hostCovers a.addr.toNat a.size = true := there
  obtain ⟨put, -⟩ := hostStore_stores a x covered
  rw [settleLines_released] at put
  exact ⟨_, put, went⟩

theorem hostMemory_lost {x : Word} (op : a.op = .conditional x) (there : s.hostCovers a.addr.toNat a.size = true)
    (whole : aligned a) (lost : ∀ h ∈ s.hosts, h.num = a.core → h.reserved ≠ some (a.addr.toNat / 8)) :
    s.hostMemory a =
      hostTook { released a (s.settleLines a.addr.toNat a.size) with l2 := s.l2 } a 1 := by
  have went := hostMemory_conditional op there whole
  rw [if_neg (by simpa using lost)] at went
  obtain ⟨same, -⟩ := gaveUp_settleLines s a.addr.toNat a.size
  rw [went, same]
  rfl

end

end Sys2Proof.Machine
end

section
/-! What the statement on host accesses says of states whose L2 lists two lines of one number (R231, R401). -/

namespace Sys2Proof.Machine

open Sys2Proof
open Sys2Proof.Safety

/-- A clean line of number 0 that holds one byte throughout. -/
def evenLine (x : Byte) : Line := { num := 0, data := List.replicate 128 x, dirty := false, poison := [], mism := [] }

/-- A region over DRAM of zeros, and the lines that the L2 lists over it; host core 0 runs in machine mode. -/
def underLines (l : List Line) : State :=
  { State.reset with
    rgn := { State.reset.rgn with active := [{ base := 0, size := 2, pcOff := 0, mode := 3, stack := 0 }] }
    hosts := updBy (fun (h : HostCore) => h.num == 0) (fun h => { h with running := true, level := .m }) State.reset.hosts
    l2 := l }

/-- Host core 0 exchanges the doubleword at 0 with 0. -/
def exchange : HostAcc := { core := 0, lvl := .m, addr := 0, size := 8, op := .amo .swap 0, reg := 1 }

/-- Where the device gives up such a line, settling it uncovers what stands behind it. -/
theorem settleLines_underLines (hc : Config.choice (2 ^ 64) = true) {x : Byte} (hx : x ≠ 0) (l : List Line) :
    (underLines (evenLine x :: l)).settleLines 0 8 = underLines l := by
  have data : ((underLines (evenLine x :: l)).dramLine 0).data = List.replicate 128 0 := by
    have empty : ((underLines []).dramLine 0).data = List.replicate 128 0 := by decide +kernel
    exact empty
  have differs : (evenLine x).data ≠ List.replicate 128 0 := by
    simpa [evenLine] using hx
  have chosen : (underLines (evenLine x :: l)).choose 1 (evenLine x).num = true := by
    simpa [State.choose, underLines, evenLine, State.reset] using hc
  have found : (underLines (evenLine x :: l)).l2Line (0 * 128) = some (evenLine x) := rfl
  have one : distinct ((List.range 8).map fun i => (0 + i) / 128) = [0] := by decide
  simp only [State.settleLines, one, List.foldl_cons, List.foldl_nil, State.settleLine, found, chosen]
  rw [show (evenLine x).num = 0 from rfl, data, if_pos (by simpa [evenLine] using differs)]
  rfl

/-- The exchange reads what the first of two lines covers, and then writes over what both cover. -/
theorem exec_exchange (hc : Config.choice (2 ^ 64) = true) :
    ∃ t, exec (.hostAccess exchange) (underLines [evenLine 2, evenLine 1]) = .next t ∧
      t.reply = .value 0x0101010101010101 ∧ t.homeByte 8 = 0 := by
  have load : (underLines [evenLine 2, evenLine 1]).hostLoad 0 8 =
      (some 0x0101010101010101, underLines [evenLine 1]) := by
    have covers : (underLines [evenLine 2, evenLine 1]).hostCovers 0 8 = true := by decide +kernel
    have sound : (underLines [evenLine 1]).badSector true 0 8 = none := by decide +kernel
    have value : (underLines [evenLine 1]).homeVal 0 8 = 0x0101010101010101 := by decide +kernel
    simp only [State.hostLoad, covers, if_pos, settleLines_underLines hc (show (2 : Byte) ≠ 0 by decide), sound, value]
  have store : (underLines [evenLine 1]).hostStore 0 0 8 0 =
      { ((underLines []).writeHomeBytes 0 (leBytes 8 0)).breakHosts 0 0 8 with reply := .none } := by
    have covers : (underLines [evenLine 1]).hostCovers 0 8 = true := by decide +kernel
    simp only [State.hostStore, covers, if_pos, settleLines_underLines hc (show (1 : Byte) ≠ 0 by decide)]
    rfl
  have ran : (underLines [evenLine 2, evenLine 1]).hostMemory exchange =
      ((underLines [evenLine 1]).hostStore 0 0 8 0).hostReturn 0 1 0x0101010101010101 := by
    have whole : ((exchange.size == 4 || exchange.size == 8) && exchange.addr.toNat % exchange.size == 0) = true := by
      decide
    simp only [State.hostMemory]
    rw [whole, show exchange.addr.toNat = 0 from rfl, show exchange.size = 8 from rfl, load]
    rfl
  refine ⟨_, congrArg Host.Outcome.next ran, rfl, ?_⟩
  rw [store]
  decide +kernel

/-- Caches over two such lines: nothing in them is bad, and one byte fills each line. -/
theorem caches_underLines {v : State} (h : onlyCaches (underLines [evenLine 2, evenLine 1]) v) :
    (∀ a, v.homePoison a = false) ∧ (∀ a, v.checkFails a = false) ∧ ∀ a < 128, v.homeByte a = v.homeByte 8 := by
  obtain ⟨hv, -, hsub, -⟩ := h
  have lines : ∀ l ∈ v.l2, ∃ x, l = evenLine x := fun l hl => by
    have := hsub l hl
    simp only [underLines, List.mem_cons, List.not_mem_nil, or_false] at this
    obtain h | h := this
    · exact ⟨2, h⟩
    · exact ⟨1, h⟩
  refine ⟨fun a => ?_, fun a => ?_, fun a ha => ?_⟩
  · unfold State.homePoison
    split
    · rfl
    · split
      next l hl =>
        obtain ⟨x, rfl⟩ := lines l (findBy_mem hl).1
        rfl
      next =>
        rw [hv]
        unfold State.dramPoison
        split <;> rfl
  · have none : v.checks = [] := by rw [hv]; rfl
    unfold State.checkFails
    rw [none]
    split <;> rfl
  · have zeros : ∀ b, v.dramByte b = 0 := fun b => by
      rw [hv]
      unfold State.dramByte
      split <;> rfl
    have below : ∀ b < 128, inWindow b = false := fun b hb => by simp [inWindow]; omega
    have same : v.l2Line a = v.l2Line 8 := by simp [State.l2Line, show a / 128 = 0 by omega]
    unfold State.homeByte
    rw [below a ha, below 8 (by omega), same]
    cases hl : v.l2Line 8 with
    | none => simp [zeros]
    | some l =>
      obtain ⟨x, rfl⟩ := lines l (findBy_mem hl).1
      have fill : ∀ b < 128, (evenLine x).data.getD (b % 128) 0 = x := fun b hb => by
        rw [Nat.mod_eq_of_lt hb]
        exact List.getD_replicate _ hb
      exact (fill a ha).trans (fill 8 (by omega)).symm

/-- `HostAccesses` implies a value of an opaque choice, so no proof of it can be given as it stands. Where the device
gives up clean lines that DRAM differs from (log 6), an atomic settles its line once for its load and once more for its
store; in a state whose L2 lists two lines of one number (no `homesWf` is asked for) the store finds another line. -/
theorem hostAccesses_fixes_choice (H : Obligations.HostAccesses) : Config.choice (2 ^ 64) = false := by
  by_contra hne
  obtain ⟨t, ht, hreply, hbyte⟩ := exec_exchange (by simpa using hne)
  obtain ⟨-, memory, -⟩ := H.1 exchange (underLines [evenLine 2, evenLine 1])
  obtain ⟨-, -, covered⟩ := memory (by decide) (by decide) (by decide)
  have there : ∀ i < 8, (underLines [evenLine 2, evenLine 1]).covered (0 + i) = true := by decide +kernel
  obtain ⟨v, caches, -, -, -, amo, -⟩ := covered there
  obtain ⟨poison, checks, even⟩ := caches_underLines caches
  obtain ⟨t', u, ht', ⟨-, -, -, kept⟩, took⟩ := amo .swap 0 rfl (by decide) (by simp [poison, checks])
  obtain rfl : t = t' := Host.Outcome.next.inj (ht.symm.trans ht')
  have zero : v.homeByte 8 = 0 := by
    rw [← kept 8 (.inr (by decide)), ← hbyte, took]
    rfl
  have bytes : v.homeBytes 0 8 = List.replicate 8 0 := by
    refine List.eq_replicate_iff.mpr ⟨by simp [State.homeBytes], fun b hb => ?_⟩
    obtain ⟨i, hi, rfl⟩ := List.mem_map.mp hb
    have below := List.mem_range.mp hi
    rw [even _ (by omega), zero]
  have read : t.reply = .value ((BitVec.ofNat 64 (leNat (v.homeBytes 0 8))).signExtend 64) := by
    rw [took]
    rfl
  rw [bytes, hreply] at read
  exact absurd (Reply.value.inj read) (by decide)

end Sys2Proof.Machine
end

section
/-! The statement on host accesses, up to the device's choice (R401, R402). -/

namespace Sys2Proof.Machine

open Sys2Proof
open Sys2Proof.Safety

/-! ### The control block by a host core, and the statement -/

theorem hostBlock_refuses {s : State} {a : HostAcc}
    (h : a.size ≠ 8 ∨ ((∀ sg, a.op ≠ .load sg) ∧ ∀ x, a.op ≠ .store x)) : s.hostBlock a = { s with reply := .fault } := by
  unfold State.hostBlock
  split
  next => rfl
  next size =>
    obtain ⟨hl, hs⟩ := h.resolve_left (by simpa using size)
    cases op : a.op with
    | load sg => exact absurd op (hl sg)
    | store x => exact absurd op (hs x)
    | amo _ _ | reserve | conditional _ => rfl

theorem hostBlock_store {s : State} {a : HostAcc} {x : Word} (size : a.size = 8) (op : a.op = .store x) :
    s.hostBlock a = s.blockStore a.lvl a.addr.toNat x := by
  simp [State.hostBlock, size, op]

theorem hostBlock_load {s : State} {a : HostAcc} {sg : Bool} (size : a.size = 8) (op : a.op = .load sg) :
    (¬(harbourBase ≤ a.addr.toNat ∧ a.addr.toNat % 8 = 0 ∧ reaches a.lvl (a.addr.toNat - harbourBase) false) →
      s.hostBlock a = { s with reply := .fault }) ∧
    (harbourBase ≤ a.addr.toNat → a.addr.toNat % 8 = 0 → reaches a.lvl (a.addr.toNat - harbourBase) false →
      ∀ x, blockReads s (a.addr.toNat - harbourBase) x → s.hostBlock a = hostTook s a x) := by
  refine ⟨fun h => ?_, fun above h8 hr x hx => ?_⟩
  · simp [State.hostBlock, size, op, blockLoad_fault h]
  · have read := blockLoad_read (s := s) above h8 hr
    rw [portRead_of_blockReads hx] at read
    rw [← hostReturn_eq]
    simp [State.hostBlock, size, op, read]
    rfl

theorem exec_hostAccess_low {a : HostAcc} {s : State} (core : a.core < 16) (size : a.size ∈ [1, 2, 4, 8])
    (low : a.addr.toNat < 2 ^ 52) : exec (.hostAccess a) s = .next ((accessing a s).hostMemory a) := by
  have sized : (a.size == 1 || a.size == 2 || a.size == 4 || a.size == 8) = true := by simpa [or_assoc] using size
  rw [exec_hostAccess, if_neg (by rw [sized]; simpa using core), if_pos low]

theorem exec_hostAccess_high {a : HostAcc} {s : State} (core : a.core < 16) (size : a.size ∈ [1, 2, 4, 8])
    (high : 2 ^ 52 ≤ a.addr.toNat) : exec (.hostAccess a) s = .next ((accessing a s).hostBlock a) := by
  have sized : (a.size == 1 || a.size == 2 || a.size == 4 || a.size == 8) = true := by simpa [or_assoc] using size
  rw [exec_hostAccess, if_neg (by rw [sized]; simpa using core), if_neg (Nat.not_lt.mpr high)]

theorem exec_hostAccess_refused {a : HostAcc} {s : State} (h : 16 ≤ a.core ∨ a.size ∉ [1, 2, 4, 8]) :
    exec (.hostAccess a) s = .next { accessing a s with reply := .fault } := by
  rw [exec_hostAccess, if_pos]
  simpa [imp_iff_not_or, and_assoc] using h

/-- `HostAccesses` holds wherever settling a line once settles it: the second settling of an atomic, by which
`hostAccesses_fixes_choice` refutes it, is all that stands in its way. -/
theorem hostAccesses_of_settledOnce
    (once : ∀ (s : State) (pa : Nat), (s.settleLine pa).settleLine pa = s.settleLine pa) : Obligations.HostAccesses := by
  refine ⟨fun a s => ⟨exec_hostAccess_refused, fun core size low => ?_, fun core size high => ?_⟩,
    registerWrite_acts, errlogPop_acts, pwrctlWrite_acts⟩
  · have ran := exec_hostAccess_low (s := s) core size low
    have pos : 0 < a.size ∧ a.size ≤ 8 := by
      simp only [List.mem_cons, List.not_mem_nil, or_false] at size
      omega
    obtain ⟨pos, small⟩ := pos
    refine ⟨fun h => ?_, fun hl hs h => ?_, fun there => ?_⟩
    · rw [ran, hostMemory_uncovered (by rw [← Bool.not_eq_true, hostCovers_iff]; exact h)]
      rfl
    · rw [ran, hostMemory_unaligned hl hs h]
      rfl
    · have there := (hostCovers_iff (accessing a s) ..).mpr there
      have left := gaveUp_settleLines (accessing a s) a.addr.toNat a.size
      refine ⟨_, onlyCaches_of_gaveUp left, fun hs hc hw bad => ?_, fun sg op good => ?_, fun x op => ?_,
        fun o x op whole good => ?_, fun op whole good => ?_, fun x op whole => ?_⟩
      · obtain ⟨t, ht, fault, same⟩ := hostMemory_bad there pos hs hc hw bad
        exact ⟨t, ran.trans (congrArg _ ht), fault, same⟩
      · exact ran.trans (congrArg _ (hostMemory_load op there pos small good))
      · obtain ⟨put, none⟩ := hostStore_stores a x there
        exact ⟨_, ran.trans (congrArg _ (hostMemory_store op)), put, none⟩
      · obtain ⟨u, put, took⟩ := hostMemory_amo op there whole
          (by rw [settleLines_whole _ whole.1 whole.2, settleLines_whole _ whole.1 whole.2, once]) good
        exact ⟨_, u, ran, put, took⟩
      · exact ran.trans (congrArg _ (hostMemory_reserve op there whole good))
      · refine ⟨fun held => ?_, fun lost => ⟨_, ran, hostMemory_lost op there whole lost⟩⟩
        obtain ⟨u, put, took⟩ := hostMemory_held op there whole held
        exact ⟨_, u, ran, put, took⟩
  · have ran := exec_hostAccess_high (s := s) core size high
    refine ⟨fun h => ran.trans (congrArg _ (hostBlock_refuses h)), fun size => ⟨fun x op => ?_, fun sg op => ?_⟩⟩
    · exact ran.trans (congrArg _ (hostBlock_store size op))
    · obtain ⟨refused, read⟩ := hostBlock_load (s := accessing a s) size op
      exact ⟨fun h => ran.trans (congrArg _ (refused h)),
        fun above h8 hr x hx => ran.trans (congrArg _ (read above h8 hr x hx))⟩

/-- Where the device never gives up a line that it may keep, nothing is left to settle. -/
theorem settleLine_of_never (never : ∀ n, Config.choice n = false) (s : State) (pa : Nat) : s.settleLine pa = s := by
  have kept (tag x : Nat) : s.choose tag x = false := never _
  unfold State.settleLine
  cases s.l2Line pa with
  | none => rfl
  | some l => simp only [kept, Bool.and_false, Bool.false_eq_true, if_false]

/-- No proof of the negation of `HostAccesses` can be given either: it holds for a device that never gives a line up. -/
theorem hostAccesses_of_never (never : ∀ n, Config.choice n = false) : Obligations.HostAccesses :=
  hostAccesses_of_settledOnce fun s pa => by rw [settleLine_of_never never]

/-- Settling twice is harmless where the L2 lists each line once: with `homesWf` asked of the state, the clause of
`HostAccesses` on atomics holds whatever the device chooses. -/
theorem hostMemory_amo_of_homesWf {s : State} {a : HostAcc} (hs : homesWf s = true) {o : HostAmo} {x : Word}
    (op : a.op = .amo o x) (there : s.hostCovers a.addr.toNat a.size = true) (whole : aligned a)
    (good : ¬badData (s.settleLines a.addr.toNat a.size) a.addr.toNat a.size) :
    ∃ u, hostPut (s.settleLines a.addr.toNat a.size) u a
        (amoResult o a.size (signedValue (s.settleLines a.addr.toNat a.size) a) x) ∧
      s.hostMemory a = hostTook u a (signedValue (s.settleLines a.addr.toNat a.size) a) := by
  obtain ⟨size, line⟩ := id whole
  refine hostMemory_amo op there whole ?_ good
  rw [settleLines_whole _ size line, settleLines_whole _ size line, settleLine_settleLine hs]

end Sys2Proof.Machine
end

section
/-! What an access brings into the caches (R47, R228, R231), and the loads of a segment and of a stream slot (R167,
R175). -/

namespace Sys2Proof.Machine

open Sys2Proof
open Sys2Proof.Safety

/-! ### Cached copies -/

/-- t is s with other cached copies: translations, the L1 and the instruction cache of each core, and L2 lines given
up. -/
def recached (s t : State) : Prop :=
  t = { s with tlb := t.tlb, l2 := t.l2, cores := t.cores } ∧
    (∀ n, t.core n = { s.core n with l1 := (t.core n).l1, code := (t.core n).code }) ∧
    gaveUp s { s with l2 := t.l2 }

theorem recached_refl (s : State) : recached s s := ⟨rfl, fun _ => rfl, gaveUp_refl s⟩

theorem recached_trans {s t u : State} (h : recached s t) (h' : recached t u) : recached s u := by
  obtain ⟨ht, core, left⟩ := h
  obtain ⟨hu, core', left'⟩ := h'
  have after : gaveUp { s with l2 := t.l2 } { s with l2 := u.l2 } := by
    obtain ⟨_, sub, gone⟩ := left'
    have dram (n : Nat) : t.dramLine n = s.dramLine n := by rw [ht]; rfl
    exact ⟨rfl, sub, fun l hl hn => dram l.num ▸ gone l hl hn⟩
  refine ⟨by rw [hu, ht], fun n => ?_, gaveUp_trans left after⟩
  exact (core' n).trans (by rw [core n])

/-- Cached copies that differ are a matter of the caches alone. -/
theorem onlyCaches_of_recached {s t : State} (h : recached s t) : onlyCaches s t := by
  obtain ⟨ht, core, left⟩ := h
  obtain ⟨_, _, sub, homes⟩ := onlyCaches_of_gaveUp left
  have byte (a : Nat) : t.homeByte a = ({ s with l2 := t.l2 } : State).homeByte a := by rw [ht]; rfl
  refine ⟨ht, core, sub, fun hs => ⟨(homes hs).1, fun a => ?_⟩⟩
  rw [byte a]
  exact (homes hs).2 a

theorem recached_gang {s t : State} (h : recached s t) : t.g = s.g := by rw [h.1]

theorem recached_tlb (s : State) (tlb : List TlbEntry) : recached s { s with tlb := tlb } :=
  ⟨rfl, fun _ => rfl, gaveUp_refl s⟩

theorem recached_settleLine (s : State) (pa : Nat) : recached s (s.settleLine pa) := by
  have left := gaveUp_settleLine s pa
  have same := left.1
  exact ⟨by rw [same], fun n => by rw [same]; rfl, same ▸ left⟩

/-- A core of which the L1 alone is changed. -/
theorem recached_updCore_l1 (s : State) (id : Nat) (f : Core → List Line) :
    recached s (s.updCore id fun c => { c with l1 := f c }) := by
  refine ⟨rfl, fun n => ?_, gaveUp_refl s⟩
  unfold State.core State.updCore
  cases there : findBy (fun c : Core => c.id == id) s.cores with
  | some c =>
    simp only [Option.isSome_some, if_true]
    rw [findBy_updBy (key := Core.id) (f := fun c => { c with l1 := f c }) fun _ => rfl]
    split
    next h => subst h; rw [there]; rfl
    next => rfl
  | none =>
    simp only [Option.isSome_none, Bool.false_eq_true, if_false]
    rw [findBy_insertBy (key := Core.id) (x := { Core.fresh id with l1 := f (Core.fresh id) }) n there]
    split
    next h => cases h; rw [show (Core.fresh id).id = id from rfl, there]; rfl
    next => rfl

theorem recached_l1Fill (s : State) (core pa : Nat) : recached s (s.l1Fill core pa) := by
  unfold State.l1Fill
  split
  · split
    · exact recached_updCore_l1 s core _
    · exact recached_refl s
  · exact recached_updCore_l1 s core _

theorem recached_l1Drop (s : State) (core num : Nat) : recached s (s.l1Drop core num) := by
  unfold State.l1Drop
  split
  · exact recached_updCore_l1 s core _
  · exact recached_refl s

/-- What a load brings in or drops is cached copies (R228, R263). -/
theorem recached_touch (s : State) (core : Nat) (l1 : Bool) (ps : List Place) : recached s (s.touch core l1 ps) := by
  unfold State.touch
  refine List.foldlRecOn (motive := fun t => recached s t) _ _ (recached_refl s) fun t h n _ => ?_
  have settled : recached t (if t.l2.isEmpty then t else t.settleLine (n * 128)) := by
    split
    · exact recached_refl t
    · exact recached_settleLine t _
  refine recached_trans h (recached_trans settled ?_)
  cases l1
  · exact recached_l1Drop _ _ _
  · exact recached_l1Fill _ _ _

/-! ### Translations -/

/-- A walk that gives a translation changes the cached translations alone (R47). -/
theorem walkKept_ok {s t : State} {agent asid va : Nat} {e : TlbEntry} (h : s.walkKept agent asid va = (.ok e, t)) :
    t = { s with tlb := t.tlb } := by
  unfold State.walkKept at h
  split at h
  · obtain ⟨-, rfl⟩ := Prod.mk.inj h
    split <;> rfl
  · simp at h

theorem translate_ok {s t : State} {agent asid va : Nat} {e : TlbEntry} (h : s.translate agent asid va = (.ok e, t)) :
    t = { s with tlb := t.tlb } := by
  have cached {c : TlbEntry} (h : (c.answer, s) = (Except.ok e, t)) : t = { s with tlb := t.tlb } := by
    obtain ⟨-, rfl⟩ := Prod.mk.inj h
    rfl
  unfold State.translate at h
  split at h
  · exact walkKept_ok h
  · split at h <;> split at h
    · exact cached h
    · exact walkKept_ok h
    · exact cached h
    · exact walkKept_ok h

theorem resolve_ok {s t : State} {agent asid va : Nat} {need : Need} {r : Nat × Nat}
    (h : s.resolve agent asid va need = (.ok r, t)) : t = { s with tlb := t.tlb } := by
  unfold State.resolve at h
  split at h
  · simp at h
  · split at h
    · simp at h
    next found =>
      have same := translate_ok found
      split at h
      · simp at h
      · split at h
        · simp at h
        · exact (Prod.mk.inj h).2 ▸ same

theorem checkPage_ok {s t : State} {g : Gang} {va n : Nat} {need : Need} {ps : List Place} {mt : Nat}
    (h : s.checkPage g va n need = (.ok ps mt, t)) : recached s t := by
  unfold State.checkPage at h
  split at h
  next found =>
    obtain ⟨-, rfl⟩ := Prod.mk.inj h
    rw [resolve_ok found]
    exact recached_tlb s _
  next => simp at h

/-- An access of two pieces passes only where both do. -/
theorem Chk.append_ok {a b : Chk} {ps : List Place} {mt : Nat} (h : a.append b = .ok ps mt) :
    (∃ ps, a = .ok ps mt) ∧ ∃ ps mt, b = .ok ps mt := by
  cases a <;> cases b <;> simp only [Chk.append] at h
  case ok.ok =>
    obtain ⟨-, rfl⟩ := Chk.ok.inj h
    exact ⟨⟨_, rfl⟩, _, _, rfl⟩
  case fault.fault => split at h <;> cases h
  all_goals cases h

theorem checkVa_ok {s t : State} {g : Gang} {va n : Nat} {need : Need} {ps : List Place} {mt : Nat}
    (h : s.checkVa g va n need = (.ok ps mt, t)) : recached s t := by
  unfold State.checkVa at h
  dsimp only at h
  split at h
  · exact checkPage_ok h
  · obtain ⟨both, rfl⟩ := Prod.mk.inj h
    obtain ⟨⟨_, first⟩, _, _, second⟩ := Chk.append_ok both
    exact recached_trans (checkPage_ok (Prod.ext first rfl)) (checkPage_ok (Prod.ext second rfl))

/-- A check through G that passes changes cached translations alone (R42, R47). -/
theorem check_g_ok {s t : State} {g : Gang} {lane o n : Nat} {write two : Bool} {ps : List Place} {mt : Nat}
    (h : s.check g .g lane o n write two = (.ok ps mt, t)) : recached s t := by
  unfold State.check at h
  dsimp only at h
  split at h
  · simp at h
  · split at h
    · simp at h
    · split at h
      · simp at h
      · exact checkVa_ok h

/-! ### Reading through G -/

/-- The caches after a read through G that passes. -/
theorem readsOk_recached {s t : State} {o n x : Nat} {bypass : Bool} (h : readsOk s .g o n bypass t x) :
    recached s t := by
  obtain ⟨ps, mt, u, checked, rfl, -, -⟩ := h
  exact recached_trans (check_g_ok checked) (recached_touch _ _ _ _)

/-- A read of the scalar stream that passes goes on with the state and the bytes of `readsOk`. -/
theorem scalarRead_readsOk {s t : State} {seg : SegName} {o n x : Nat} {bypass : Bool} (k : State → Nat → Act)
    (h : readsOk s seg o n bypass t x) : s.scalarRead seg o n bypass false k = k t x := by
  obtain ⟨ps, mt, u, checked, rfl, good, rfl⟩ := h
  unfold State.scalarRead
  simp only [checked]
  rw [findBy_eq_none.mpr good]
  rfl

/-! ### Loading a record -/

theorem getK_aligned {x : Word} {k : Nat} (hk : k ≤ 64) (h : x.toNat % 2 ^ k = 0) :
    x &&& BitVec.ofNat 64 (2 ^ k - 1) = 0 := by
  apply BitVec.eq_of_toNat_eq
  have small : 2 ^ k - 1 < 2 ^ 64 := by
    have := Nat.pow_le_pow_right (n := 2) (by omega) hk
    omega
  rw [BitVec.toNat_and, BitVec.toNat_ofNat, Nat.mod_eq_of_lt small, Nat.and_two_pow_sub_one_eq_mod, h]
  rfl

/-- What a scalar instruction without a k result leaves: of its gang pc, no wait, the record of a wait, and the record of
how instructions complete. -/
theorem wroteK_zero {t u : State} {pc : Word} (wait : u.g.wait = none)
    (frame : u = { t with g := marked { t.g with pc := pc, wait := u.g.wait, kept := u.g.kept } u.g })
    (record : completes false t u) : wroteK t u 0 0 := by
  have k : u.g.k = t.g.k := by rw [frame]; rfl
  have kPoison : u.g.kPoison = t.g.kPoison := by rw [frame]; rfl
  have pc_eq : u.g.pc = pc := by rw [frame]; rfl
  refine ⟨by rw [k, if_pos rfl], wait, ?_, record, ?_⟩
  · rw [k, kPoison, pc_eq]
    exact frame
  · rw [frame]
    exact ⟨fun _ => rfl, fun _ _ => rfl, rfl, rfl⟩

/-- An instruction that puts a segment and goes on. -/
theorem wroteK_segs (t b : State) (segs : Segs) (undo : Undo) :
    let u := (State.advance { t with g := { t.g with segs := segs } }).retire b false undo
    wroteK t { u with g := { u.g with segs := t.g.segs } } 0 0 := by
  have wait := State.retire_wait (State.advance { t with g := { t.g with segs := segs } }) b undo
  have frame := State.retire_eq (State.advance { t with g := { t.g with segs := segs } }) b false undo
  have record := State.retire_completes (State.advance { t with g := { t.g with segs := segs } }) b false undo
  generalize (State.advance { t with g := { t.g with segs := segs } }).retire b false undo = u at wait frame record ⊢
  exact wroteK_zero (pc := t.g.pc + 4) wait
    (congrArg (fun v : State => ({ v with g := { v.g with segs := t.g.segs } } : State)) frame)
    (completes_of record rfl rfl rfl)

/-- An instruction that puts a stream record and goes on. -/
theorem wroteK_streams (t b : State) (streams : List (Option StreamSlot)) (undo : Undo) :
    let u := (State.advance { t with g := { t.g with streams := streams } }).retire b false undo
    wroteK t { u with g := { u.g with streams := t.g.streams } } 0 0 := by
  have wait := State.retire_wait (State.advance { t with g := { t.g with streams := streams } }) b undo
  have frame := State.retire_eq (State.advance { t with g := { t.g with streams := streams } }) b false undo
  have record := State.retire_completes (State.advance { t with g := { t.g with streams := streams } }) b false undo
  generalize (State.advance { t with g := { t.g with streams := streams } }).retire b false undo = u at wait frame record ⊢
  exact wroteK_zero (pc := t.g.pc + 4) wait
    (congrArg (fun v : State => ({ v with g := { v.g with streams := t.g.streams } } : State)) frame)
    (completes_of record rfl rfl rfl)

theorem segDescriptor_fields {x : Nat} {n : SegName} {v : Seg} (h : segDescriptor x = some (n, v)) :
    v.base.toNat = x % 2 ^ 57 ∧ v.limit.toNat = x / 2 ^ 64 % 2 ^ 58 := by
  unfold segDescriptor at h
  dsimp only at h
  split at h
  · cases h
  next legal =>
    obtain ⟨_, _, e⟩ := Option.map_eq_some_iff.mp h
    obtain ⟨-, rfl⟩ := Prod.mk.inj e
    simp only [bits, Bool.or_eq_true, bne_iff_ne, not_or, ne_eq, not_not] at legal
    obtain ⟨⟨high, -⟩, -⟩ := legal
    simp only [BitVec.toNat_ofNat, bits]
    omega

/-- A scalar instruction raises PRIV at U before all else but a comparison of a Mordant pair. -/
theorem privileged_u {s : State} (a : Act) (h : s.g.level = .u) :
    (s.privileged a).scalar s = .next (trapped s false .priv 0) := by
  simp [State.privileged, h, trapped]

/-- SGLD of a legal descriptor that can be read (R167, R43). -/
theorem execSgld_loads {a : Reg} {s t : State} {x : Nat} {n : SegName} {v : Seg} (level : s.g.level = .k)
    (good : sound s a) (same : agrees s) (aligned : (s.getK a).toNat % 16 = 0) (idle : s.g.laneIdle = true)
    (ust : s.g.ust = 0) (ifc : s.g.ifc = []) (reads : readsOk s .g (s.getK a).toNat 16 true t x)
    (legal : segDescriptor x = some (n, v)) :
    exec (.sgld a) s =
      .next ((State.advance { t with g := { t.g with segs := t.g.segs.put n v } }).retire s false .write) := by
  have mask : s.getK a &&& 15#64 = 0#64 := getK_aligned (k := 4) (by omega) aligned
  have uncompared : s.g.uncompared = false := same
  show execSgld a s = _
  unfold execSgld
  rw [State.reading_sound _ (by simpa using good)]
  simp [State.privileged, level, State.compared, uncompared, mask, State.whenIdle, idle, ust, ifc,
    scalarRead_readsOk _ reads, legal]

/-- SREC of a legal record that can be read (R175, R252). -/
theorem execSrec_loads {sl : BitVec 5} {a : Reg} {s t : State} {x : Nat} {r : StreamRec} (slot : sl.toNat ≤ 3)
    (good : sound s a) (aligned : (s.getK a).toNat % 64 = 0) (idle : s.g.laneIdle = true)
    (reads : readsOk s .g (s.getK a).toNat 64 true t x) (legal : streamRecord x = some r) :
    exec (.srec sl a) s =
      .next ((State.advance { t with g := { t.g with
        streams := t.g.streams.set sl.toNat (some { desc := r, pos := 0 }) } }).retire s false .none) := by
  have mask : s.getK a &&& 63#64 = 0#64 := getK_aligned (k := 6) (by omega) aligned
  have low : ¬ 3 < sl.toNat := by omega
  show execSrec sl a s = _
  unfold execSrec
  rw [State.reading_sound _ (by simpa using good)]
  simp [low, mask, State.whenIdle, idle, scalarRead_readsOk _ reads, legal]

/-- Settles O11: the read passes and leaves the caches alone changed; what it gives is retired with the record in its
place. -/
theorem recordLoads : Obligations.RecordLoads := by
  refine ⟨fun a s t x n v level good same aligned idle ust ifc reads legal => ?_, fun a s level => ?_,
    fun sl a s t x r slot good aligned idle reads legal => ?_⟩
  · have caches := readsOk_recached reads
    have pc : t.g.pc = s.g.pc := by rw [recached_gang caches]
    have segs : t.g.segs = s.g.segs := by rw [recached_gang caches]
    obtain ⟨base, limit⟩ := segDescriptor_fields legal
    refine ⟨_, execSgld_loads level good same aligned idle ust ifc reads legal, onlyCaches_of_recached caches, ?_, ?_,
      base, limit, ?_⟩
    · rw [State.retire_pc, ← pc]; rfl
    · rw [State.retire_eq, ← segs]; rfl
    · exact wroteK_segs ..
  · exact privileged_u _ level
  · have caches := readsOk_recached reads
    have pc : t.g.pc = s.g.pc := by rw [recached_gang caches]
    have streams : t.g.streams = s.g.streams := by rw [recached_gang caches]
    refine ⟨_, execSrec_loads slot good aligned idle reads legal, onlyCaches_of_recached caches, ?_, ?_, ?_⟩
    · rw [State.retire_pc, ← pc]; rfl
    · rw [State.retire_eq, ← streams]; rfl
    · exact wroteK_streams ..

end Sys2Proof.Machine
end

section
/-! Invalidations of translations (R48 to R50, R168): the broadcast, the acknowledgement of an agent, and what is listed
of them. -/

namespace Sys2Proof.Machine

open Sys2Proof
open Sys2Proof.Safety

/-! ### Fields of a word -/

theorem field_eq {w : Nat} (x : BitVec w) (lo n : Nat) : field x lo n = x.toNat / 2 ^ lo % 2 ^ n := by
  simp [field, BitVec.extractLsb'_toNat, Nat.shiftRight_eq_div_pow]

/-! ### ktlbi (R168) -/

theorem exec_ktlbi_broadcasts {a b : Reg} {s : State} (level : s.g.level = .k) (soundA : sound s a) (soundB : sound s b)
    (same : agrees s) (free : s.g.wait = none) (ust : s.g.ust = 0) (small : (s.getK a).toNat < 2 ^ 13)
    (own : (s.getK a).toNat % 2 ^ 12 = s.myAsid) (real : s.myAsid ≠ 0)
    (page : (s.getK a).getLsbD 12 = false → (s.getK b).toNat < 2 ^ 57) :
    exec (.ktlbi a b) s = Act.scalar s (.wait
      (s.broadcast s.myAsid ((s.getK a).getLsbD 12) (field (s.getK b) 0 57) (some s.g.ref)).2 (.tlbi s.nextId)) := by
  have high : field (s.getK a) 13 51 = 0 := by rw [field_eq]; omega
  have low : field (s.getK a) 0 12 = s.myAsid := (field_eq_mod _ _).trans own
  have above : (!(s.getK a).getLsbD 12 && field (s.getK b) 57 7 != 0) = false := by
    cases mode : (s.getK a).getLsbD 12
    · have := page mode
      have none : field (s.getK b) 57 7 = 0 := by rw [field_eq]; omega
      simp [none]
    · rfl
  have uncompared : s.g.uncompared = false := same
  show execKtlbi a b s = _
  unfold execKtlbi
  simp only [free]
  rw [State.reading_sound _ (by simp [soundA, soundB])]
  simp only [State.privileged, level, high, low, above, State.compared, uncompared, ust]
  simp [real, State.broadcast]

theorem exec_ktlbi_waiting {a b : Reg} {s : State} {id : Nat} (waits : s.g.wait = some (.tlbi id)) :
    exec (.ktlbi a b) s = Act.scalar s (s.tlbiWait id) := by
  show execKtlbi a b s = _
  unfold execKtlbi
  simp only [waits]

/-- A scalar instruction that only goes on. -/
theorem wroteK_done (t b : State) (undo : Undo) : wroteK t (t.advance.retire b false undo) 0 0 := by
  have wait := State.retire_wait t.advance b undo
  have frame := State.retire_eq t.advance b false undo
  have record := State.retire_completes t.advance b false undo
  generalize t.advance.retire b false undo = u at wait frame record ⊢
  exact wroteK_zero (pc := t.g.pc + 4) wait frame (completes_of record rfl rfl rfl)

theorem ktlbi_settled : ktlbiBroadcastsAndCompletes := by
  refine ⟨fun a b s level soundA soundB same free ust small own real page => ?_,
    fun a b s x waits listed passed all => ?_, fun a b s x m waits same listed failed => ?_, fun a b s level free => ?_⟩
  · refine ⟨_, exec_ktlbi_broadcasts level soundA soundB same free ust small own real page, rfl, ?_, rfl⟩
    simp only [State.broadcast, field_eq_mod]
    rfl
  · have run := exec_ktlbi_waiting (a := a) (b := b) waits
    simp only [State.tlbiWait, listed, passed, all, beq_self_eq_true, if_true] at run
    refine ⟨_, run, ?_, ?_, ?_⟩
    · rw [State.retire_tlbis]; rfl
    · rw [State.retire_tlbis]
      exact wroteK_done { s with tlbis := dropBy (fun y => y.id == x.id) s.tlbis } s .none
    · rw [State.retire_pc]; rfl
  · have run := exec_ktlbi_waiting (a := a) (b := b) waits
    have uncompared : s.g.uncompared = false := same
    simpa [State.tlbiWait, listed, failed, uncompared] using run
  · show execKtlbi a b s = _
    unfold execKtlbi
    simp only [free]
    exact privileged_u _ level

/-! ### CPTLBI (R50) -/

/-- A write of CPTLBI_CMD from S or M. -/
theorem cptlbi_eq {lvl : HostLevel} (hl : lvl ≠ .u) (s : State) (asid : BitVec 12) (all : Bool) :
    s.cptlbi lvl asid all =
      if s.cp.tlbiBusy = true then { s with cp := { s.cp with tlbiOverrun := true } }
      else if (asid = 0 ∧ lvl = .s) ∨ (asid ≠ 0 ∧ s.ctx asid.toNat = none) then
        { s with cp := { s.cp with tlbiAsid := asid, tlbiMode := all, tlbiCode := 1 } }
      else { s with
        nextId := s.nextId + 1, cp := { s.cp with tlbiAsid := asid, tlbiMode := all, tlbiBusy := true },
        tlbis := s.tlbis ++ [{ id := s.nextId, asid := asid.toNat, all := all, va := s.cp.tlbiVa.toNat, acked := [],
                               start := s.cycle, port := true, gang := none, failed := none }] } := by
  have port (t : State) : s.hostPort lvl t = t := if_neg (by simpa using hl)
  have refuses : ((asid == 0 && lvl == .s) || (asid != 0 && (s.ctx asid.toNat).isNone)) = true ↔
      (asid = 0 ∧ lvl = .s) ∨ (asid ≠ 0 ∧ s.ctx asid.toNat = none) := by simp
  rw [State.cptlbi, port]
  by_cases busy : s.cp.tlbiBusy = true
  · rw [if_pos busy, if_pos busy]
  · rw [if_neg busy, if_neg busy]
    by_cases none : (asid = 0 ∧ lvl = .s) ∨ (asid ≠ 0 ∧ s.ctx asid.toNat = none)
    · rw [if_pos none]
      exact if_pos (refuses.mpr none)
    · rw [if_neg none]
      exact if_neg (mt refuses.mp none)

theorem exec_cptlbi : ∀ f ∈ [(Instr.cptlbiPage, false), (Instr.cptlbiAll, true)],
    ∀ (lvl : HostLevel) (asid : BitVec 12) (s : State), exec (f.1 lvl asid) s = .next (s.cptlbi lvl asid f.2) := by
  intro f hf lvl asid s
  simp only [List.mem_cons, List.not_mem_nil, or_false] at hf
  obtain rfl | rfl := hf <;> rfl

/-! ### What an agent removes (R48) -/

/-- A cached translation holds the address. -/
def TlbEntry.holds (e : TlbEntry) (va : Nat) : Prop := e.va ≤ va ∧ va < e.va + e.size

theorem pteLeaf_holds (agent asid va size base e : Nat) (pos : 0 < size) :
    (pteLeaf agent asid va size base e).holds va := by
  have floor := Nat.div_mul_le_self va size
  have rest := Nat.lt_div_mul_add pos (a := va)
  exact ⟨floor, rest⟩

theorem leaf1_holds {woad : Bool} {agent asid va e off size : Nat} {cache : Bool} {r : TlbEntry × Bool} (pos : 0 < size)
    (h : leaf1 woad agent asid va e off cache size = .ok r) : r.1.holds va := by
  unfold leaf1 at h
  split at h
  · cases h
  · cases h
    exact pteLeaf_holds _ _ _ _ _ _ pos

theorem walkLast_holds {s : State} {woad : Bool} {agent asid va table : Nat} {r : TlbEntry × Bool}
    (h : s.walkLast woad agent asid va table = .ok r) : r.1.holds va := by
  unfold State.walkLast at h
  dsimp only at h
  split at h
  · cases h
  · split at h
    · split at h
      · cases h
      · exact leaf1_holds (by decide) h
    · split at h
      · exact leaf1_holds (by decide) h
      · split at h
        · exact leaf1_holds (by decide) h
        · split at h <;> exact leaf1_holds (by decide) h

theorem walkFrom_holds {s : State} {woad : Bool} {agent asid va : Nat} {r : TlbEntry × Bool} : ∀ {level table : Nat},
    s.walkFrom woad agent asid va level table = .ok r → r.1.holds va
  | 0, _, h => by cases h
  | 1, _, h => walkLast_holds h
  | level + 2, table, h => by
    simp only [State.walkFrom] at h
    split at h
    · cases h
    · split at h
      · cases h
      · split at h
        · exact walkFrom_holds h
        · split at h
          · cases h
            exact pteLeaf_holds _ _ _ _ _ _ (by decide)
          · cases h

/-- The page of an address holds it (R44, R47). -/
theorem pageOf_holds (s : State) (agent asid va : Nat) :
    (s.pageOf agent asid va).1 ≤ va ∧ va < (s.pageOf agent asid va).1 + (s.pageOf agent asid va).2 := by
  unfold State.pageOf
  split
  next e found =>
    have := (findBy_mem found).2
    simp only [TlbEntry.covers, Bool.and_eq_true, decide_eq_true_eq] at this
    exact this.1.2
  next =>
    split
    next e cache walked =>
      unfold State.walk at walked
      split at walked
      · exact walkFrom_holds walked
      · cases walked
    next =>
      dsimp only
      omega

/-- The translations that an agent keeps through an invalidation (R48). -/
theorem mem_invalidate_tlb {s : State} {agent asid va : Nat} {all : Bool} (e : TlbEntry) :
    e ∈ (s.invalidate agent asid all va).tlb ↔ e ∈ s.tlb ∧ ¬(e.agent = agent ∧ e.asid = asid ∧
      (all = true ∨ (e.va ≤ va ∧ va < e.va + e.size))) := by
  have drops : (e.agent == agent && e.asid == asid && (all || e.covers agent asid va)) = true ↔
      e.agent = agent ∧ e.asid = asid ∧ (all = true ∨ (e.va ≤ va ∧ va < e.va + e.size)) := by
    simp only [TlbEntry.covers, Bool.and_eq_true, Bool.or_eq_true, beq_iff_eq, decide_eq_true_eq]
    tauto
  simp only [State.invalidate, List.mem_filter, Bool.not_eq_true', ← Bool.not_eq_true, drops]

/-- The instruction words that an agent's cores keep through an invalidation (R48, R230). -/
def keptCode (s : State) (agent asid : Nat) (all : Bool) (va : Nat) (c : Core) : Core :=
  if c.id / 256 == agent then
    { c with code := c.code.filter fun w => !(w.asid == asid && (all ||
        decide ((s.pageOf agent asid va).1 < w.va + w.len ∧
          w.va < (s.pageOf agent asid va).1 + (s.pageOf agent asid va).2))) }
  else c

theorem invalidate_cores (s : State) (agent asid : Nat) (all : Bool) (va : Nat) :
    (s.invalidate agent asid all va).cores = s.cores.map (keptCode s agent asid all va) := rfl

theorem keptCode_bare (s : State) (agent asid : Nat) (all : Bool) (va : Nat) (c : Core) :
    { keptCode s agent asid all va c with code := [] } = { c with code := [] } := by
  unfold keptCode
  split <;> rfl

theorem keptCode_id (s : State) (agent asid : Nat) (all : Bool) (va : Nat) (c : Core) :
    (keptCode s agent asid all va c).id = c.id := by
  unfold keptCode
  split <;> rfl

/-- No word that matches is kept. -/
theorem keptCode_drops {s : State} {agent asid : Nat} {all : Bool} {va : Nat} {c : Core} {w : CodeWord}
    (kept : w ∈ (keptCode s agent asid all va c).code) (die : c.id / 256 = agent) (same : w.asid = asid) :
    all = false ∧ ¬(w.va ≤ va ∧ va < w.va + w.len) := by
  have page := pageOf_holds s agent asid va
  simp only [keptCode, die, beq_self_eq_true, if_true, List.mem_filter, same, Bool.true_and, Bool.not_eq_true',
    Bool.or_eq_false_iff, decide_eq_false_iff_not] at kept
  obtain ⟨_, off, apart⟩ := kept
  exact ⟨off, by omega⟩

theorem keptCode_code {s : State} {agent asid : Nat} {all : Bool} {va : Nat} (c : Core) :
    (∀ w ∈ (keptCode s agent asid all va c).code, w ∈ c.code) ∧
      ∀ w ∈ c.code, (c.id / 256 ≠ agent ∨ w.asid ≠ asid) → w ∈ (keptCode s agent asid all va c).code := by
  by_cases die : c.id / 256 = agent
  · simp only [keptCode, die, beq_self_eq_true, if_true, List.mem_filter]
    exact ⟨fun w h => h.1, fun w hw other => ⟨hw, by simp [other.resolve_left fun h => h rfl]⟩⟩
  · have same : keptCode s agent asid all va c = c := if_neg (by simpa using die)
    rw [same]
    exact ⟨fun _ h => h, fun _ h _ => h⟩

/-! ### Acknowledgements -/

/-- When an agent can acknowledge an invalidation (R48, R49). -/
theorem mayAck_iff (s : State) (x : Tlbi) (agent : Nat) : s.mayAck x agent = true ↔
    agent < 17 ∧ agent ∉ x.acked ∧ (∀ y ∈ s.tlbis, y.id < x.id → agent ∈ y.acked) ∧
      ∀ c ∈ s.copies, c.squashed = false → s.asidOf c.gang.crew = x.asid →
        (∀ y, s.crew c.gang.crew = some y → y.die = agent → ∀ p ∈ c.used,
          x.all = false ∧ ¬(p.1 ≤ x.va ∧ x.va < p.1 + p.2)) := by
  have copies : ((s.copies.any fun c => s.copyUses x agent c) = false) ↔
      ∀ c ∈ s.copies, c.squashed = false → s.asidOf c.gang.crew = x.asid →
        (∀ y, s.crew c.gang.crew = some y → y.die = agent → ∀ p ∈ c.used,
          x.all = false ∧ ¬(p.1 ≤ x.va ∧ x.va < p.1 + p.2)) := by
    rw [List.any_eq_false]
    refine forall₂_congr fun c _ => ?_
    unfold State.copyUses
    cases s.crew c.gang.crew <;> simp [List.any_eq_true]
  simp only [State.mayAck, Bool.and_eq_true, decide_eq_true_eq, Bool.not_eq_true', copies, List.all_eq_true,
    Bool.or_eq_true, List.contains_iff_mem, and_assoc, ← Bool.not_eq_true]
  refine and_congr_right fun _ => and_congr_right fun _ => and_congr_left fun _ => forall₂_congr fun y _ => ?_
  rw [← not_lt, ← imp_iff_not_or]

/-- TLBI_ACK of a listed invalidation (R48 to R50). -/
theorem exec_tlbiAck {s : State} {id : Nat} {x : Tlbi} (agent : Nat)
    (listed : findBy (fun (t : Tlbi) => t.id == id) s.tlbis = some x) :
    exec (.tlbiAck id agent) s = .next
      (if s.mayAck x agent = true then
        (if x.port = true ∧ x.acked.length = 16 then
          { s.invalidate agent x.asid x.all x.va with
              tlbis := dropBy (fun (y : Tlbi) => y.id == id) s.tlbis,
              cp := { s.cp with tlbiBusy := false, tlbiCode := 0 } }
        else
          { s.invalidate agent x.asid x.all x.va with
              tlbis := updBy (fun (y : Tlbi) => y.id == id) (fun _ => { x with acked := x.acked ++ [agent] }) s.tlbis })
      else s) := by
  have last : (x.port && (x.acked ++ [agent]).length == 17) = true ↔ x.port = true ∧ x.acked.length = 16 := by simp
  show execTlbiAck id agent s = _
  unfold execTlbiAck
  simp only [listed]
  by_cases may : s.mayAck x agent = true
  · rw [if_pos may, may]
    by_cases full : x.port = true ∧ x.acked.length = 16
    · rw [if_pos full]
      exact congrArg _ (if_pos (last.mpr full))
    · rw [if_neg full]
      exact congrArg _ (if_neg (mt last.mp full))
  · rw [if_neg may, eq_false_of_ne_true may]
    rfl

/-- What an acknowledgement leaves of the translations and of the instruction words, whatever becomes of the
invalidation itself. -/
theorem tlbiAck_caches {s t : State} {agent asid va : Nat} {all : Bool}
    (tlb : t.tlb = (s.invalidate agent asid all va).tlb) (cores : t.cores = (s.invalidate agent asid all va).cores) :
    (∀ e, e ∈ t.tlb ↔ e ∈ s.tlb ∧ ¬(e.agent = agent ∧ e.asid = asid ∧
      (all = true ∨ (e.va ≤ va ∧ va < e.va + e.size)))) ∧
    t.cores.map (fun c => { c with code := [] }) = s.cores.map (fun c => { c with code := [] }) ∧
    (∀ c ∈ t.cores, ∀ w ∈ c.code, c.id / 256 = agent → w.asid = asid → all = false ∧
      ¬(w.va ≤ va ∧ va < w.va + w.len)) ∧
    (∀ c ∈ t.cores, ∃ c0 ∈ s.cores, c0.id = c.id ∧ (∀ w ∈ c.code, w ∈ c0.code) ∧
      ∀ w ∈ c0.code, (c.id / 256 ≠ agent ∨ w.asid ≠ asid) → w ∈ c.code) := by
  rw [tlb, cores, invalidate_cores]
  refine ⟨mem_invalidate_tlb, ?_, ?_, ?_⟩
  · rw [List.map_map]
    exact List.map_congr_left fun c _ => keptCode_bare ..
  · intro c hc w hw die same
    obtain ⟨c0, _, rfl⟩ := List.mem_map.mp hc
    rw [keptCode_id] at die
    exact keptCode_drops hw die same
  · intro c hc
    obtain ⟨c0, h0, rfl⟩ := List.mem_map.mp hc
    rw [keptCode_id]
    exact ⟨c0, h0, rfl, keptCode_code c0⟩

/-- The clauses of TLBI_ACK. -/
theorem tlbiAck_settled (s : State) (id agent : Nat) (x : Tlbi)
    (listed : findBy (fun (t : Tlbi) => t.id == id) s.tlbis = some x) :
    (¬s.mayAck x agent = true → exec (.tlbiAck id agent) s = .next s) ∧
    (s.mayAck x agent = true → ∃ t, exec (.tlbiAck id agent) s = .next t ∧
      (∀ e, e ∈ t.tlb ↔ e ∈ s.tlb ∧ ¬(e.agent = agent ∧ e.asid = x.asid ∧
        (x.all = true ∨ (e.va ≤ x.va ∧ x.va < e.va + e.size)))) ∧
      t.cores.map (fun c => { c with code := [] }) = s.cores.map (fun c => { c with code := [] }) ∧
      (∀ c ∈ t.cores, ∀ w ∈ c.code, c.id / 256 = agent → w.asid = x.asid → x.all = false ∧
        ¬(w.va ≤ x.va ∧ x.va < w.va + w.len)) ∧
      (∀ c ∈ t.cores, ∃ c0 ∈ s.cores, c0.id = c.id ∧ (∀ w ∈ c.code, w ∈ c0.code) ∧
        ∀ w ∈ c0.code, (c.id / 256 ≠ agent ∨ w.asid ≠ x.asid) → w ∈ c.code) ∧
      (if x.port = true ∧ x.acked.length = 16 then
        t = { s with tlb := t.tlb, cores := t.cores, tlbis := dropBy (fun (y : Tlbi) => y.id == id) s.tlbis,
                     cp := { s.cp with tlbiBusy := false, tlbiCode := 0 } }
      else
        t = { s with tlb := t.tlb, cores := t.cores,
                     tlbis := updBy (fun (y : Tlbi) => y.id == id) (fun _ => { x with acked := x.acked ++ [agent] })
                       s.tlbis })) := by
  rw [exec_tlbiAck agent listed]
  refine ⟨fun not => by rw [if_neg not], fun may => ?_⟩
  rw [if_pos may]
  by_cases last : x.port = true ∧ x.acked.length = 16
  · rw [if_pos last]
    obtain ⟨tlb, cores, dropped, kept⟩ := tlbiAck_caches (s := s) rfl rfl
    exact ⟨_, rfl, tlb, cores, dropped, kept, by rw [if_pos last]; rfl⟩
  · rw [if_neg last]
    obtain ⟨tlb, cores, dropped, kept⟩ := tlbiAck_caches (s := s) rfl rfl
    exact ⟨_, rfl, tlb, cores, dropped, kept, by rw [if_neg last]; rfl⟩

end Sys2Proof.Machine
end

section
/-! What reports of ended work change (R59, R65, R79): stores of the command processor, the queue of the command, and the
kernel counted. -/

namespace Sys2Proof.Machine

open Sys2Proof
open Sys2Proof.Safety

/-! ### Stores of the command processor -/

theorem writeHomeBytes_homed (s : State) (pa : Nat) (bs : List Byte) :
    s.writeHomeBytes pa bs = homed s (s.writeHomeBytes pa bs) := writeHome_homed s _

theorem cpResolve_ok {s t : State} {asid va n : Nat} {need : Need} {pas : List Nat}
    (h : s.cpResolve asid va n need = (.ok pas, t)) : t = { s with tlb := t.tlb } := by
  unfold State.cpResolve at h
  dsimp only at h
  split at h
  · simp at h
  next first =>
    have same := resolve_ok first
    split at h
    · exact (Prod.mk.inj h).2 ▸ same
    · split at h
      · simp at h
      next second =>
        obtain ⟨-, rfl⟩ := Prod.mk.inj h
        rw [resolve_ok second, same]

theorem cpWrite_some {s t : State} {asid va : Nat} {bytes : List Byte} (h : s.cpWrite asid va bytes = some t) :
    t = { homed s t with tlb := t.tlb } := by
  unfold State.cpWrite at h
  split at h
  next resolved =>
    obtain rfl := Option.some.inj h
    rw [writeHome_homed, cpResolve_ok resolved]
    rfl
  · cases h

theorem cpStores_trans {s t u : State} (h : t = { homed s t with tlb := t.tlb }) (h' : u = { homed t u with tlb := u.tlb }) :
    u = { homed s u with tlb := u.tlb } := by
  rw [h', h]
  rfl

/-! ### A context's queues -/

/-- t is s but for the queues of one context, cached translations, and memory. -/
def requeued (s t : State) (asid : Nat) : Prop :=
  t = { homed s t with ctxs := t.ctxs, tlb := t.tlb } ∧ (∀ n, n ≠ asid → t.ctx n = s.ctx n) ∧
    ∀ c, s.ctx asid = some c → ∃ d, t.ctx asid = some d ∧ d = { c with queues := d.queues }

theorem requeued_refl (s : State) (asid : Nat) : requeued s s asid := ⟨rfl, fun _ _ => rfl, fun c h => ⟨c, h, rfl⟩⟩

theorem requeued_trans {s t u : State} {asid : Nat} (h : requeued s t asid) (h' : requeued t u asid) :
    requeued s u asid := by
  obtain ⟨ht, others, own⟩ := h
  obtain ⟨hu, others', own'⟩ := h'
  refine ⟨by rw [hu, ht]; rfl, fun n hn => (others' n hn).trans (others n hn), fun c hc => ?_⟩
  obtain ⟨d, hd, same⟩ := own c hc
  obtain ⟨e, he, same'⟩ := own' d hd
  exact ⟨e, he, by rw [same', same]⟩

theorem requeued_stores {s t : State} (asid : Nat) (h : t = { homed s t with tlb := t.tlb }) : requeued s t asid := by
  have ctx (n : Nat) : t.ctx n = s.ctx n := by rw [h]; rfl
  refine ⟨by rw [h]; rfl, fun n _ => ctx n, fun c hc => ⟨c, (ctx asid).trans hc, rfl⟩⟩

theorem requeued_write (s : State) (asid pa : Nat) (bs : List Byte) : requeued s (s.writeHomeBytes pa bs) asid :=
  requeued_stores asid (by rw [writeHomeBytes_homed]; rfl)

theorem ctx_updCtx {s : State} {f : Ctx → Ctx} (hf : ∀ c, (f c).asid = c.asid) (asid n : Nat) :
    (s.updCtx asid f).ctx n = if n = asid then (s.ctx asid).map f else s.ctx n :=
  findBy_updBy (key := Ctx.asid) hf asid n s.ctxs

theorem requeued_updQueue (s : State) (asid n : Nat) (f : Queue → Queue) : requeued s (s.updQueue asid n f) asid := by
  have found (m : Nat) : (s.updQueue asid n f).ctx m = _ :=
    ctx_updCtx (f := fun c => { c with queues := updBy (fun q => q.num == n) f c.queues }) (fun _ => rfl) asid m
  refine ⟨rfl, fun m hm => (found m).trans (if_neg hm), fun c hc => ?_⟩
  rw [found, if_pos rfl, hc]
  exact ⟨_, rfl, rfl⟩

theorem requeued_setQueueState (s : State) (asid n : Nat) (st : QueueState) :
    requeued s (s.setQueueState asid n st) asid := by
  unfold State.setQueueState
  split
  · exact requeued_refl s asid
  · split
    · exact requeued_refl s asid
    · exact requeued_trans (requeued_updQueue ..) (requeued_write ..)

theorem requeued_queueError (s : State) (asid n err idx : Nat) : requeued s (s.queueError asid n err idx) asid :=
  requeued_trans (requeued_trans (requeued_trans (requeued_setQueueState ..) (requeued_updQueue ..)) (requeued_write ..))
    (requeued_write ..)

theorem requeued_refreshQueue (s : State) (asid n : Nat) : requeued s (s.refreshQueue asid n) asid := by
  unfold State.refreshQueue
  split
  · exact requeued_refl s asid
  · split
    · exact requeued_refl s asid
    · exact requeued_refl s asid
    · exact requeued_refl s asid
    · split <;> exact requeued_setQueueState ..

/-- A command that completes changes its context's queues (R59, R65). -/
theorem requeued_completeCommand (s : State) (asid n index status cause : Nat) :
    requeued s (s.completeCommand asid n index status cause) asid := by
  unfold State.completeCommand
  split
  · exact requeued_refl s asid
  · split
    · exact requeued_refl s asid
    · dsimp only
      split
      · exact requeued_trans (requeued_updQueue ..) (requeued_refreshQueue ..)
      · split
        · exact requeued_trans (requeued_updQueue ..) (requeued_refreshQueue ..)
        · split
          next first =>
            have written := requeued_trans (requeued_updQueue ..) (requeued_stores asid (cpWrite_some first))
            split
            next second =>
              exact requeued_trans written
                (requeued_trans (requeued_stores asid (cpWrite_some second)) (requeued_refreshQueue ..))
            next => exact requeued_trans written (requeued_queueError ..)
          next => exact requeued_trans (requeued_updQueue ..) (requeued_queueError ..)

/-! ### Reports of ended work (R79) -/

/-- A kernel whose end writes nothing: it belongs to no command, and its children have neither completion records nor
failure lists. -/
def unreported (k : Kernel) : Prop := k.owner = none ∧ ∀ h ∈ k.children, h.completion = 0 ∧ h.failList = 0

/-- What reports of ended work keep: of the contexts all but the queues of those whose commands own kernels; the owners
of kernels; and, where no kernel reports anything, memory. -/
structure Reports (s t : State) : Prop where
  others : ∀ n, (∀ k ∈ s.kernels, ∀ q i, k.owner ≠ some (.command n q i)) → t.ctx n = s.ctx n
  ctxs : ∀ n c, s.ctx n = some c → ∃ d, t.ctx n = some d ∧ d = { c with queues := d.queues }
  kernels : ∀ k ∈ t.kernels, ∃ k0 ∈ s.kernels, k.owner = k0.owner ∧ (unreported k0 → unreported k)
  memory : (∀ k ∈ s.kernels, unreported k) → ∀ a, t.homeByte a = s.homeByte a

theorem Reports.of_same {s t : State} (ctxs : t.ctxs = s.ctxs) (kernels : t.kernels = s.kernels)
    (memory : ∀ a, t.homeByte a = s.homeByte a) : Reports s t := by
  have ctx (n : Nat) : t.ctx n = s.ctx n := by rw [State.ctx, ctxs]; rfl
  exact ⟨fun n _ => ctx n, fun n c hc => ⟨c, (ctx n).trans hc, rfl⟩, fun k hk => ⟨k, kernels ▸ hk, rfl, id⟩,
    fun _ => memory⟩

theorem Reports.trans {s t u : State} (h : Reports s t) (h' : Reports t u) : Reports s u where
  others n free := by
    refine (h'.others n fun k hk q i owned => ?_).trans (h.others n free)
    obtain ⟨k0, h0, same, _⟩ := h.kernels k hk
    exact free k0 h0 q i (same ▸ owned)
  ctxs n c hc := by
    obtain ⟨d, hd, same⟩ := h.ctxs n c hc
    obtain ⟨e, he, same'⟩ := h'.ctxs n d hd
    exact ⟨e, he, by rw [same', same]⟩
  kernels k hk := by
    obtain ⟨k1, h1, same, silent⟩ := h'.kernels k hk
    obtain ⟨k0, h0, same', silent'⟩ := h.kernels k1 h1
    exact ⟨k0, h0, same.trans same', silent ∘ silent'⟩
  memory free a := by
    refine (h'.memory (fun k hk => ?_) a).trans (h.memory free a)
    obtain ⟨k0, h0, _, silent⟩ := h.kernels k hk
    exact silent (free k0 h0)

/-- What reports of ended work change: queues, kernels, cached translations and memory. -/
structure Reported (s t : State) : Prop extends Reports s t where
  frame : t = { homed s t with ctxs := t.ctxs, tlb := t.tlb, kernels := t.kernels }

theorem Reported.refl (s : State) : Reported s s := ⟨.of_same rfl rfl fun _ => rfl, rfl⟩

theorem Reported.trans {s t u : State} (h : Reported s t) (h' : Reported t u) : Reported s u :=
  ⟨h.toReports.trans h'.toReports, by rw [h'.frame, h.frame]; rfl⟩

/-- Stores are a report where some kernel that reports something makes them. -/
theorem Reported.of_stores {s t : State} (h : t = { homed s t with tlb := t.tlb })
    (loud : (∀ k ∈ s.kernels, unreported k) → t = s) : Reported s t where
  frame := by rw [h]; rfl
  others n _ := by rw [h]; rfl
  ctxs n c hc := ⟨c, by rw [h]; exact hc, rfl⟩
  kernels k hk := ⟨k, by rw [h] at hk; exact hk, rfl, id⟩
  memory free a := by rw [loud free]

/-- A change of the queues of a context whose command owns a kernel is a report. -/
theorem Reported.of_requeued {s t : State} {a q i : Nat} {k : Kernel} (h : requeued s t a) (listed : k ∈ s.kernels)
    (owned : k.owner = some (.command a q i)) : Reported s t := by
  obtain ⟨same, others, own⟩ := h
  exact {
    frame := by rw [same]; rfl
    others := fun n free => others n fun e => free k listed q i (e ▸ owned)
    ctxs := fun n c hc => by
      by_cases e : n = a
      · subst e
        exact own c hc
      · exact ⟨c, (others n e).trans hc, rfl⟩
    kernels := fun k hk => ⟨k, by rw [same] at hk; exact hk, rfl, id⟩
    memory := fun free _ => by
      have := (free k listed).1
      rw [owned] at this
      cases this }

theorem writeCompletion_stores (s : State) (asid : Nat) (c : Child) (st : KStatus) :
    s.writeCompletion asid c st = { homed s (s.writeCompletion asid c st) with
      tlb := (s.writeCompletion asid c st).tlb } := by
  unfold State.writeCompletion
  dsimp only
  split
  · rfl
  · split
    · rfl
    next first =>
      split
      · exact cpWrite_some first
      next second =>
        have both := cpStores_trans (cpWrite_some first) (cpWrite_some second)
        cases third : State.cpWrite _ asid c.completion.toNat (leBytes 4 st.code)
        · exact both
        · exact cpStores_trans both (cpWrite_some third)

theorem writeCompletion_unreported {s : State} {asid : Nat} {c : Child} {st : KStatus} (h : c.completion = 0) :
    s.writeCompletion asid c st = s := by
  simp [State.writeCompletion, h]

theorem writeFailure_stores (s : State) (asid : Nat) (c : Child) (i : Nat) :
    s.writeFailure asid c i = { homed s (s.writeFailure asid c i) with tlb := (s.writeFailure asid c i).tlb } := by
  unfold State.writeFailure
  split
  · rfl
  · split
    · rfl
    next x _ _ =>
      cases written : s.cpWrite asid (c.failList + 8 * i) (leBytes 4 x.2.1 ++ leBytes 1 x.2.2 ++ leBytes 3 0)
      · rfl
      · exact cpWrite_some written

theorem writeFailure_unreported {s : State} {asid : Nat} {c : Child} {i : Nat} (h : c.failList = 0) :
    s.writeFailure asid c i = s := by
  unfold State.writeFailure
  split
  · rfl
  · exact if_pos (by simp [h])

/-- The report of a child of a listed kernel, or of one as it is counted. -/
theorem Reported.reportChild {s : State} {k k0 : Kernel} (j : Nat) (st : KStatus) (listed : k0 ∈ s.kernels)
    (owner : k.owner = k0.owner) (silent : unreported k0 → unreported k) : Reported s (s.reportChild k j st) := by
  unfold State.reportChild
  split
  · exact .refl s
  next c found =>
    have written : Reported s (s.writeCompletion k.asid c st) :=
      .of_stores (writeCompletion_stores ..) fun free =>
        writeCompletion_unreported ((silent (free k0 listed)).2 c (List.mem_of_getElem? found)).1
    dsimp only
    split
    next a q i owned =>
      have kept : (s.writeCompletion k.asid c st).kernels = s.kernels := by
        rw [writeCompletion_stores]
        rfl
      exact written.trans (.of_requeued (requeued_completeCommand ..) (kept ▸ listed) (owner ▸ owned))
    next => exact written

/-- Entries of a child's failure list written, those of them that are new. -/
def State.writeFailures (s : State) (asid : Nat) (c : Child) (old : List (Nat × Nat × Nat)) : State :=
  (List.range c.fails.length).foldl (fun s i => if c.fails[i]? == old[i]? then s else s.writeFailure asid c i) s

theorem writeFailures_stores (s : State) (asid : Nat) (c : Child) (old : List (Nat × Nat × Nat)) :
    s.writeFailures asid c old = { homed s (s.writeFailures asid c old) with tlb := (s.writeFailures asid c old).tlb } := by
  unfold State.writeFailures
  refine List.foldlRecOn (motive := fun t : State => t = { homed s t with tlb := t.tlb }) _ _ rfl fun t ht i _ => ?_
  split
  · exact ht
  · exact cpStores_trans ht (writeFailure_stores ..)

theorem writeFailures_unreported {s : State} {asid : Nat} {c : Child} {old : List (Nat × Nat × Nat)}
    (h : c.failList = 0) : s.writeFailures asid c old = s := by
  refine List.foldlRecOn (motive := fun t : State => t = s) _ _ rfl fun t ht i _ => ?_
  rw [ht, writeFailure_unreported h, ite_self]

/-- Kernels changed, or dropped, with their owners and what they report kept. -/
theorem Reported.of_kernels {s : State} {kernels : List Kernel}
    (h : ∀ k ∈ kernels, ∃ k0 ∈ s.kernels, k.owner = k0.owner ∧ (unreported k0 → unreported k)) :
    Reported s { s with kernels := kernels } :=
  ⟨⟨fun _ _ => rfl, fun _ c hc => ⟨c, hc, rfl⟩, h, fun _ _ => rfl⟩, rfl⟩

/-- A child with one more crew counted (R79). -/
def counted (k : Kernel) (c : Child) (global cause cycle dead : Nat) : Child :=
  let d : Child := { c with ended := c.ended + 1, deadLanes := c.deadLanes + dead }
  let d : Child := if cause == 0 then { d with completed := c.completed + 1 } else d.addFailure cycle global cause
  { d with reported := d.ended == k.childCrews }

theorem counted_places (k : Kernel) (c : Child) (global cause cycle dead : Nat) :
    (counted k c global cause cycle dead).completion = c.completion ∧
      (counted k c global cause cycle dead).failList = c.failList := by
  unfold counted
  dsimp only
  split <;> exact ⟨rfl, rfl⟩

/-- A kernel with one child changed and one crew fewer to end. -/
def Kernel.less (k : Kernel) (j : Nat) (d : Child) : Kernel :=
  { k with children := k.children.set j d, unended := k.unended - 1 }

theorem countCrew_eq {s : State} {serial j : Nat} {k : Kernel} {c : Child} (found : s.kernel serial = some k)
    (child : k.children[j]? = some c) (global cause cycle dead : Nat) :
    let d := counted k c global cause cycle dead
    let u := (s.writeFailures k.asid d c.fails).updKernel serial fun _ => k.less j d
    let v := if d.reported then u.reportChild (k.less j d) j (if d.fails.isEmpty then .ok else .failed) else u
    s.countCrew serial j global cause cycle dead =
      if (k.less j d).unended == 0 then { v with kernels := dropBy (fun x => x.serial == serial) v.kernels } else v := by
  simp only [State.countCrew, found, child]
  rfl

theorem mem_updBy_self {α : Type} {p : α → Bool} {f : α → α} {y : α} : ∀ {l : List α},
    findBy p l = some y → f y ∈ updBy p f l
  | x :: rest, h => by
    by_cases hx : p x = true
    · simp only [findBy, hx, if_true, Option.some.injEq] at h
      subst h
      simp [updBy, hx]
    · simp only [findBy, hx, Bool.false_eq_true, if_false] at h
      simp [updBy, hx, mem_updBy_self h]

theorem unreported_less {k : Kernel} {c d : Child} {j : Nat} (child : k.children[j]? = some c)
    (completion : d.completion = c.completion) (failList : d.failList = c.failList) (free : unreported k) :
    unreported (k.less j d) := by
  refine ⟨free.1, fun h hh => ?_⟩
  obtain hh | rfl := List.mem_or_eq_of_mem_set hh
  · exact free.2 h hh
  · rw [completion, failList]
    exact free.2 c (List.mem_of_getElem? child)

/-- A listed kernel changed, its owner and the places of its reports kept. -/
theorem Reported.updKernel {s : State} {serial : Nat} {k k' : Kernel} (found : s.kernel serial = some k)
    (owner : k'.owner = k.owner) (silent : unreported k → unreported k') :
    Reported s (s.updKernel serial fun _ => k') := by
  refine .of_kernels fun x hx => ?_
  obtain hx | ⟨_, _, rfl⟩ := mem_updBy hx
  · exact ⟨x, hx, rfl, id⟩
  · exact ⟨k, (findBy_mem found).1, owner, silent⟩

/-- A crew counted is reported through its kernel (R79). -/
theorem Reported.countCrew (s : State) (serial j global cause cycle dead : Nat) :
    Reported s (s.countCrew serial j global cause cycle dead) := by
  cases found : s.kernel serial with
  | none =>
    simp only [State.countCrew, found]
    exact .refl s
  | some k =>
    cases child : k.children[j]? with
    | none =>
      simp only [State.countCrew, found, child]
      exact .refl s
    | some c =>
      rw [countCrew_eq found child]
      obtain ⟨completion, failList⟩ := counted_places k c global cause cycle dead
      generalize counted k c global cause cycle dead = d at completion failList ⊢
      have failures : Reported s (s.writeFailures k.asid d c.fails) :=
        .of_stores (writeFailures_stores ..) fun free => writeFailures_unreported
          (failList.trans ((free k (findBy_mem found).1).2 c (List.mem_of_getElem? child)).2)
      have still : (s.writeFailures k.asid d c.fails).kernel serial = some k := by
        rw [writeFailures_stores]
        exact found
      have less := Reported.updKernel (k' := k.less j d) still rfl (unreported_less child completion failList)
      have listed : k.less j d ∈ ((s.writeFailures k.asid d c.fails).updKernel serial fun _ => k.less j d).kernels :=
        mem_updBy_self (f := fun _ => k.less j d) still
      refine failures.trans (less.trans ?_)
      generalize (s.writeFailures k.asid d c.fails).updKernel serial (fun _ => k.less j d) = u at listed ⊢
      have report : Reported u (if d.reported then
          u.reportChild (k.less j d) j (if d.fails.isEmpty then .ok else .failed) else u) := by
        split
        · exact .reportChild _ _ listed rfl id
        · exact .refl u
      refine report.trans ?_
      generalize (if d.reported then
        u.reportChild (k.less j d) j (if d.fails.isEmpty then .ok else .failed) else u) = w
      split
      · exact .of_kernels fun x hx => ⟨x, (dropBy_sublist _).subset hx, rfl, id⟩
      · exact .refl _

end Sys2Proof.Machine
end

section
/-! A crew that fails (R86): what it leaves of the crews, the gangs, the contexts and memory. -/

namespace Sys2Proof.Machine

open Sys2Proof
open Sys2Proof.Safety

/-! ### Gangs by name -/

/-- Two records of a gang with the same trap registers. -/
def sameTrap (g h : Gang) : Prop := h.trapInfo = g.trapInfo ∧ h.trapPc = g.trapPc ∧ h.trapCause = g.trapCause

theorem gang_mapGangs (s : State) {f : Gang → Gang} (ref : ∀ g, (f g).ref = g.ref)
    (there : ∀ g, g.status ≠ .absent → (f g).status ≠ .absent) (r : GangRef) :
    (s.mapGangs f).gang r = (s.gang r).map f := by
  have all : (s.mapGangs f).allGangs = s.allGangs.map f := by
    by_cases absent : s.g.status = .absent
    · simp [State.allGangs, State.mapGangs, absent]
    · simp [State.allGangs, State.mapGangs, absent, there]
  simp only [State.gang, all, findBy_eq_find?, List.find?_map]
  congr 2
  funext g
  simp [ref]

theorem gang_dropGangs {s : State} {id : Nat} {r : GangRef} {g : Gang} (h : (s.dropGangs id).gang r = some g) :
    s.gang r = some g := by
  have all : (s.dropGangs id).allGangs = s.allGangs.filter fun g => g.ref.crew != id := by
    by_cases mine : s.g.ref.crew = id
    · by_cases absent : s.g.status = .absent <;> simp [State.allGangs, State.dropGangs, mine, absent, Gang.empty]
    · by_cases absent : s.g.status = .absent <;> simp [State.allGangs, State.dropGangs, mine, absent]
  simp only [State.gang, all, findBy_eq_find?, List.find?_filter] at h ⊢
  have found := List.find?_some h
  simp only [decide_eq_true_eq, bne_iff_ne, beq_iff_eq] at found
  obtain ⟨other, rfl⟩ := found
  rw [← h]
  congr 1
  funext x
  by_cases hx : x.ref = g.ref <;> simp [hx, other]

/-! ### A crew that fails -/

/-- What the end of crews changes. -/
structure WorkEnded (s t : State) : Prop extends Reports s t where
  frame : t = { homed s t with
    ctxs := t.ctxs, tlb := t.tlb, kernels := t.kernels, crews := t.crews, copies := t.copies, cores := t.cores,
    focus := t.focus, g := t.g, gangs := t.gangs, shadows := t.shadows }
  gangs : ∀ r g', t.gang r = some g' → ∃ g, s.gang r = some g ∧ sameTrap g g'

theorem WorkEnded.refl (s : State) : WorkEnded s s :=
  ⟨.of_same rfl rfl fun _ => rfl, rfl, fun _ g h => ⟨g, h, rfl, rfl, rfl⟩⟩

theorem WorkEnded.trans {s t u : State} (h : WorkEnded s t) (h' : WorkEnded t u) : WorkEnded s u where
  toReports := h.toReports.trans h'.toReports
  frame := by rw [h'.frame, h.frame]; rfl
  gangs r g2 h2 := by
    obtain ⟨g1, h1, a1, b1, c1⟩ := h'.gangs r g2 h2
    obtain ⟨g, hg, a, b, c⟩ := h.gangs r g1 h1
    exact ⟨g, hg, a1.trans a, b1.trans b, c1.trans c⟩

theorem WorkEnded.of_reported {s t : State} (h : Reported s t) : WorkEnded s t where
  toReports := h.toReports
  frame := by rw [h.frame]; rfl
  gangs r g hg := ⟨g, by rw [h.frame] at hg; exact hg, rfl, rfl, rfl⟩

/-- A crew as it fails (R86). -/
def failed (cause now : Nat) (c : Crew) : Crew :=
  { c with state := .failing, cause := cause, failAt := now, pages := c.pages.map Page.endStep,
           version := { c.version with held := [], bad := [], direct := [], opened := false } }

/-- The state once a crew has failed and its gangs have stopped, before it is settled. -/
def State.crewStopped (s : State) (id cause : Nat) : State :=
  let versioned := match s.crew id with
    | some c => c.version.versioned
    | none => false
  let t := s.updCrew id (failed cause s.cycle)
  let t := if versioned then
      { t with copies := t.copies.map fun c => if c.gang.crew == id then { c with void := true } else c }
    else t
  let t := t.mapGangs fun g => if g.ref.crew == id then g.stop else g
  { t with cores := t.cores.map fun (c : Core) =>
    ({ c with grants := c.grants.filter fun x => x.gang.crew != id } : Core) }

theorem failCrew_eq (s : State) (id : Nat) {cause : Nat} (h : cause ≠ Cause.sdc.code) :
    s.failCrew id cause = (s.crewStopped id cause).settleCrew id := by
  have other : (cause == Cause.sdc.code) = false := by simpa using h
  unfold State.failCrew State.crewStopped
  simp only [other]
  rfl

/-- What stops the gangs of a crew. -/
def stopOf (id : Nat) (g : Gang) : Gang := if g.ref.crew == id then g.stop else g

theorem crewStopped_eq (s : State) (id cause : Nat) : s.crewStopped id cause = { s.mapGangs (stopOf id) with
    crews := updBy (fun c => c.id == id) (failed cause s.cycle) s.crews, copies := (s.crewStopped id cause).copies,
    cores := (s.crewStopped id cause).cores } := by
  unfold State.crewStopped
  dsimp only
  split <;> split <;> rfl

theorem gang_crewStopped (s : State) (id cause : Nat) (r : GangRef) :
    (s.crewStopped id cause).gang r = (s.gang r).map (stopOf id) := by
  rw [← gang_mapGangs s (f := stopOf id) (fun g => by unfold stopOf; split <;> rfl) fun g hg => by
    unfold stopOf
    split
    · simp [Gang.stop]
    · exact hg]
  rw [crewStopped_eq]
  rfl

theorem WorkEnded.crewStopped (s : State) (id cause : Nat) : WorkEnded s (s.crewStopped id cause) where
  toReports := by rw [crewStopped_eq]; exact .of_same rfl rfl fun _ => rfl
  frame := by rw [crewStopped_eq]; rfl
  gangs r g' h := by
    rw [gang_crewStopped] at h
    obtain ⟨g, hg, rfl⟩ := Option.map_eq_some_iff.mp h
    refine ⟨g, hg, ?_⟩
    unfold stopOf
    split <;> exact ⟨rfl, rfl, rfl⟩

theorem crew_crewStopped (s : State) (id cause n : Nat) :
    (s.crewStopped id cause).crew n = if n = id then (s.crew id).map (failed cause s.cycle) else s.crew n := by
  rw [crewStopped_eq]
  exact findBy_updBy (key := Crew.id) (f := failed cause s.cycle) (fun _ => rfl) id n s.crews

/-- The state once a crew is gone, before it is counted. -/
def State.crewGone (s : State) (id : Nat) : State :=
  { s.dropGangs id with
    crews := dropBy (fun x => x.id == id) s.crews, copies := s.copies.filter fun x => x.gang.crew != id }

theorem WorkEnded.crewGone (s : State) (id : Nat) : WorkEnded s (s.crewGone id) where
  toReports := .of_same rfl rfl fun _ => rfl
  frame := rfl
  gangs _ g h := ⟨g, gang_dropGangs h, rfl, rfl, rfl⟩

/-- A crew that is DONE is gone, and reported (R79, R86); one without its kernel stays. -/
theorem crewDone_cases (s : State) (id : Nat) (counted : Bool) :
    s.crewDone id counted = s ∨ Reported (s.crewGone id) (s.crewDone id counted) := by
  unfold State.crewDone
  split
  · right
    dsimp only
    cases counted
    · exact .refl _
    · exact .countCrew (s.crewGone id) ..
  · exact .inl rfl

/-- A crew that fails stops; it stays, or is gone and reported (R86). -/
theorem failCrew_cases (s : State) (id : Nat) {cause : Nat} (h : cause ≠ Cause.sdc.code) :
    s.failCrew id cause = s.crewStopped id cause ∨ Reported ((s.crewStopped id cause).crewGone id) (s.failCrew id cause) := by
  rw [failCrew_eq s id h]
  unfold State.settleCrew
  split
  next c found =>
    have failing : c.state = .failing := by
      rw [crew_crewStopped, if_pos rfl] at found
      obtain ⟨_, _, rfl⟩ := Option.map_eq_some_iff.mp found
      rfl
    split
    · exact crewDone_cases ..
    · simp [failing]
  next => exact .inl rfl

theorem findBy_dropBy_same {α β : Type} [BEq β] [LawfulBEq β] {key : α → β} {n : β} : ∀ {l : List α}, (l.map key).Nodup →
    findBy (fun x => key x == n) (dropBy (fun x => key x == n) l) = none
  | [], _ => rfl
  | x :: rest, h => by
    obtain ⟨hx, hrest⟩ := List.nodup_cons.mp h
    by_cases e : key x = n
    · simp only [dropBy, e, beq_self_eq_true, if_true]
      refine findBy_eq_none.mpr fun y hy => ?_
      have : key y ≠ n := fun same => hx (e ▸ same ▸ List.mem_map_of_mem hy)
      simpa using this
    · simpa [dropBy, findBy, e] using findBy_dropBy_same hrest

theorem findBy_dropBy_ne {α : Type} {key : α → Nat} {m n : Nat} (h : n ≠ m) : ∀ l : List α,
    findBy (fun x => key x == n) (dropBy (fun x => key x == m) l) = findBy (fun x => key x == n) l
  | [] => rfl
  | x :: rest => by
    by_cases e : key x = m
    · simp [dropBy, findBy, e, Ne.symm h]
    · by_cases e' : key x = n
      · simp [dropBy, findBy, e', h]
      · simpa [dropBy, findBy, e, e'] using findBy_dropBy_ne h rest

/-- One crew has failed (R86): it stays, failing since this cycle with the cause, or is gone; the others are as before. -/
structure CrewFailed (s t : State) (id cause : Nat) : Prop extends WorkEnded s t where
  nodup : (t.crews.map Crew.id).Nodup
  other : ∀ n, n ≠ id → t.crew n = s.crew n
  own : ∀ y, t.crew id = some y → y.state = .failing ∧ y.cause = cause ∧ y.failAt = s.cycle

theorem CrewFailed.failCrew {s : State} (id : Nat) {cause : Nat} (h : cause ≠ Cause.sdc.code)
    (nodup : (s.crews.map Crew.id).Nodup) : CrewFailed s (s.failCrew id cause) id cause := by
  have stopped : CrewFailed s (s.crewStopped id cause) id cause := {
    toWorkEnded := .crewStopped s id cause
    nodup := by
      rw [crewStopped_eq]
      show ((updBy (fun c => c.id == id) (failed cause s.cycle) s.crews).map Crew.id).Nodup
      rwa [map_updBy (key := Crew.id) (f := failed cause s.cycle) fun _ => rfl]
    other := fun n hn => by rw [crew_crewStopped, if_neg hn]
    own := fun y hy => by
      rw [crew_crewStopped, if_pos rfl] at hy
      obtain ⟨_, _, rfl⟩ := Option.map_eq_some_iff.mp hy
      exact ⟨rfl, rfl, rfl⟩ }
  obtain same | reported := failCrew_cases s id h
  · rw [same]
    exact stopped
  · have crews : (s.failCrew id cause).crews = dropBy (fun x => x.id == id) (s.crewStopped id cause).crews := by
      rw [reported.frame]
      rfl
    exact {
      toWorkEnded := stopped.toWorkEnded.trans ((WorkEnded.crewGone _ id).trans (.of_reported reported))
      nodup := crews ▸ stopped.nodup.sublist ((dropBy_sublist _).map _)
      other := fun n hn => by
        rw [← stopped.other n hn, State.crew, crews]
        exact findBy_dropBy_ne (key := Crew.id) hn _
      own := fun y hy => by
        rw [State.crew, crews, findBy_dropBy_same (key := Crew.id) stopped.nodup] at hy
        cases hy }

/-- Crews have failed, as `CrewFailed` says of one. -/
structure CrewsFailed (s t : State) (ids : List Nat) (cause : Nat) : Prop extends WorkEnded s t where
  nodup : (t.crews.map Crew.id).Nodup
  untouched : ∀ n, n ∉ ids → t.crew n = s.crew n
  own : ∀ n ∈ ids, ∀ y, t.crew n = some y → y.state = .failing ∧ y.cause = cause ∧ y.failAt = s.cycle

theorem CrewsFailed.failAll {cause : Nat} (h : cause ≠ Cause.sdc.code) : ∀ (l : List Crew) {s : State},
    (s.crews.map Crew.id).Nodup →
    CrewsFailed s (l.foldl (fun (s : State) x => s.failCrew x.id cause) s) (l.map Crew.id) cause
  | [], s, nodup => ⟨.refl s, nodup, fun _ _ => rfl, fun _ hn => nomatch hn⟩
  | x :: rest, s, nodup => by
    have first := CrewFailed.failCrew x.id h nodup
    have cycle : (s.failCrew x.id cause).cycle = s.cycle := by rw [first.frame]; rfl
    have after := CrewsFailed.failAll h rest first.nodup
    rw [List.foldl_cons, List.map_cons]
    exact {
      toWorkEnded := first.toWorkEnded.trans after.toWorkEnded
      nodup := after.nodup
      untouched := fun n hn => by
        obtain ⟨hx, hrest⟩ := not_or.mp (mt List.mem_cons.mpr hn)
        exact (after.untouched n hrest).trans (first.other n hx)
      own := fun n hn y hy => by
        by_cases later : n ∈ rest.map Crew.id
        · exact cycle ▸ after.own n later y hy
        · obtain rfl := (List.mem_cons.mp hn).resolve_right later
          exact first.own y (after.untouched _ later ▸ hy) }

end Sys2Proof.Machine
end

section
/-! A context that becomes FAULTED (R38, R39), and an invalidation whose time runs out (R49, R50). -/

namespace Sys2Proof.Machine

open Sys2Proof
open Sys2Proof.Safety

/-! ### Crews that have not ended -/

theorem mem_sortBy {α : Type} {key : α → Nat} {z : α} : ∀ {l : List α}, z ∈ sortBy key l ↔ z ∈ l
  | [] => Iff.rfl
  | x :: rest => by rw [sortBy, mem_insertBy, mem_sortBy, List.mem_cons]

theorem mem_liveCrews {s : State} {asid : Nat} {x : Crew} (h : x ∈ s.liveCrews asid) : x ∈ s.crews :=
  (List.mem_filter.mp (mem_sortBy.mp h)).1

/-- A listed entry is the one found by its key, where no two share it. -/
theorem findBy_of_nodup {α : Type} {key : α → Nat} {x : α} : ∀ {l : List α}, (l.map key).Nodup → x ∈ l →
    findBy (fun y => key y == key x) l = some x
  | y :: rest, h, hx => by
    obtain ⟨hy, hrest⟩ := List.nodup_cons.mp h
    obtain rfl | hx := List.mem_cons.mp hx
    · simp [findBy]
    · have : key y ≠ key x := fun same => hy (same ▸ List.mem_map_of_mem hx)
      simpa [findBy, this] using findBy_of_nodup hrest hx

/-! ### The fault record and the descriptor (R31, R39) -/

theorem homeBytes_append (s : State) (pa m n : Nat) :
    s.homeBytes pa (m + n) = s.homeBytes pa m ++ s.homeBytes (pa + m) n := by
  simp only [State.homeBytes, List.range_add, List.map_append, List.map_map]
  congr 2
  funext i
  simp [Nat.add_assoc]

theorem homeBytes_congr {s t : State} {pa n : Nat} (h : ∀ i < n, t.homeByte (pa + i) = s.homeByte (pa + i)) :
    t.homeBytes pa n = s.homeBytes pa n :=
  List.map_congr_left fun i hi => h i (List.mem_range.mp hi)

theorem homeBytes_writeHomeBytes_outside (s : State) {pa qa n : Nat} (bs : List Byte)
    (h : asunder qa bs.length pa n) : (s.writeHomeBytes qa bs).homeBytes pa n = s.homeBytes pa n :=
  homeBytes_congr fun i hi => homeByte_writeHomeBytes_outside s bs (by unfold asunder at h; omega)

theorem homeBytes_written {s : State} {pa n : Nat} {bs : List Byte} (len : bs.length = n) (h : stores s pa n) :
    (s.writeHomeBytes pa bs).homeBytes pa n = bs := by
  subst len
  exact homeBytes_writeHomeBytes h

theorem stores_part {s : State} {pa n : Nat} (h : stores s pa n) {o m : Nat} (le : o + m ≤ n) : stores s (pa + o) m :=
  fun i hi => by
    rw [Nat.add_assoc]
    exact h (o + i) (by omega)

theorem stores_homed {s t : State} (h : t = homed s t) {pa n : Nat} (hs : stores s pa n) : stores t pa n := fun i hi => by
  rw [regionOf_homed h]
  exact hs i hi

/-- The fault record and the cause in the descriptor written (R39). -/
def State.faultWritten (s : State) (c : Ctx) (f : FaultInfo) : State :=
  (s.writeHomeBytes c.faultRec (s.faultRecord c.asid f (s.liveCrews c.asid))).writeHomeBytes (c.desc + 0x64)
    (leBytes 4 f.cause.code)

/-- The context made FAULTED, and the state field of its descriptor written (R31). -/
def State.faultMarked (s : State) (c : Ctx) : State :=
  (s.updCtx c.asid fun c => { c with state := .faulted }).writeHomeBytes (c.desc + 0x60) (leBytes 4 5)

theorem faultWritten_homed (s : State) (c : Ctx) (f : FaultInfo) : s.faultWritten c f = homed s (s.faultWritten c f) :=
  homed_trans (writeHomeBytes_homed ..) (writeHomeBytes_homed ..)

theorem faultMarked_frame (s : State) (c : Ctx) : s.faultMarked c = { homed s (s.faultMarked c) with
    ctxs := updBy (fun x => x.asid == c.asid) (fun x => { x with state := .faulted }) s.ctxs } :=
  writeHomeBytes_homed (s.updCtx c.asid fun c => { c with state := .faulted }) _ _

/-- CONTEXT_FAULTED of an ACTIVE context (R38, R39). -/
theorem faultCtx_active {s : State} {c : Ctx} (f : FaultInfo) (there : s.ctx c.asid = some c) (active : c.state = .active) :
    s.faultCtx c.asid f = (s.liveCrews c.asid).foldl (fun (s : State) x => s.failCrew x.id f.cause.code)
      ((s.faultWritten c f).faultMarked c) := by
  have still : (s.faultWritten c f).ctx c.asid = some c := by
    rw [faultWritten_homed]
    exact there
  have marked : (s.faultWritten c f).setCtxState c.asid .faulted = (s.faultWritten c f).faultMarked c := by
    rw [State.setCtxState, still]
    rfl
  unfold State.faultCtx
  simp only [there, active]
  rw [← marked]
  rfl

theorem homeBytes_faultMarked (s : State) {c : Ctx} {pa n : Nat} (h : asunder (c.desc + 0x60) 4 pa n) :
    (s.faultMarked c).homeBytes pa n = s.homeBytes pa n := by
  rw [State.faultMarked, homeBytes_writeHomeBytes_outside _ _ (by rwa [leBytes_length])]
  rfl

/-- What memory holds of a fault: the state field and the cause of the descriptor, and the record (R31, R39). -/
theorem faultMarked_memory {s : State} {c : Ctx} (f : FaultInfo) (field : stores s (c.desc + 0x60) 8)
    (place : stores s c.faultRec 64) (apart : asunder (c.desc + 0x60) 8 c.faultRec 64) :
    ((s.faultWritten c f).faultMarked c).homeBytes (c.desc + 0x60) 8 = leBytes 4 5 ++ leBytes 4 f.cause.code ∧
      ((s.faultWritten c f).faultMarked c).homeBytes c.faultRec 64 =
        s.faultRecord c.asid f (s.liveCrews c.asid) := by
  have whole : (s.faultRecord c.asid f (s.liveCrews c.asid)).length = 64 := by
    simp [State.faultRecord, leBytes_length]
  have written := faultWritten_homed s c f
  have lower : stores (s.faultWritten c f) (c.desc + 0x60) 4 :=
    stores_homed written fun i hi => field i (by omega)
  have upper : stores (s.writeHomeBytes c.faultRec (s.faultRecord c.asid f (s.liveCrews c.asid))) (c.desc + 0x64) 4 :=
    stores_homed (writeHomeBytes_homed ..) (stores_part field (o := 4) (by omega))
  have offField : asunder (c.desc + 0x60) 4 c.faultRec 64 := by unfold asunder at *; omega
  have offCause : asunder (c.desc + 0x64) (leBytes 4 f.cause.code).length c.faultRec 64 := by
    rw [leBytes_length]
    unfold asunder at *
    omega
  have low : ((s.faultWritten c f).faultMarked c).homeBytes (c.desc + 0x60) 4 = leBytes 4 5 :=
    homeBytes_written (s := (s.faultWritten c f).updCtx c.asid fun c => { c with state := .faulted })
      (leBytes_length ..) lower
  have high : ((s.faultWritten c f).faultMarked c).homeBytes (c.desc + 0x64) 4 = leBytes 4 f.cause.code := by
    rw [homeBytes_faultMarked _ (by unfold asunder; omega)]
    exact homeBytes_written (leBytes_length ..) upper
  refine ⟨?_, ?_⟩
  · rw [homeBytes_append _ _ 4 4, low, high]
  · rw [homeBytes_faultMarked _ offField, State.faultWritten, homeBytes_writeHomeBytes_outside _ _ offCause]
    exact homeBytes_written whole place

/-- What the record of a fault holds (R39): its first crew is that of the lowest place among those that had not ended. -/
theorem faultRecord_eq (s : State) (c : Ctx) (f : FaultInfo) : ∃ first rec,
    s.faultRecord c.asid f (s.liveCrews c.asid) = leBytes 1 f.kind ++ leBytes 1 f.cause.code ++ leBytes 2 c.asid ++
      leBytes 4 (s.liveCrews c.asid).length ++ leBytes 8 f.address ++ leBytes 4 first ++ leBytes 4 0 ++ leBytes 8 rec ++
      leBytes 4 f.agents ++ leBytes 1 f.die ++ leBytes 3 0 ++ leBytes 8 s.heartbeat.toNat ++ leBytes 16 0 ∧
    (match s.liveCrews c.asid with
     | [] => first = 0xFFFFFFFF ∧ rec = 0
     | x :: _ => ∀ k, s.kernel x.kernel = some k → first = x.global k ∧ rec = k.recAddr) := by
  refine ⟨_, _, rfl, ?_⟩
  cases s.liveCrews c.asid with
  | nil => exact ⟨rfl, rfl⟩
  | cons x rest =>
    intro k hk
    simp only [List.head?_cons, hk, and_self]

theorem faultMarked_written (s : State) (c : Ctx) (f : FaultInfo) :
    (s.faultWritten c f).faultMarked c = { homed s ((s.faultWritten c f).faultMarked c) with
      ctxs := updBy (fun x => x.asid == c.asid) (fun x => { x with state := .faulted }) s.ctxs } := by
  have first := faultWritten_homed s c f
  have second := faultMarked_frame (s.faultWritten c f) c
  generalize s.faultWritten c f = u at first second
  rw [second, first]
  rfl

/-- The contexts as a fault marks them. -/
theorem ctx_faulted {s u : State} {c : Ctx}
    (h : u.ctxs = updBy (fun x => x.asid == c.asid) (fun x => { x with state := .faulted }) s.ctxs) (n : Nat) :
    u.ctx n = if n = c.asid then (s.ctx c.asid).map (fun x => { x with state := .faulted }) else s.ctx n := by
  rw [State.ctx, h]
  exact findBy_updBy (key := Ctx.asid) (f := fun x => { x with state := .faulted }) (fun _ => rfl) c.asid n s.ctxs

/-- Where crews are listed under one name each, one that has not ended shares its name with no other. -/
theorem liveCrews_id {s : State} {asid : Nat} {x : Crew} (nodup : (s.crews.map Crew.id).Nodup) (hx : x ∈ s.crews)
    (h : x.id ∈ (s.liveCrews asid).map Crew.id) : x ∈ s.liveCrews asid := by
  obtain ⟨y, hy, same⟩ := List.mem_map.mp h
  have one := findBy_of_nodup nodup (mem_liveCrews hy)
  rw [same, findBy_of_nodup nodup hx] at one
  exact Option.some.inj one ▸ hy

/-- A fault of an ACTIVE context, and what of the rest it leaves (R36, R38, R39). -/
theorem faultCtx_faults {s : State} {c : Ctx} (f : FaultInfo) (there : s.ctx c.asid = some c) (active : c.state = .active)
    (cause : f.cause.code ≠ Cause.sdc.code) (nodup : (s.crews.map Crew.id).Nodup) :
    faults s (s.faultCtx c.asid f) c f.kind f.cause.code f.address f.agents f.die ∧
      (s.faultCtx c.asid f).tlbis = s.tlbis ∧ (s.faultCtx c.asid f).cp = s.cp ∧
      ∀ r g', (s.faultCtx c.asid f).gang r = some g' → ∃ g, s.gang r = some g ∧ sameTrap g g' := by
  have memory := faultMarked_memory (s := s) (c := c) f
  have frame := faultMarked_written s c f
  rw [faultCtx_active f there active]
  generalize (s.faultWritten c f).faultMarked c = u at memory frame ⊢
  have ctx := ctx_faulted (s := s) (u := u) (c := c) (by rw [frame])
  have crews : u.crews = s.crews := by rw [frame]; rfl
  have crew (n : Nat) : u.crew n = s.crew n := by rw [State.crew, crews]; rfl
  have kernels : u.kernels = s.kernels := by rw [frame]; rfl
  have cycle : u.cycle = s.cycle := by rw [frame]; rfl
  have tlbis : u.tlbis = s.tlbis := by rw [frame]; rfl
  have cp : u.cp = s.cp := by rw [frame]; rfl
  have gang (r : GangRef) : u.gang r = s.gang r := by rw [frame]; rfl
  have all := CrewsFailed.failAll cause (s.liveCrews c.asid) (s := u) (crews ▸ nodup)
  generalize (s.liveCrews c.asid).foldl (fun (s : State) x => s.failCrew x.id f.cause.code) u = t at all ⊢
  refine ⟨⟨?_, fun n hn free => ?_, fun x hx y hy => ?_, fun x hx dead => ?_, fun silent field place apart => ?_⟩,
    by rw [all.frame]; exact tlbis, by rw [all.frame]; exact cp, fun r g' h => gang r ▸ all.gangs r g' h⟩
  · obtain ⟨d, hd, same⟩ := all.ctxs c.asid { c with state := .faulted } (by rw [ctx, if_pos rfl, there]; rfl)
    exact ⟨d, hd, same⟩
  · rw [all.others n (kernels ▸ free), ctx, if_neg hn]
  · exact cycle ▸ all.own x.id (List.mem_map_of_mem hx) y hy
  · rw [all.untouched x.id (mt (liveCrews_id nodup hx) dead), crew]
    exact findBy_of_nodup nodup hx
  · have same (pa n : Nat) : t.homeBytes pa n = u.homeBytes pa n :=
      homeBytes_congr fun i _ => all.memory (kernels ▸ silent) _
    obtain ⟨low, record⟩ := memory field place apart
    obtain ⟨first, rec, written, which⟩ := faultRecord_eq s c f
    rw [same, same]
    exact ⟨low, first, rec, record.trans written, which⟩

end Sys2Proof.Machine
end

section
/-! An invalidation whose time runs out (R49, R50), and the statements about invalidations put together. -/

namespace Sys2Proof.Machine

open Sys2Proof
open Sys2Proof.Safety

/-! ### The turn given to a gang and back -/

theorem mem_putAside {g x : Gang} {l : List Gang} : x ∈ putAside g l ↔ (x = g ∧ g.status ≠ .absent) ∨ x ∈ l := by
  unfold putAside
  by_cases absent : g.status = .absent
  · simp [absent]
  · simp [absent, mem_insertBy]

theorem mem_allGangs {s : State} {x : Gang} : x ∈ s.allGangs ↔ (x = s.g ∧ s.g.status ≠ .absent) ∨ x ∈ s.gangs := by
  unfold State.allGangs
  by_cases absent : s.g.status = .absent <;> simp [absent]

theorem bring_frame (s : State) (r : GangRef) :
    s.bring r = { s with g := (s.bring r).g, gangs := (s.bring r).gangs } := by
  unfold State.bring
  split
  · rfl
  · split <;> rfl

/-- Giving the turn to a gang brings no gang that was not there. -/
theorem mem_bring {s : State} {r : GangRef} {x : Gang} (h : x ∈ (s.bring r).allGangs) : x ∈ s.allGangs := by
  unfold State.bring at h
  split at h
  · exact h
  · split at h
    · exact h
    next y found =>
      rw [mem_allGangs] at h ⊢
      obtain ⟨rfl, -⟩ | h := h
      · exact .inr (findBy_mem found).1
      · obtain h | h := mem_putAside.mp h
        · exact .inl h
        · exact .inr ((dropBy_sublist _).subset h)

/-- The gang given the turn, alone with its name. -/
theorem bring_gang {s : State} {r : GangRef} {g : Gang} (found : s.gang r = some g)
    (nodup : (s.allGangs.map Gang.ref).Nodup) : (s.bring r).g = g ∧ ∀ x ∈ (s.bring r).gangs, x.ref ≠ r := by
  by_cases mine : s.g.ref = r ∧ s.g.status ≠ .absent
  · obtain ⟨rfl, there⟩ := mine
    have all : s.allGangs = s.g :: s.gangs := by simp [State.allGangs, there]
    have same : s.bring s.g.ref = s := by simp [State.bring, there]
    rw [all] at nodup
    rw [State.gang, all] at found
    obtain ⟨alone, -⟩ := List.nodup_cons.mp nodup
    rw [same]
    exact ⟨by simpa [findBy] using found, fun x hx e => alone (e ▸ List.mem_map_of_mem hx)⟩
  · obtain ⟨first, once⟩ : findBy (fun g => g.ref == r) s.gangs = some g ∧ (s.gangs.map Gang.ref).Nodup := by
      by_cases absent : s.g.status = .absent
      · have all : s.allGangs = s.gangs := by simp [State.allGangs, absent]
        rw [all] at nodup
        rw [State.gang, all] at found
        exact ⟨found, nodup⟩
      · have all : s.allGangs = s.g :: s.gangs := by simp [State.allGangs, absent]
        have other : s.g.ref ≠ r := fun e => mine ⟨e, absent⟩
        rw [all] at nodup
        rw [State.gang, all] at found
        exact ⟨by simpa [findBy, other] using found, (List.nodup_cons.mp nodup).2⟩
    have moved : s.bring r = { s with g := g, gangs := putAside s.g (dropBy (fun g => g.ref == r) s.gangs) } := by
      have not : (s.g.ref == r && s.g.status != .absent) = false := by simpa using mine
      simp only [State.bring, not, first]
      rfl
    rw [moved]
    refine ⟨rfl, fun x hx => ?_⟩
    obtain ⟨rfl, there⟩ | hx := mem_putAside.mp hx
    · exact fun e => mine ⟨e, there⟩
    · have gone := findBy_eq_none.mp (findBy_dropBy_same (key := Gang.ref) (n := r) once) x hx
      simpa using gone

/-! ### The waiting gang (R49) -/

theorem onGang_frame {s : State} {r : GangRef} {f : State → State}
    (hf : ∀ u, f u = { u with g := (f u).g, gangs := (f u).gangs }) :
    s.onGang r f = { s with g := (s.onGang r f).g, gangs := (s.onGang r f).gangs } := by
  unfold State.onGang
  split
  · have first := bring_frame s r
    have step := hf (s.bring r)
    have back := bring_frame (f (s.bring r)) s.g.ref
    generalize s.bring r = u at first step back ⊢
    generalize f u = v at step back ⊢
    rw [back, step, first]
  · rfl

theorem tlbiTrap_frame (s : State) (x : Tlbi) (m : BitVec 17) :
    s.tlbiTrap x m = { s with g := (s.tlbiTrap x m).g, gangs := (s.tlbiTrap x m).gangs } := by
  unfold State.tlbiTrap
  split
  · rfl
  · exact onGang_frame fun u => by split <;> rfl

/-- The gang that waits for an invalidation whose time has run out records UE with the agents that are missing. -/
theorem tlbiTrap_records {s : State} {x : Tlbi} {m : BitVec 17} {r : GangRef} {g g' : Gang} (gang : x.gang = some r)
    (found : s.gang r = some g) (waits : g.wait = some (.tlbi x.id)) (nodup : (s.allGangs.map Gang.ref).Nodup)
    (after : (s.tlbiTrap x m).gang r = some g') : g' = g.recordTrap false .ue (m.setWidth 64) := by
  obtain ⟨turn, others⟩ := bring_gang found nodup
  have run : s.tlbiTrap x m =
      State.bring { s.bring r with g := g.recordTrap false .ue (m.setWidth 64) } s.g.ref := by
    simp [State.tlbiTrap, gang, State.onGang, found, turn, waits]
  rw [run] at after
  obtain ⟨there, named⟩ := findBy_mem after
  obtain ⟨rfl, -⟩ | there := mem_allGangs.mp (mem_bring there)
  · rfl
  · exact absurd (by simpa using named) (others g' there)

/-! ### TLBI_TIMEOUT (R49, R50) -/

/-- The sum of the powers of two of some numbers below n has the bits of those numbers. -/
theorem sumNat_powers (p : Nat → Bool) : ∀ n,
    sumNat (((List.range n).filter p).map fun a => 2 ^ a) < 2 ^ n ∧
      ∀ i, (sumNat (((List.range n).filter p).map fun a => 2 ^ a)).testBit i = (decide (i < n) && p i)
  | 0 => ⟨by simp [sumNat], fun i => by simp [sumNat]⟩
  | n + 1 => by
    obtain ⟨small, bits⟩ := sumNat_powers p n
    have step : sumNat (((List.range (n + 1)).filter p).map fun a => 2 ^ a) =
        (if p n then 2 ^ n else 0) + sumNat (((List.range n).filter p).map fun a => 2 ^ a) := by
      by_cases hp : p n = true <;> simp [sumNat, List.range_succ, hp, Nat.add_comm]
    rw [step]
    generalize sumNat (((List.range n).filter p).map fun a => 2 ^ a) = v at small bits ⊢
    have bound : (if p n then 2 ^ n else 0) + v < 2 ^ (n + 1) := by
      rw [Nat.pow_succ]
      split <;> omega
    refine ⟨bound, fun i => ?_⟩
    obtain lt | rfl | gt := Nat.lt_trichotomy i n
    · have : i < n + 1 := by omega
      split
      · rw [Nat.testBit_two_pow_add_gt lt, bits]
        simp [lt, this]
      · rw [Nat.zero_add, bits]
        simp [lt, this]
    · have top : v.testBit i = false := Nat.testBit_lt_two_pow small
      split
      next h => rw [Nat.testBit_two_pow_add_eq, top]; simp [h]
      next h => rw [Nat.zero_add, top]; simp [h]
    · have above : ¬ i < n + 1 := by omega
      have : 2 ^ (n + 1) ≤ 2 ^ i := Nat.pow_le_pow_right (by omega) (by omega)
      rw [Nat.testBit_lt_two_pow (by omega)]
      simp [above]

/-- The mask of the agents that have not acknowledged (R49). -/
theorem missing_eq {x : Tlbi} {m : BitVec 17} (h : ∀ a < 17, m.getLsbD a = true ↔ a ∉ x.acked) : x.missing = m := by
  refine BitVec.eq_of_getLsbD_eq fun i hi => ?_
  have bit := (sumNat_powers (fun a => !x.acked.contains a) 17).2 i
  rw [Tlbi.missing, BitVec.getLsbD_ofNat]
  simp only [tlbiAgents, bit, hi, decide_true, Bool.true_and]
  rw [Bool.eq_iff_iff, h i hi]
  simp

/-- What TLBI_TIMEOUT first makes of an invalidation whose time has run out. -/
def State.timedOut (s : State) (id : Nat) (x : Tlbi) (m : BitVec 17) : State :=
  if x.port then
    { s with tlbis := dropBy (fun (y : Tlbi) => y.id == id) s.tlbis,
             cp := { s.cp with tlbiBusy := false, tlbiCode := 2, tlbiMissing := m } }
  else
    { s with tlbis := updBy (fun (y : Tlbi) => y.id == id) (fun y => { y with failed := some m }) s.tlbis }

theorem timedOut_frame (s : State) (id : Nat) (x : Tlbi) (m : BitVec 17) : s.timedOut id x m =
    { s with tlbis := (s.timedOut id x m).tlbis, cp := (s.timedOut id x m).cp } := by
  unfold State.timedOut
  split <;> rfl

theorem exec_tlbiTimeout {s : State} {id : Nat} {x : Tlbi} (listed : findBy (fun (t : Tlbi) => t.id == id) s.tlbis = some x) :
    exec (.tlbiTimeout id) s = .next
      (if x.failed ≠ none ∨ x.acked.length = 17 ∨ s.cycle < x.start + 1000000 then s
      else if s.ctxActive x.asid = true then
        ((s.timedOut id x x.missing).tlbiTrap x x.missing).faultCtx x.asid
          { kind := 3, cause := .ue, address := 0, agents := x.missing.toNat, die := 20 }
      else s.timedOut id x x.missing) := by
  have early : (x.failed.isSome || x.acked.length == 17 || decide (s.cycle < x.start + 1000000)) = true ↔
      x.failed ≠ none ∨ x.acked.length = 17 ∨ s.cycle < x.start + 1000000 := by
    simp [or_assoc, Option.isSome_iff_ne_none]
  have active : (s.timedOut id x x.missing).ctxActive x.asid = s.ctxActive x.asid := by
    rw [timedOut_frame]
    rfl
  show execTlbiTimeout id s = _
  unfold execTlbiTimeout
  simp only [listed]
  by_cases idle : x.failed ≠ none ∨ x.acked.length = 17 ∨ s.cycle < x.start + 1000000
  · rw [if_pos idle, if_pos (early.mpr idle)]
  · rw [if_neg idle, if_neg (mt early.mp idle), ← active]
    rfl

theorem trapCause_code (level : Level) : (trapCauseWord level false .ue).toNat % 256 = 16 := by
  cases level <;> decide

/-- A timeout of an ACTIVE context faults it, and the gang that waits records UE (R49). -/
theorem tlbiTimeout_faults {s t : State} {id : Nat} {x : Tlbi} {m : BitVec 17} {c : Ctx} (there : s.ctx x.asid = some c)
    (active : c.state = .active) (crews : (s.crews.map Crew.id).Nodup) (gangs : (s.allGangs.map Gang.ref).Nodup)
    (run : t = ((s.timedOut id x m).tlbiTrap x m).faultCtx x.asid
      { kind := 3, cause := .ue, address := 0, agents := m.toNat, die := 20 }) :
    t.tlbis = (s.timedOut id x m).tlbis ∧ t.cp = (s.timedOut id x m).cp ∧ faults s t c 3 16 0 m.toNat 20 ∧
      ∀ r g g', x.gang = some r → s.gang r = some g → g.wait = some (.tlbi x.id) → t.gang r = some g' →
        g'.trapInfo = m.setWidth 64 ∧ g'.trapPc = g.pc ∧ g'.trapCause.toNat % 256 = 16 := by
  have same : c.asid = x.asid := by simpa using (findBy_mem there).2
  have frame : (s.timedOut id x m).tlbiTrap x m = { s with
      tlbis := (s.timedOut id x m).tlbis, cp := (s.timedOut id x m).cp,
      g := ((s.timedOut id x m).tlbiTrap x m).g, gangs := ((s.timedOut id x m).tlbiTrap x m).gangs } := by
    have first := timedOut_frame s id x m
    have second := tlbiTrap_frame (s.timedOut id x m) x m
    generalize s.timedOut id x m = u at first second ⊢
    rw [second, first]
  have records {r : GangRef} {g g' : Gang} (gang : x.gang = some r) (found : s.gang r = some g)
      (waits : g.wait = some (.tlbi x.id)) (after : ((s.timedOut id x m).tlbiTrap x m).gang r = some g') :
      g' = g.recordTrap false .ue (m.setWidth 64) :=
    tlbiTrap_records gang (by rw [timedOut_frame]; exact found) waits (by rw [timedOut_frame]; exact gangs) after
  generalize (s.timedOut id x m).tlbiTrap x m = v at frame records run
  have faulted : faults v t c 3 16 0 m.toNat 20 ∧ t.tlbis = v.tlbis ∧ t.cp = v.cp ∧
      ∀ r g', t.gang r = some g' → ∃ g, v.gang r = some g ∧ sameTrap g g' := by
    have all := faultCtx_faults (s := v) (c := c)
      { kind := 3, cause := .ue, address := 0, agents := m.toNat, die := 20 }
      (by rw [frame, same]; exact there) active (show Cause.ue.code ≠ Cause.sdc.code by decide)
      (by rw [frame]; exact crews)
    rw [same, ← run] at all
    exact all
  obtain ⟨fault, tlbis, cp, gang⟩ := faulted
  have before : faults s t c 3 16 0 m.toNat 20 := by
    rw [frame] at fault
    exact fault
  refine ⟨by rw [tlbis, frame], by rw [cp, frame], before, fun r g g' named found waits after => ?_⟩
  obtain ⟨g1, stopped, info, pc, cause⟩ := gang r g' after
  obtain rfl := records named found waits stopped
  exact ⟨info, pc, cause ▸ trapCause_code g.level⟩

/-- TLBI_TIMEOUT (R38, R39, R49, R50). -/
theorem tlbiTimeout_settled (s : State) (id : Nat) (x : Tlbi) (m : BitVec 17)
    (listed : findBy (fun (t : Tlbi) => t.id == id) s.tlbis = some x) (mask : ∀ a < 17, m.getLsbD a = true ↔ a ∉ x.acked) :
    ((x.failed ≠ none ∨ x.acked.length = 17 ∨ s.cycle < x.start + 1000000) → exec (.tlbiTimeout id) s = .next s) ∧
    (x.failed = none → x.acked.length ≠ 17 → x.start + 1000000 ≤ s.cycle →
      (s.ctxActive x.asid = false → exec (.tlbiTimeout id) s = .next (s.timedOut id x m)) ∧
      ∀ c, s.ctx x.asid = some c → c.state = .active → c.destroying = false → (s.crews.map Crew.id).Nodup →
        (s.allGangs.map Gang.ref).Nodup →
        ∃ t, exec (.tlbiTimeout id) s = .next t ∧ t.tlbis = (s.timedOut id x m).tlbis ∧
          t.cp = (s.timedOut id x m).cp ∧ faults s t c 3 16 0 m.toNat 20 ∧
          ∀ r g g', x.gang = some r → s.gang r = some g → g.wait = some (.tlbi x.id) → t.gang r = some g' →
            g'.trapInfo = m.setWidth 64 ∧ g'.trapPc = g.pc ∧ g'.trapCause.toNat % 256 = 16) := by
  rw [exec_tlbiTimeout listed, missing_eq mask]
  refine ⟨fun idle => by rw [if_pos idle], fun waits short late => ?_⟩
  have due : ¬(x.failed ≠ none ∨ x.acked.length = 17 ∨ s.cycle < x.start + 1000000) := by
    simp [waits, short, late]
  rw [if_neg due]
  refine ⟨fun off => by rw [if_neg (by simp [off])], fun c there active destroying crews gangs => ?_⟩
  have on : s.ctxActive x.asid = true := by simp [State.ctxActive, there, active, destroying]
  rw [if_pos on]
  exact ⟨_, rfl, tlbiTimeout_faults there active crews gangs rfl⟩

/-- CPTLBI_PAGE and CPTLBI_ALL (R50). -/
theorem cptlbi_settled : ∀ e ∈ [(Instr.cptlbiPage, false), (Instr.cptlbiAll, true)],
    ∀ (lvl : HostLevel) (asid : BitVec 12) (s : State),
    exec (e.1 .u asid) s = .next { s with reply := .fault } ∧ (lvl ≠ .u →
    (s.cp.tlbiBusy = true → exec (e.1 lvl asid) s = .next { s with cp := { s.cp with tlbiOverrun := true } }) ∧
    (s.cp.tlbiBusy = false →
      let u : State := { s with cp := { s.cp with tlbiAsid := asid, tlbiMode := e.2 } }
      (((asid = 0 ∧ lvl = .s) ∨ (asid ≠ 0 ∧ s.ctx asid.toNat = none)) →
        exec (e.1 lvl asid) s = .next { u with cp := { u.cp with tlbiCode := 1 } }) ∧
      (((asid = 0 ∧ lvl = .m) ∨ (asid ≠ 0 ∧ s.ctx asid.toNat ≠ none)) →
        exec (e.1 lvl asid) s = .next { u with
          nextId := s.nextId + 1, cp := { u.cp with tlbiBusy := true },
          tlbis := s.tlbis ++ [{ id := s.nextId, asid := asid.toNat, all := e.2, va := s.cp.tlbiVa.toNat, acked := [],
                                 start := s.cycle, port := true, gang := none, failed := none }] }))) := by
  intro e he lvl asid s
  rw [exec_cptlbi e he, exec_cptlbi e he]
  refine ⟨rfl, fun hl => ?_⟩
  rw [cptlbi_eq hl]
  refine ⟨fun busy => by rw [if_pos busy], fun free => ?_⟩
  rw [if_neg (by simp [free])]
  refine ⟨fun none => by rw [if_pos none], fun some => ?_⟩
  have accepted : ¬((asid = 0 ∧ lvl = .s) ∨ (asid ≠ 0 ∧ s.ctx asid.toNat = none)) := by
    rintro (⟨zero, level⟩ | ⟨real, none⟩)
    · obtain ⟨-, level'⟩ | ⟨real, -⟩ := some
      · rw [level] at level'
        cases level'
      · exact real zero
    · obtain ⟨zero, -⟩ | ⟨-, there⟩ := some
      · exact real zero
      · exact there none
  rw [if_neg accepted]

/-- Settles O43, by its commands and events: ktlbi, CPTLBI, the acknowledgement of an agent and the timeout. -/
theorem translationsInvalidated : Obligations.TranslationsInvalidated := by
  refine ⟨ktlbi_settled, cptlbi_settled, fun s id agent x listed => ?_, tlbiTimeout_settled⟩
  obtain ⟨refused, accepted⟩ := tlbiAck_settled s id agent x listed
  exact ⟨fun not => refused (mt (mayAck_iff s x agent).mp not), fun may => accepted ((mayAck_iff s x agent).mpr may)⟩

end Sys2Proof.Machine
end

section
/-! Why ENABLE need not find the queue entry that memory held before it (R35, R51, R223, R376): two regions may name the
same DRAM bytes. -/

namespace Sys2Proof.Machine

open Sys2Proof
open Sys2Proof.Safety

/-! ### Two regions with one footprint -/

/-- Two regions of 2 MiB, at physical addresses 0 and 0x20_0000, in the same bytes of one pseudo-channel: R223 does not
compare footprints. -/
def twinRegions : List RgnEntry :=
  [{ base := 0, size := 2, pcOff := 0, mode := 3, stack := 0 },
   { base := 0x200000, size := 2, pcOff := 0, mode := 3, stack := 0 }]

/-- A CREATED context with its descriptor at 0. -/
def twinCtx : Ctx :=
  { desc := 0, asid := 1, state := .created, destroying := false, prioCeil := 0, dieMask := 1, ptRoot := 0,
    queueTable := 0x200040, queueCount := 1, saveBase := 0, saveSize := 80 * mib, trapVec := 0, faultRec := 0,
    featEn := [0, 0, 0, 0], key := 0, queues := [] }

/-- The descriptor's bytes: asid 1, die mask 1, one queue with its entry at 0x20_0040, a save area of 80 MiB. -/
def twinMemory : Memory := [(0, 1), (3, 1), (0x10, 0x40), (0x12, 0x20), (0x18, 1), (0x2B, 5)]

/-- The package with that context alone. The sector of the descriptor's state field, which is also the upper half of the
queue entry, has a check value that fails (R377). -/
def twinState : State :=
  { State.reset with
    dram := twinMemory, checks := [(3, 1)], rgn := { State.reset.rgn with active := twinRegions }, ctxs := [twinCtx] }

/-- The descriptor as it reads. -/
def twinDescriptor : List Byte := twinState.homeBytes 0 128

theorem twinState_homesWf : homesWf twinState = true := by decide

theorem twinState_reads : twinState.cpPhys 0 128 = some twinDescriptor := by decide

theorem twinState_passes : refusal twinState twinCtx twinDescriptor false = none := by decide +kernel

/-- Memory holds an entry of zeros there, which breaks R52. -/
theorem twinState_entry : twinState.cpPhys 0x200040 64 = some (List.replicate 64 0) := by decide

/-- ENABLE stores to a part of the sector whose check value fails, which poisons it, and only then reads the entry. -/
theorem twinState_enabled : ((twinState.cpctl .m 0 2).queue 1 0).map Queue.error = some 4 := by decide +kernel

/-- Refutes O42, at ENABLE: the statement has a queue take its entry from memory as it was before the command. The
store to the descriptor's state field poisons its sector where the check value fails (R376, R377), and that sector is a
part of the entry under another region's name (R223), so the queue ends in ERROR with 4, not with 1. -/
theorem not_contextControl : ¬ Obligations.ContextControl := by
  intro H
  obtain ⟨_, _, named, _⟩ := H
  obtain ⟨_, _, _, _, _, enable, _⟩ := named .m 0 twinState twinCtx (by decide) ⟨rfl, rfl⟩
  obtain ⟨t, d, run, _, ⟨fields, _, _⟩, _, _, _, _, _, _, queues⟩ :=
    enable twinDescriptor rfl twinState_reads twinState_passes
  have table : d.queueTable = 0x200040 ∧ d.queueCount = 1 := by
    simp only [Prod.mk.injEq] at fields
    obtain ⟨_, _, _, _, table, count⟩ := fields
    exact ⟨table.trans (by decide), count.trans (by decide)⟩
  obtain ⟨_, _, entries⟩ := queues rfl
  obtain ⟨q, (there : t.queue 1 0 = some q), _, _, _, _, opened⟩ := entries 0 (by omega) twinState_homesWf (.inl (by rw [table.1]; decide))
  have error : q.error = 4 := by
    have := twinState_enabled
    rw [show twinState.cpctl .m 0 2 = t from Host.Outcome.next.inj run, there] at this
    exact Option.some.inj this
  simp only [opens, table.1, Nat.mul_zero, Nat.add_zero, twinState_entry] at opened
  rw [if_neg (by decide)] at opened
  exact absurd (error.symm.trans opened.2) (by decide)

end Sys2Proof.Machine
end
